-- ==== Sys2Proof/Word.lean ====
section
/-! DEFINITION. The words the ZW416 handles: bytes, 16-bit words, station IDs and station masks. -/

namespace Sys2Proof

/-- One byte of a payload, a record or a response. -/
abbrev Byte := BitVec 8

/-- A 16-bit field: epoch numbers, duties, digests, fingerprints, mark leads. -/
abbrev Word := BitVec 16

/-- A station ID, 0 to 15 (00_scope, Identifiers). -/
abbrev StationId := Fin 16

/-- A set of station IDs, coded as the spec codes it everywhere: bit n stands for station n
(10_formats, introduction). -/
abbrev StationMask := BitVec 16

/-- The station a four-bit field names. -/
def stationOfNibble (x : BitVec 4) : StationId := Fin.ofNat 16 x.toNat

/-- The four-bit field that names a station. -/
def nibbleOfStation (i : StationId) : BitVec 4 := BitVec.ofNat 4 i.val

end Sys2Proof
end

