-- ==== Sys2Proof/Config.lean ====
section
/-! DEFINITION. The free values: choices the spec leaves open and no proof may know. -/

namespace Sys2Proof

/-- Which of a boundary and a local cycle start that fall on one count is taken first. The spec allows
both orders (R138). The argument is the free-value counter of the state. -/
opaque Config.boundaryBeforeStart : Nat → Bool

/-- Which of a local cycle start and its own half-cycle point at P = 0 is taken first. The spec allows
both orders (R138, R148). -/
opaque Config.pointBeforeStart : Nat → Bool

/-- Which of the fault samples of a count and a half-cycle point on that count is taken first. The spec
allows both orders (R156, R158). -/
opaque Config.samplesBeforeCycle : Nat → Bool

end Sys2Proof
end

