-- ==== Sys2Proof/Syntax.lean ====
section
/-! DEFINITION. The commands of the block: one constructor of `Instr` for each row of
spec/opcode_table.json, with the fields each carries. -/

namespace Sys2Proof

/-- The 32 bytes of the setup record exactly as written, byte 0 the most significant (R174, R195). -/
abbrev SetupRecord := BitVec 256

/-- The three fault inputs FLT0 to FLT2 (R151). -/
inductive InputNo where
  | flt0 | flt1 | flt2
  deriving DecidableEq, Repr

/-- The kind of a station (R66, R174). -/
inductive StationKind where
  | phase | observer
  deriving DecidableEq, Repr

/-- Why a REMOVE is proposed (R91). -/
inductive RemoveReason where
  | left | lost
  deriving DecidableEq, Repr

/-- The fields of a BEAT payload, undefined values included (R71, R191). -/
structure BeatFields where
  en : Word
  resync : Bool
  tripHeld : Bool
  depth : BitVec 4
  localLatched : Bool
  shedLatched : Bool
  tripLatched : Bool
  lowestActive : Byte
  activeCount : Byte
  digest : Word
  lead : Word
  deriving DecidableEq, Repr

/-- The fields of a PROPOSE payload as they stand on the line, undefined codes included (R95, R194). -/
structure ProposeFields where
  kindCode : BitVec 4
  target : BitVec 4
  seq : Byte
  f : Word
  value : BitVec 24
  deriving DecidableEq, Repr

/-- The fields of an OBJECT payload (R102, R194). -/
structure ObjectFields where
  origin : BitVec 4
  seq : Byte
  reason : Byte
  deriving DecidableEq, Repr

/-- The fields of a TRIP payload (R163, R194). -/
structure TripFields where
  input : Byte
  en : Word
  deriving DecidableEq, Repr

/-- The fields of a ROSTER_REPLY payload; the roster is its 8 coded bytes (R83, R191, R192). -/
structure ReplyFields where
  asker : BitVec 4
  en : Word
  roster : BitVec 64
  duty : Word
  tripSet : StationMask
  digest : Word
  fingerprint : Word
  deriving DecidableEq, Repr

/-- The header fields of a frame that no block owns (R47, R190). The sender is apart. -/
structure FrameHeader where
  cls : BitVec 3
  kind : BitVec 4
  length : BitVec 5
  deriving DecidableEq, Repr

/-- The commands: one constructor per row of spec/opcode_table.json. -/
inductive Instr where
  | deviceReset
  | writeSetup (record : SetupRecord)
  | readSetup
  | start
  | stop
  | restart
  | readStatus
  | readRoster
  | readQueue
  | readFaults
  | submitDemand (duty : Word)
  | submitClearTrip (target : Byte)
  | withdraw (ticket : Byte)
  | readTicket (ticket : Byte)
  | faultAck (input : Byte)
  | readEvents
  | clearEvents (mask : BitVec 24)
  | setEventMask (mask : BitVec 24)
  | readId
  | unknownCommand (code : Byte)
  | portAbort
  | naturalBoundary
  | markEdge
  | markRelease
  | holdoverEntry
  | markDriveEnd (allHigh : Bool)
  | localCycleStart
  | compareMatch
  | deadtimeExpiry
  | halfCyclePoint
  | faultActivation (input : InputNo)
  | faultRelease (input : InputNo)
  | lineIdle
  | lineStuck
  | lineStuckRelease
  | transmissionAttempt (joining : Bool)
  | arbitrationLost
  | bodyClash
  | driveReadbackFail
  | formatError
  | errorFlagEnd
  | frameDiscarded (reachedSlot mismatch : Bool)
  | frameMissed (slotSeen : Bool)
  | beatAccepted (sender : StationId) (beat : BeatFields)
  | proposeAccepted (sender : StationId) (propose : ProposeFields)
  | objectAccepted (sender : StationId) (object : ObjectFields)
  | tripAccepted (sender : StationId) (trip : TripFields)
  | rosterQueryAccepted (sender : StationId)
  | rosterReplyAccepted (sender : StationId) (reply : ReplyFields)
  | unownedFrameAccepted (sender : StationId) (header : FrameHeader)
  deriving DecidableEq, Repr

end Sys2Proof
end

