-- ==== Sys2Proof/WellFormed.lean ====
section
/-! DEFINITION. Which terms of `Instr` stand for something that can happen on the pins. -/

namespace Sys2Proof

/-- The eighteen command codes of R196. -/
def commandCodes : List Byte :=
  [0x01, 0x02, 0x03, 0x04, 0x05, 0x06, 0x07, 0x08, 0x10, 0x11, 0x12, 0x13, 0x20, 0x21, 0x22, 0x23, 0x30, 0x31]

/-- Code, class and payload length of each frame kind (R190). -/
def frameKinds : List FrameHeader :=
  [⟨1, 0x2, 10⟩, ⟨2, 0x5, 3⟩, ⟨3, 0x6, 7⟩, ⟨0, 0x9, 3⟩, ⟨4, 0xA, 19⟩, ⟨5, 0xC, 0⟩]

/-- Whether a term stands for a command that can occur: an unknown command byte names no command (R172),
an unowned frame has at most 20 payload bytes and is of no kind of R190, and a check word is compared
only in a frame that reaches its vote slot (R51, R52). -/
def Instr.wf : Instr → Bool
  | .unknownCommand code => !commandCodes.contains code
  | .unownedFrameAccepted _ h => h.length.toNat ≤ 20 && !frameKinds.contains h
  | .frameDiscarded reachedSlot mismatch => reachedSlot || !mismatch
  | .deviceReset | .writeSetup _ | .readSetup | .start | .stop | .restart | .readStatus | .readRoster
  | .readQueue | .readFaults | .submitDemand _ | .submitClearTrip _ | .withdraw _ | .readTicket _
  | .faultAck _ | .readEvents | .clearEvents _ | .setEventMask _ | .readId | .portAbort
  | .naturalBoundary | .markEdge | .markRelease | .holdoverEntry | .markDriveEnd _ | .localCycleStart
  | .compareMatch | .deadtimeExpiry | .halfCyclePoint | .faultActivation _ | .faultRelease _ | .lineIdle
  | .lineStuck | .lineStuckRelease | .transmissionAttempt _ | .arbitrationLost | .bodyClash
  | .driveReadbackFail | .formatError | .errorFlagEnd | .frameMissed _ | .beatAccepted _ _
  | .proposeAccepted _ _ | .objectAccepted _ _ | .tripAccepted _ _ | .rosterQueryAccepted _
  | .rosterReplyAccepted _ _ => true

end Sys2Proof
end

