-- ==== Sys2Proof/Decode.lean ====
section
/-! DEFINITION. The byte layouts of 10_formats: the check word, the frames of the Station Bus and the
commands of the Setup Port, each decoded and encoded; and `decodeTableWord`, which reads nothing
because no row of spec/opcode_table.json gives bits. -/

namespace Sys2Proof

/-! ### Bytes, words and bits -/

/-- The two bytes of a 16-bit field, most significant first (10_formats, introduction). -/
def wordBytes (w : Word) : List Byte := [w.extractLsb' 8 8, w.extractLsb' 0 8]

/-- The 16-bit field of two bytes, most significant first. -/
def wordOfBytes (hi lo : Byte) : Word := hi ++ lo

/-- The bits of a byte, bit 7 first. -/
def byteBits (b : Byte) : List Bool :=
  [b.getLsbD 7, b.getLsbD 6, b.getLsbD 5, b.getLsbD 4, b.getLsbD 3, b.getLsbD 2, b.getLsbD 1, b.getLsbD 0]

/-- The bits of a sequence of bytes in the order they are sent. -/
def bytesBits (bs : List Byte) : List Bool := bs.flatMap byteBits

/-- The number a run of bits spells, the first bit the most significant. -/
def bitsNat (bits : List Bool) : Nat := bits.foldl (fun n b => 2 * n + b.toNat) 0

/-- `n` bytes read from a run of bits; bits that are not there read 0. -/
def bitsBytes : Nat → List Bool → List Byte
  | 0, _ => []
  | n + 1, bits => BitVec.ofNat 8 (bitsNat (bits.take 8)) :: bitsBytes n (bits.drop 8)

/-! ### The check word (R189) -/

/-- One bit of the check word computation: the feedback is the register's bit 15 XOR the data bit. -/
def checkBit (reg : Word) (bit : Bool) : Word :=
  if reg.getLsbD 15 != bit then (reg <<< 1) ^^^ 0x1021#16 else reg <<< 1

/-- The check word over a sequence of bytes (R189). -/
def checkWord (bs : List Byte) : Word := (bytesBits bs).foldl checkBit 0xFFFF#16

/-! ### Frames (R190, R191, R194) -/

/-- The two header bytes of a frame (R190). -/
def headerBytes (sender : StationId) (h : FrameHeader) : List Byte :=
  [h.cls ++ nibbleOfStation sender ++ h.kind.extractLsb' 3 1, h.kind.extractLsb' 0 3 ++ h.length]

/-- Sender and header fields of the two header bytes (R190). -/
def headerOfBytes (b0 b1 : Byte) : StationId × FrameHeader :=
  (stationOfNibble (b0.extractLsb' 1 4),
   { cls := b0.extractLsb' 5 3, kind := b0.extractLsb' 0 1 ++ b1.extractLsb' 5 3, length := b1.extractLsb' 0 5 })

/-- The payload of a BEAT (R191). -/
def encodeBeat (f : BeatFields) : List Byte :=
  wordBytes f.en
    ++ [BitVec.ofBool f.resync ++ BitVec.ofBool f.tripHeld ++ 0#2 ++ f.depth,
        0#5 ++ BitVec.ofBool f.localLatched ++ BitVec.ofBool f.shedLatched ++ BitVec.ofBool f.tripLatched,
        f.lowestActive, f.activeCount]
    ++ wordBytes f.digest ++ wordBytes f.lead

/-- The fields of a BEAT payload; bits the table does not name are ignored (R191). -/
def decodeBeat : List Byte → Option BeatFields
  | [e1, e0, b2, b3, lo, n, d1, d0, l1, l0] =>
    some { en := wordOfBytes e1 e0, resync := b2.getLsbD 7, tripHeld := b2.getLsbD 6,
           depth := b2.extractLsb' 0 4, localLatched := b3.getLsbD 2, shedLatched := b3.getLsbD 1,
           tripLatched := b3.getLsbD 0, lowestActive := lo, activeCount := n,
           digest := wordOfBytes d1 d0, lead := wordOfBytes l1 l0 }
  | _ => none

/-- The payload of a PROPOSE (R194). -/
def encodePropose (p : ProposeFields) : List Byte :=
  [p.kindCode ++ p.target, p.seq] ++ wordBytes p.f
    ++ [p.value.extractLsb' 16 8, p.value.extractLsb' 8 8, p.value.extractLsb' 0 8]

/-- The fields of a PROPOSE payload (R194). -/
def decodePropose : List Byte → Option ProposeFields
  | [b0, s, f1, f0, v2, v1, v0] =>
    some { kindCode := b0.extractLsb' 4 4, target := b0.extractLsb' 0 4, seq := s,
           f := wordOfBytes f1 f0, value := v2 ++ v1 ++ v0 }
  | _ => none

/-- The payload of an OBJECT (R194). -/
def encodeObject (o : ObjectFields) : List Byte := [0#4 ++ o.origin, o.seq, o.reason]

/-- The fields of an OBJECT payload (R194). -/
def decodeObject : List Byte → Option ObjectFields
  | [b0, s, r] => some { origin := b0.extractLsb' 0 4, seq := s, reason := r }
  | _ => none

/-- The payload of a TRIP (R194). -/
def encodeTrip (t : TripFields) : List Byte := t.input :: wordBytes t.en

/-- The fields of a TRIP payload (R194). -/
def decodeTrip : List Byte → Option TripFields
  | [i, e1, e0] => some { input := i, en := wordOfBytes e1 e0 }
  | _ => none

/-- The 8 roster bytes of a coded roster (R192). -/
def rosterBytes (r : BitVec 64) : List Byte :=
  [r.extractLsb' 56 8, r.extractLsb' 48 8, r.extractLsb' 40 8, r.extractLsb' 32 8,
   r.extractLsb' 24 8, r.extractLsb' 16 8, r.extractLsb' 8 8, r.extractLsb' 0 8]

/-- The payload of a ROSTER_REPLY (R191). -/
def encodeReply (r : ReplyFields) : List Byte :=
  (0#4 ++ r.asker : Byte) :: wordBytes r.en ++ rosterBytes r.roster ++ wordBytes r.duty
    ++ wordBytes r.tripSet ++ wordBytes r.digest ++ wordBytes r.fingerprint

/-- The fields of a ROSTER_REPLY payload (R191). -/
def decodeReply : List Byte → Option ReplyFields
  | [a, e1, e0, r7, r6, r5, r4, r3, r2, r1, r0, c1, c0, t1, t0, d1, d0, g1, g0] =>
    some { asker := a.extractLsb' 0 4, en := wordOfBytes e1 e0,
           roster := r7 ++ r6 ++ r5 ++ r4 ++ r3 ++ r2 ++ r1 ++ r0, duty := wordOfBytes c1 c0,
           tripSet := wordOfBytes t1 t0, digest := wordOfBytes d1 d0, fingerprint := wordOfBytes g1 g0 }
  | _ => none

/-- The accepted frame that a sender, a header and a payload make: a frame is handed to a block only
when its kind code is one of R190, its class is that kind's and its length is that kind's. -/
def decodeFrame (sender : StationId) (h : FrameHeader) (payload : List Byte) : Instr :=
  let unowned := Instr.unownedFrameAccepted sender h
  if h = ⟨1, 0x2, 10⟩ then (decodeBeat payload).elim unowned (.beatAccepted sender)
  else if h = ⟨2, 0x5, 3⟩ then (decodeObject payload).elim unowned (.objectAccepted sender)
  else if h = ⟨3, 0x6, 7⟩ then (decodePropose payload).elim unowned (.proposeAccepted sender)
  else if h = ⟨0, 0x9, 3⟩ then (decodeTrip payload).elim unowned (.tripAccepted sender)
  else if h = ⟨4, 0xA, 19⟩ then (decodeReply payload).elim unowned (.rosterReplyAccepted sender)
  else if h = ⟨5, 0xC, 0⟩ then .rosterQueryAccepted sender
  else unowned

/-- Sender, header and payload of an owned frame; none for a command that is no owned frame (R190). -/
def encodeFrame : Instr → Option (StationId × FrameHeader × List Byte)
  | .beatAccepted i f => some (i, ⟨1, 0x2, 10⟩, encodeBeat f)
  | .objectAccepted i o => some (i, ⟨2, 0x5, 3⟩, encodeObject o)
  | .proposeAccepted i p => some (i, ⟨3, 0x6, 7⟩, encodePropose p)
  | .tripAccepted i t => some (i, ⟨0, 0x9, 3⟩, encodeTrip t)
  | .rosterReplyAccepted i r => some (i, ⟨4, 0xA, 19⟩, encodeReply r)
  | .rosterQueryAccepted i => some (i, ⟨5, 0xC, 0⟩, [])
  | _ => none

/-- The bits of a frame from its start bit to the shape of its reject bit, as its transmitter sends
them (R47): the delimiter is recessive and is not among them. -/
def frameBits (sender : StationId) (h : FrameHeader) (payload : List Byte) : List Bool :=
  let body := headerBytes sender h ++ payload
  false :: bytesBits (body ++ wordBytes (checkWord body)) ++ [true]

/-! ### Setup Port commands (R196) -/

/-- The number of argument bytes of a command code; none for a byte that names no command (R196). -/
def commandArgs (code : Byte) : Option Nat :=
  if code ∈ [0x01#8, 0x02#8, 0x03#8, 0x04#8, 0x05#8, 0x06#8, 0x07#8, 0x11#8, 0x12#8, 0x13#8] then some 0
  else if code ∈ [0x08#8, 0x21#8, 0x22#8, 0x23#8] then some 1
  else if code = 0x20#8 then some 2
  else if code ∈ [0x30#8, 0x31#8] then some 3
  else if code = 0x10#8 then some 32
  else none

/-- A setup record from its bytes, byte 0 first. -/
def recordOfBytes (bs : List Byte) : SetupRecord := bs.foldl (fun r b => (r <<< 8) ||| b.setWidth 256) 0

/-- The command that a command byte and its argument bytes spell (R172, R196). -/
def decodeCommand (code : Byte) (args : List Byte) : Instr :=
  match code.toNat, args with
  | 0x01, _ => .readId
  | 0x02, _ => .readStatus
  | 0x03, _ => .readRoster
  | 0x04, _ => .readQueue
  | 0x05, _ => .readFaults
  | 0x06, _ => .readEvents
  | 0x07, _ => .readSetup
  | 0x08, [n] => .readTicket n
  | 0x10, bs => .writeSetup (recordOfBytes bs)
  | 0x11, _ => .start
  | 0x12, _ => .stop
  | 0x13, _ => .restart
  | 0x20, [hi, lo] => .submitDemand (wordOfBytes hi lo)
  | 0x21, [t] => .submitClearTrip t
  | 0x22, [n] => .withdraw n
  | 0x23, [i] => .faultAck i
  | 0x30, [a, b, c] => .clearEvents (a ++ b ++ c)
  | 0x31, [a, b, c] => .setEventMask (a ++ b ++ c)
  | _, _ => .unknownCommand code

/-- Byte `i` of a setup record (R195). -/
def recordByte (r : SetupRecord) (i : Nat) : Byte := r.extractLsb' (8 * (31 - i)) 8

/-- The 32 bytes of a setup record, byte 0 first (R174). -/
def recordBytes (r : SetupRecord) : List Byte := (List.range 32).map (recordByte r)

/-- The three bytes of a mask (R196). -/
def maskBytes (m : BitVec 24) : List Byte := [m.extractLsb' 16 8, m.extractLsb' 8 8, m.extractLsb' 0 8]

/-- The command and argument bytes of a Setup Port command; none for a command that is no transaction
(R196). -/
def encodeCommand : Instr → Option (List Byte)
  | .readId => some [0x01]
  | .readStatus => some [0x02]
  | .readRoster => some [0x03]
  | .readQueue => some [0x04]
  | .readFaults => some [0x05]
  | .readEvents => some [0x06]
  | .readSetup => some [0x07]
  | .readTicket n => some [0x08, n]
  | .writeSetup r => some (0x10 :: recordBytes r)
  | .start => some [0x11]
  | .stop => some [0x12]
  | .restart => some [0x13]
  | .submitDemand d => some (0x20 :: wordBytes d)
  | .submitClearTrip t => some [0x21, t]
  | .withdraw n => some [0x22, n]
  | .faultAck i => some [0x23, i]
  | .clearEvents m => some (0x30 :: maskBytes m)
  | .setEventMask m => some (0x31 :: maskBytes m)
  | .unknownCommand c => some [c]
  | _ => none

/-- The command a word spells by the bits of spec/opcode_table.json: none, because no row of the table
gives bits (log 25). -/
def decodeTableWord (_nbits _w : Nat) : Option Instr := none

end Sys2Proof
end

