-- ==== Sys2Proof/Machine/State.lean ====
section
/-! DEFINITION. The state of one ZW416 station as plain data: every piece of state of its nine blocks,
its input pins, and the queue of waiting commands; and the state after a device reset. -/

namespace Sys2Proof.Machine

/-- No command of this block stops the machine: every row of the table completes in every state, so no
reason to fault exists. -/
inductive Fault where
  deriving DecidableEq, Repr

/-- Why a command has no meaning. -/
inductive Refusal where
  /-- Raised by `exec` alone for a row that has no meaning yet; safe: nothing is claimed of such a row. -/
  | notModelled (mnemonic : String)
  deriving DecidableEq, Repr

/-! ### Station Controller (R1) -/

/-- The nine station states (R1). -/
inductive StationState where
  | setup | listen | joining | member | leaving | dormant | resync | isolated | halted
  deriving DecidableEq, Repr

/-- The reason recorded for ISOLATED and HALTED (R1). -/
inductive Reason where
  | none | markAbsent | markStuck | markDrive | dataStuck | rxConfined | txConfined | idConflict | fingerprint
  deriving DecidableEq, Repr

/-- How far the station's copy of the group state can be trusted (R6). -/
inductive FollowStanding where
  | none | held | confirmed
  deriving DecidableEq, Repr

/-- Origin station ID and origin sequence number (00_scope, Identifiers). -/
structure ProposalId where
  origin : StationId
  seq : Byte
  deriving DecidableEq, Repr

/-- The Station Controller's state (R1), with two flags its rules imply: whether a frame has been accepted
since LISTEN was entered (R18), and whether an OBJECT WITHDRAWN against the own ADMIT is still to be
queued (R11, ADMIT in flight at STOP). -/
structure StationController where
  station : StationState
  reason : Reason
  quiet : Nat
  unlocked : Nat
  joinHoldoff : Nat
  standing : FollowStanding
  leavePending : Bool
  tracked : Option ProposalId
  frameSinceListen : Bool
  withdrawOwed : Bool
  deriving DecidableEq, Repr

/-! ### Time Base (R20) -/

/-- The time-base states (R20). -/
inductive TbState where
  | free | acquiring | locked | holdover
  deriving DecidableEq, Repr

/-- The state to return to from HOLDOVER (R20). -/
inductive Resume where
  | free | locked
  deriving DecidableEq, Repr

/-- The Time Base's state (R20). `driveLeft` 0 is an idle mark drive. Implied: `filterRun`, the
consecutive samples that disagree with the filtered level (R27), and `driveReadLow`, whether a sample of
the drive in progress read low (R26). -/
structure TimeBase where
  b : Nat
  k : Nat
  en : Word
  state : TbState
  inWindow : Nat
  lastLead : Word
  markSeen : Bool
  enAdopted : Bool
  levelLow : Bool
  lowRun : Nat
  filterRun : Nat
  resume : Resume
  holdoverEpochs : Nat
  driveLeft : Nat
  driveReadLow : Bool
  failedDrives : Nat
  deriving DecidableEq, Repr

/-! ### Bus Interface (R42) -/

/-- The line states (R42). -/
inductive LineState where
  | idle | busy | stuck
  deriving DecidableEq, Repr

/-- What a proposal asks for (R91, R95). The target of an ADMIT and of a SHED is the origin. -/
inductive ProposalContent where
  | admission (fingerprint : Word) (kind : StationKind)
  | remove (target : StationId) (reason : RemoveReason)
  | shed
  | demand (duty : Word)
  | clearTrip (target : StationId)
  deriving DecidableEq, Repr

/-- Why a station objects (R102). -/
inductive ObjectReason where
  | dutyLimit | withdrawn | stillActive | present
  deriving DecidableEq, Repr

/-- A frame of the transmit queue as its owner enqueued it (R56, R58): F of a PROPOSE and the contents of
a ROSTER_REPLY are built at each attempt. -/
inductive QueuedBody where
  | beat (fields : BeatFields)
  | object (id : ProposalId) (reason : ObjectReason)
  | propose (seq : Byte) (content : ProposalContent)
  | reply (asker : StationId)
  | query
  deriving DecidableEq, Repr

/-- A frame of the transmit queue with its attempt count and whether its attempt is in flight (R42, R56). -/
structure QueuedFrame where
  body : QueuedBody
  attempts : Nat
  inFlight : Bool
  deriving DecidableEq, Repr

/-- The TRIP of the TRIP slot (R57, R163). -/
structure SlotTrip where
  fields : TripFields
  attempts : Nat
  inFlight : Bool
  deriving DecidableEq, Repr

/-- The attempt in flight: the bits being sent, whether the queued BEAT was replaced meanwhile (R57), and
the station clocks since its start bit began. -/
structure Attempt where
  frame : Instr
  bits : List Bool
  beatReplaced : Bool
  age : Nat
  deriving DecidableEq, Repr

/-- The frame being followed (R42, R51). `bits` are the bits decided so far, start bit first; `taken` and
`dominant` count the samples of the present bit; `error` is a check-word mismatch; `lost` marks a follower that
lost bit synchronisation or a usable length, with what it has seen since; `mismatch` a transmitter's 1 that read 0
after arbitration, its shape not yet seen (R50); `slotAge` counts from the falling edge of the reject bit; `sent` marks
a frame of this station's whose attempt a change of state ended after that edge (R61). -/
structure RxContext where
  bits : List Bool
  taken : Nat
  dominant : Nat
  error : Bool
  mismatch : Bool
  lost : Bool
  sawFlag : Bool
  sawEdge : Bool
  rejecting : Bool
  slotAge : Option Nat
  accepted : Option Bool
  sent : Bool
  deriving DecidableEq, Repr

/-- The Bus Interface's state (R42). Implied by R43 to R46: the station clocks left of an error flag in
progress, and the timers of the SBD line. -/
structure BusInterface where
  line : LineState
  rx : Option RxContext
  attempt : Option Attempt
  queue : List QueuedFrame
  tripSlot : Option SlotTrip
  abandonCount : Nat
  rejectCount : Nat
  clashWindow : Option Nat
  stuckEpochs : Nat
  errorFlagLeft : Nat
  wasDominant : Bool
  dominantRun : Nat
  recessiveRun : Nat
  edgeAge : Nat
  deriving DecidableEq, Repr

/-! ### Roster Table (R66, R67) -/

/-- The state of a roster entry (R66). -/
inductive EntryState where
  | absent | active | shed
  deriving DecidableEq, Repr

/-- The last beat record of an entry (R66). -/
structure BeatRecord where
  en : Word
  resync : Bool
  digest : Word
  depth : Nat
  localLatched : Bool
  shedLatched : Bool
  tripLatched : Bool
  tripHeld : Bool
  lead : Word
  deriving DecidableEq, Repr

/-- A roster entry (R66). Its slot is derived from the whole roster (R68, log 27). -/
structure RosterEntry where
  state : EntryState
  kind : StationKind
  admittedAt : Option Word
  silent : Nat
  heard : Bool
  lastBeat : Option BeatRecord
  deriving DecidableEq, Repr

/-- Where the station's copy of the group state came from (R67). -/
inductive CopySource where
  | none | own | old | reply
  deriving DecidableEq, Repr

/-- The Roster Table's state (R66, R67): sixteen entries by ascending ID, and what stands beside them. -/
structure RosterTable where
  entries : List RosterEntry
  copySource : CopySource
  epochDigest : Word
  armed : Bool
  expectedKey : Option Nat
  groupFingerprint : Option Word
  countdown : Nat
  pendingReplies : StationMask
  heardGroup : Option Nat
  deriving DecidableEq, Repr

/-! ### Commit Queue (R91, R92) -/

/-- The phase of an entry (R91). -/
inductive Phase where
  | openPhase | firm
  deriving DecidableEq, Repr

/-- An entry of the Commit Queue (R91). -/
structure QueueEntry where
  id : ProposalId
  content : ProposalContent
  f : Word
  phase : Phase
  isLocal : Bool
  deriving DecidableEq, Repr

/-- The Commit Queue's state (R91, R92). `frozenRef` holds the reference epoch while it is fixed (DORMANT,
HALTED); absent, the reference epoch is the current EN. -/
structure CommitQueue where
  entries : List QueueEntry
  duty : Word
  nextSeq : Byte
  pendingObjections : List (ProposalId × ObjectReason)
  frozenRef : Option Word
  deriving DecidableEq, Repr

/-! ### Placement Unit (R122) and Output Stage (R134) -/

/-- The Placement Unit's state (R122). -/
structure PlacementUnit where
  target : Option Nat
  offset : Nat
  slewing : Bool
  step : Int
  length : Nat
  deriving DecidableEq, Repr

/-- The output modes (R134). -/
inductive OutputMode where
  | off | lowClamp | run
  deriving DecidableEq, Repr

/-- The Output Stage's state (R134). `inactiveRun` excludes the present count. Implied: the levels of the count before
(R143), whether a jump released the gates in this count (R146), and whether the cycle was re-anchored in it (R148). -/
structure OutputStage where
  p : Nat
  mode : OutputMode
  cmp : Nat
  clampFlag : Bool
  clampRecord : Option Word
  gh : Bool
  gl : Bool
  inactiveRun : Nat
  blanking : Bool
  ghWas : Bool
  glWas : Bool
  released : Bool
  anchored : Bool
  deriving DecidableEq, Repr

/-! ### Fault Unit (R152) -/

/-- The record of one fault input (R152). -/
structure InputRecord where
  active : Bool
  disagree : Nat
  latched : Bool
  ackArmed : Bool
  activations : Nat
  deriving DecidableEq, Repr

/-- The most recent TRIP processed (R152). -/
structure LastTrip where
  sender : StationId
  input : Byte
  enCarried : Word
  enAccepted : Word
  deriving DecidableEq, Repr

/-- The Fault Unit's state (R152). -/
structure FaultUnit where
  flt0 : InputRecord
  flt1 : InputRecord
  flt2 : InputRecord
  tripSet : StationMask
  lastTrip : Option LastTrip
  shedFrame : Option ProposalId
  readmitFrame : Option ProposalId
  deriving DecidableEq, Repr

/-! ### Setup Port (R170) -/

/-- Why a proposal is refused on arrival (R97). -/
inductive ArrivalRefusal where
  | late | notMember | notAllowed | fingerprint | notTripped | duplicate | full
  deriving DecidableEq, Repr

/-- Why a ticket is voided (R180). -/
inductive VoidReason where
  | resync | isolated | retripped | restart
  deriving DecidableEq, Repr

/-- The state of a ticket with the reason and objector that go with it (R180). -/
inductive TicketState where
  | waiting | openState | firm
  | applied (noEffect : Bool)
  | refused (reason : ArrivalRefusal)
  | objected (reason : ObjectReason) (objector : StationId)
  | abandoned
  | voided (reason : VoidReason)
  deriving DecidableEq, Repr

/-- What a ticket's proposal asks for (R180). -/
inductive TicketKind where
  | demand (duty : Word)
  | clearTrip (target : StationId)
  | remove
  deriving DecidableEq, Repr

/-- A held ticket (R180). Its age is its place in the table's list. `reserved` marks a ticket reserved by
STOP in JOINING that has no proposal yet (R11); `withdrawQueued` that the objection a withdraw request
asked for has been queued (R179). -/
structure Ticket where
  number : Byte
  kind : TicketKind
  state : TicketState
  f : Option Word
  withdrawRequest : Bool
  withdrawQueued : Bool
  reserved : Bool
  deriving DecidableEq, Repr

/-- The state of every block that READ_STATUS copies (R184): of the Setup Port all but the transaction in progress, its
response and the buffer itself. -/
structure Snapshot where
  stale : Bool
  sc : StationController
  tb : TimeBase
  bi : BusInterface
  rt : RosterTable
  cq : CommitQueue
  pu : PlacementUnit
  os : OutputStage
  fu : FaultUnit
  record : SetupRecord
  locked : Bool
  fingerprint : Word
  tickets : List Ticket
  events : BitVec 17
  mask : BitVec 17
  deriving DecidableEq, Repr

/-- The transaction in progress (R170, R171): the bits received, whether the command was evaluated, and
the response bits still to be shifted out with the present level of SDO. -/
structure Transaction where
  received : List Bool
  evaluated : Bool
  toSend : List Bool
  sdo : Bool
  deriving DecidableEq, Repr

/-- The Setup Port's state (R170). Tickets stand in order of issue, oldest first; a free record is one not
listed. Bit n of `events` and `mask` stands for event n of R196. `response` is the status byte and data of
the last evaluated command (R171, R173). -/
structure SetupPort where
  record : SetupRecord
  locked : Bool
  fingerprint : Word
  transaction : Option Transaction
  snapshot : Snapshot
  tickets : List Ticket
  events : BitVec 17
  mask : BitVec 17
  response : List Byte
  scsWas : Bool
  sckWas : Bool
  deriving DecidableEq, Repr

/-! ### Pins and the whole state -/

/-- The input pins as the environment holds them (00_scope, Pins; log 4). NRST, SCS, SCK, SDI and the fault
inputs are pin levels, true high. `sbdPulled` and `sbmPulled` say that another station pulls the line;
`sbdOpen` and `sbmOpen` that this station's own pull does not reach it. -/
structure Pins where
  nrst : Bool
  scs : Bool
  sck : Bool
  sdi : Bool
  flt0 : Bool
  flt1 : Bool
  flt2 : Bool
  sbdPulled : Bool
  sbmPulled : Bool
  sbdOpen : Bool
  sbmOpen : Bool
  deriving DecidableEq, Repr

/-- The state of one station. `phase` is the station clocks since the last count (00_scope, Clocks and
counts); `freeCount` numbers the free values used so far (log 3); `pending` is the queue of waiting
commands, first in first out. -/
structure State where
  sc : StationController
  tb : TimeBase
  bi : BusInterface
  rt : RosterTable
  cq : CommitQueue
  pu : PlacementUnit
  os : OutputStage
  fu : FaultUnit
  sp : SetupPort
  phase : Nat
  pins : Pins
  freeCount : Nat
  pending : List Instr
  deriving DecidableEq, Repr

/-! ### Reset values -/

/-- R1, device reset. -/
def StationController.reset : StationController where
  station := .setup
  reason := .none
  quiet := 0
  unlocked := 0
  joinHoldoff := 0
  standing := .none
  leavePending := false
  tracked := none
  frameSinceListen := false
  withdrawOwed := false

/-- R20, device reset. -/
def TimeBase.reset : TimeBase where
  b := 0
  k := 0
  en := 0
  state := .free
  inWindow := 0
  lastLead := 0
  markSeen := false
  enAdopted := false
  levelLow := false
  lowRun := 0
  filterRun := 0
  resume := .free
  holdoverEpochs := 0
  driveLeft := 0
  driveReadLow := false
  failedDrives := 0

/-- R42, device reset. -/
def BusInterface.reset : BusInterface where
  line := .idle
  rx := none
  attempt := none
  queue := []
  tripSlot := none
  abandonCount := 0
  rejectCount := 0
  clashWindow := none
  stuckEpochs := 0
  errorFlagLeft := 0
  wasDominant := false
  dominantRun := 0
  recessiveRun := 0
  edgeAge := 0

/-- The ABSENT entry (R66). -/
def RosterEntry.absentEntry : RosterEntry where
  state := .absent
  kind := .phase
  admittedAt := none
  silent := 0
  heard := false
  lastBeat := none

/-- R67, device reset. -/
def RosterTable.reset : RosterTable where
  entries := List.replicate 16 .absentEntry
  copySource := .none
  epochDigest := 0
  armed := false
  expectedKey := none
  groupFingerprint := none
  countdown := 0
  pendingReplies := 0
  heardGroup := none

/-- R93, device reset. -/
def CommitQueue.reset : CommitQueue where
  entries := []
  duty := 0
  nextSeq := 0
  pendingObjections := []
  frozenRef := none

/-- R122, device reset; L is the default record's PERIOD. -/
def PlacementUnit.reset : PlacementUnit where
  target := none
  offset := 0
  slewing := false
  step := 0
  length := 2000

/-- R134, device reset; the inactive run is the default record's DT. -/
def OutputStage.reset : OutputStage where
  p := 0
  mode := .off
  cmp := 0
  clampFlag := false
  clampRecord := none
  gh := false
  gl := false
  inactiveRun := 20
  blanking := false
  ghWas := false
  glWas := false
  released := false
  anchored := false

/-- R152, device reset of one input record. -/
def InputRecord.reset : InputRecord where
  active := false
  disagree := 0
  latched := false
  ackArmed := false
  activations := 0

/-- R152, device reset. -/
def FaultUnit.reset : FaultUnit where
  flt0 := .reset
  flt1 := .reset
  flt2 := .reset
  tripSet := 0
  lastTrip := none
  shedFrame := none
  readmitFrame := none

/-- The default setup record, byte by byte (R195). -/
def defaultRecord : SetupRecord :=
  0x00000103_07D0_0050_0020_0014_0028_F332_0010_0008_03_04_00_030000_030000_030000#256

/-- The fingerprint of the default record: the check word over its eleven timing bytes (R176, R195). -/
def defaultFingerprint : Word :=
  checkWord ([4, 5, 2, 6, 7, 8, 9, 3, 20, 18, 19].map (recordByte defaultRecord))

/-- A stale snapshot: the device-reset state (R185). -/
def Snapshot.reset : Snapshot where
  stale := true
  sc := .reset
  tb := .reset
  bi := .reset
  rt := .reset
  cq := .reset
  pu := .reset
  os := .reset
  fu := .reset
  record := defaultRecord
  locked := false
  fingerprint := defaultFingerprint
  tickets := []
  events := 0
  mask := 0

/-- R170, device reset. -/
def SetupPort.reset : SetupPort where
  record := defaultRecord
  locked := false
  fingerprint := defaultFingerprint
  transaction := none
  snapshot := .reset
  tickets := []
  events := 0
  mask := 0
  response := []
  scsWas := true
  sckWas := false

/-- Idle levels of the input pins (log 4). -/
def Pins.idle : Pins where
  nrst := true
  scs := true
  sck := false
  sdi := false
  flt0 := false
  flt1 := false
  flt2 := false
  sbdPulled := false
  sbmPulled := false
  sbdOpen := false
  sbmOpen := false

/-- The station right after a device reset (R1, R20, R42, R67, R93, R122, R134, R152, R170). -/
def State.reset : State where
  sc := .reset
  tb := .reset
  bi := .reset
  rt := .reset
  cq := .reset
  pu := .reset
  os := .reset
  fu := .reset
  sp := .reset
  phase := 0
  pins := .idle
  freeCount := 0
  pending := []

end Sys2Proof.Machine
end

