-- ==== Sys2Proof/Machine/Operands.lean ====
section
/-! DEFINITION. The fields of the setup record as the blocks read them (R151, R174, R195), the checks of
START (R175), the fingerprint (R176), and the quantities the other chapters derive from them. -/

namespace Sys2Proof.Machine

/-! ### Fields of the setup record (R195) -/

/-- The two-byte field at byte `i`, most significant byte first. -/
def recordWord (r : SetupRecord) (i : Nat) : Word := recordByte r i ++ recordByte r (i + 1)

/-- The one-byte field at byte `i` as a number. -/
def recordNat (r : SetupRecord) (i : Nat) : Nat := (recordByte r i).toNat

/-- The two-byte field at byte `i` as a number. -/
def recordNat2 (r : SetupRecord) (i : Nat) : Nat := (recordWord r i).toNat

/-- The classes of a fault input (R151). -/
inductive InputClass where
  | unused | localClass | shed | trip
  deriving DecidableEq, Repr

/-- The settings of one fault input (R151, R195). `lowClamp` is the action LOW_CLAMP, else OFF. -/
structure InputSettings where
  activeLow : Bool
  filter : Nat
  cls : InputClass
  lowClamp : Bool
  manual : Bool
  deriving DecidableEq, Repr

/-- The first of an input's three bytes (R195). -/
def inputBase : InputNo → Nat
  | .flt0 => 23
  | .flt1 => 26
  | .flt2 => 29

/-- The class a class byte names; an undefined code reads UNUSED and fails the validation (R175, R195). -/
def classOfByte (b : Byte) : InputClass :=
  match b.toNat with
  | 1 => .localClass
  | 2 => .shed
  | 3 => .trip
  | _ => .unused

/-- The settings of an input as the record holds them (R195). -/
def inputSettings (r : SetupRecord) (i : InputNo) : InputSettings :=
  let mode := recordByte r (inputBase i + 2)
  { activeLow := mode.getLsbD 7
    filter := recordNat r (inputBase i)
    cls := classOfByte (recordByte r (inputBase i + 1))
    lowClamp := mode.extractLsb' 0 2 = 1#2
    manual := mode.getLsbD 6 }

/-- The three inputs in order. -/
def allInputs : List InputNo := [.flt0, .flt1, .flt2]

/-- The sixteen station IDs in ascending order. -/
def allStations : List StationId := [0, 1, 2, 3, 4, 5, 6, 7, 8, 9, 10, 11, 12, 13, 14, 15]

namespace State

/-- The own station ID (R174). Before START the byte may hold any value; it is then read by no rule. -/
def ownId (s : State) : StationId := Fin.ofNat 16 (recordNat s.sp.record 0)

/-- The KIND of the setup record (R174, R195). -/
def ownKind (s : State) : StationKind := if recordByte s.sp.record 1 = 1#8 then .observer else .phase

def prescale (s : State) : Nat := recordNat s.sp.record 2
def commitLead (s : State) : Word := BitVec.ofNat 16 (recordNat s.sp.record 3)
def period (s : State) : Nat := recordNat2 s.sp.record 4
def epochLen (s : State) : Nat := recordNat2 s.sp.record 6
def bitTime (s : State) : Nat := recordNat2 s.sp.record 8
def deadtime (s : State) : Nat := recordNat2 s.sp.record 10
def minPulse (s : State) : Nat := recordNat2 s.sp.record 12
def dutyMax (s : State) : Word := recordWord s.sp.record 14
def slewStep (s : State) : Nat := recordNat2 s.sp.record 16
def lockWindow (s : State) : Nat := recordNat2 s.sp.record 18
def lossEpochs (s : State) : Nat := recordNat s.sp.record 20
def listenEpochs (s : State) : Nat := recordNat s.sp.record 21
def ghActiveLow (s : State) : Bool := (recordByte s.sp.record 22).getLsbD 0
def glActiveLow (s : State) : Bool := (recordByte s.sp.record 22).getLsbD 1

/-- The settings of a fault input (R151). -/
def input (s : State) (i : InputNo) : InputSettings := inputSettings s.sp.record i

/-- The record of a fault input (R152). -/
def inputRecord (s : State) : InputNo → InputRecord
  | .flt0 => s.fu.flt0
  | .flt1 => s.fu.flt1
  | .flt2 => s.fu.flt2

/-- The counts of an epoch, E (R20). -/
def epochCounts (s : State) : Nat := s.epochLen * s.period

/-- The position in the epoch, pos (R20). -/
def pos (s : State) : Nat := s.tb.k * s.period + s.tb.b

/-- GUARD in counts (R40). -/
def guardCounts (s : State) : Nat := s.lockWindow + 16

/-- The quiet boundaries a station waits for, LISTEN_EPOCHS + ID (R5, R15). -/
def quietLimit (s : State) : Nat := s.listenEpochs + s.ownId.val

/-- MEMBER or LEAVING: the member states, which vote and may switch (R2). -/
def isMember (s : State) : Bool := s.sc.station = .member || s.sc.station = .leaving

/-- LISTEN, JOINING or RESYNC: the follower states (R2). -/
def isFollower (s : State) : Bool :=
  s.sc.station = .listen || s.sc.station = .joining || s.sc.station = .resync

/-- The states that drive marks while LOCKED (R2, R24). -/
def drivesMarks (s : State) : Bool := s.isMember || s.sc.station = .resync

/-- The states in which the Bus Interface follows frames (R51). -/
def followsFrames (s : State) : Bool :=
  s.sc.station ≠ .setup && s.sc.station ≠ .isolated && s.sc.station ≠ .halted

/-- A trusted copy of the group state: copy source OWN or REPLY (R67). -/
def hasCopy (s : State) : Bool := s.rt.copySource = .own || s.rt.copySource = .reply

/-- Whether accepted PROPOSE, OBJECT and TRIP frames reach the shared state (R96, R162). -/
def processesShared (s : State) : Bool := s.isMember || (s.isFollower && s.hasCopy)

end State

/-! ### Validation at START (R175) -/

/-- Whether a number lies in a range, both ends included. -/
def inRange (lo n hi : Nat) : Bool := lo ≤ n && n ≤ hi

/-- Check 10 for one input: filter 1 to 15, a defined class and a defined action (R175, R195). -/
def inputCodesOk (r : SetupRecord) (i : InputNo) : Bool :=
  inRange 1 (recordNat r (inputBase i)) 15 && recordNat r (inputBase i + 1) ≤ 3
    && ((recordByte r (inputBase i + 2)).extractLsb' 0 2).toNat ≤ 1

/-- Check 15 for one input: an observer has no class SHED and no action LOW_CLAMP (R175). -/
def observerInputOk (r : SetupRecord) (i : InputNo) : Bool :=
  (inputSettings r i).cls ≠ .shed && !(inputSettings r i).lowClamp

/-- The fifteen checks of R175 in order, each true when it passes. -/
def setupChecks (r : SetupRecord) : List Bool :=
  let period := recordNat2 r 4
  let epochLen := recordNat2 r 6
  let bitTime := recordNat2 r 8
  let dt := recordNat2 r 10
  let minPulse := recordNat2 r 12
  [ inRange 0 (recordNat r 0) 15,
    recordNat r 1 ≤ 1,
    [1, 2, 4, 8].contains (recordNat r 2),
    64 ≤ period,
    inRange 4 epochLen 255,
    inRange 32 bitTime 4095,
    inRange 2 (recordNat r 3) 15,
    inRange 2 (recordNat r 20) 8,
    inRange 2 (recordNat r 21) 15,
    allInputs.all (inputCodesOk r),
    4096 * bitTime ≤ epochLen * period * recordNat r 2,
    dt ≤ 1023 && minPulse ≤ 1023 && 2 * (dt + minPulse) < period && 2 * dt ≤ minPulse,
    inRange 1 (recordNat2 r 16) (period / 8),
    inRange 1 (recordNat2 r 18) (period / 4),
    recordNat r 1 ≠ 1 || allInputs.all (observerInputOk r) ]

/-- The order number of the first check that fails, 1 to 15, or none (R175, R196). -/
def firstFailure (checks : List Bool) : Option Nat :=
  (checks.findIdx? (fun ok => !ok)).map (· + 1)

/-- The detail code with which START is refused, or none if the record is valid (R175). -/
def validateSetup (r : SetupRecord) : Option Nat := firstFailure (setupChecks r)

/-! ### Fingerprint (R176, R195) -/

/-- The eleven bytes the fingerprint covers, in order (R195). -/
def fingerprintBytes (r : SetupRecord) : List Byte :=
  [4, 5, 2, 6, 7, 8, 9, 3, 20, 18, 19].map (recordByte r)

/-- The fingerprint of a record (R176). -/
def fingerprintOf (r : SetupRecord) : Word := checkWord (fingerprintBytes r)

end Sys2Proof.Machine
end

