-- ==== Sys2Proof/Machine/Flags.lean ====
section
/-! DEFINITION. The event set, the status codes of the Setup Port and the output pins: what the outside
sees of the state at once. -/

namespace Sys2Proof.Machine

/-! ### Events (R186, R196) -/

/-- The seventeen events in the order of R186. -/
inductive Event where
  | state | lock | timeStep | strayMark | roster | placed | ticket | faultOn | faultOff | tripOn | tripOff
  | clamp | lateObjection | txAbandoned | bodyClash | line | portAbort
  deriving DecidableEq, Repr

/-- The bit that stands for an event in the event set and mask (R196). -/
def Event.index : Event → Nat
  | .state => 0
  | .lock => 1
  | .timeStep => 2
  | .strayMark => 3
  | .roster => 4
  | .placed => 5
  | .ticket => 6
  | .faultOn => 7
  | .faultOff => 8
  | .tripOn => 9
  | .tripOff => 10
  | .clamp => 11
  | .lateObjection => 12
  | .txAbandoned => 13
  | .bodyClash => 14
  | .line => 15
  | .portAbort => 16

/-- The event alone as a set. -/
def Event.bit (e : Event) : BitVec 17 := 1#17 <<< e.index

/-- Whether an event is in the event set. -/
def State.hasEvent (s : State) (e : Event) : Bool := s.sp.events.getLsbD e.index

/-- ATTN is asserted while an event of the set is also in the mask (R187). -/
def State.attn (s : State) : Bool := s.sp.events &&& s.sp.mask ≠ 0#17

/-! ### Status codes (R173, R196) -/

/-- The status codes of R173. -/
inductive Status where
  | accepted | acceptedTicket | refusedState | refusedLocked | refusedInvalid | refusedQueueFull
  | refusedTickets | refusedArgument | tooLate | noTicket | noInput | notLatched | notManual | stillActive
  | unknownCommand
  deriving DecidableEq, Repr

/-- The byte of a status code (R196). -/
def Status.code : Status → Byte
  | .accepted => 0x00
  | .acceptedTicket => 0x01
  | .refusedState => 0x10
  | .refusedLocked => 0x11
  | .refusedInvalid => 0x12
  | .refusedQueueFull => 0x13
  | .refusedTickets => 0x14
  | .refusedArgument => 0x15
  | .tooLate => 0x20
  | .noTicket => 0x21
  | .noInput => 0x30
  | .notLatched => 0x31
  | .notManual => 0x32
  | .stillActive => 0x33
  | .unknownCommand => 0x7F

/-! ### Output pins -/

namespace State

/-- GEN is asserted in LOW_CLAMP and RUN (R137, R138). -/
def genAsserted (s : State) : Bool := s.os.mode ≠ .off

/-- The level of GH: low while NRST is low, else by level and polarity (R135). -/
def ghPin (s : State) : Bool := s.pins.nrst && (s.os.gh != s.ghActiveLow)

/-- The level of GL (R135). -/
def glPin (s : State) : Bool := s.pins.nrst && (s.os.gl != s.glActiveLow)

/-- The level of GEN; its polarity is fixed (R135). -/
def genPin (s : State) : Bool := s.pins.nrst && s.genAsserted

/-- The level of ATTN, active low; high while NRST is low (R187). -/
def attnPin (s : State) : Bool := !s.pins.nrst || !s.attn

/-- SDO: driven while SCS is low, undriven while it is high (R171). -/
def sdoPin (s : State) : Option Bool :=
  if s.pins.scs then none else some ((s.sp.transaction.map (·.sdo)).getD false)

/-- The station's own pull on SBM (R24). -/
def pullsSbm (s : State) : Bool := s.tb.driveLeft ≠ 0

/-- SBM as the station samples it: low when another station pulls it or the own pull reaches it. -/
def sbmLow (s : State) : Bool := s.pins.sbmPulled || (s.pullsSbm && !s.pins.sbmOpen)

/-- Whether a transmitter holds the line dominant at this station clock of its attempt: a 1 for the first
quarter of the bit, a 0 for the first three quarters (R43). -/
def attemptPulls (s : State) (a : Attempt) : Bool :=
  let phase := a.age % s.bitTime
  match a.bits[a.age / s.bitTime]? with
  | some true => phase < s.bitTime / 4
  | some false => phase < 3 * s.bitTime / 4
  | none => false

/-- Whether the reject vote of this station holds the line at this station clock: the first three quarters
of the reject bit (R52). -/
def votePulls (s : State) : Bool :=
  match s.bi.rx with
  | some rx => rx.rejecting && (rx.slotAge.map fun n => decide (n < 3 * s.bitTime / 4)).getD false
  | none => false

/-- The station's own pull on SBD: its attempt, and in MEMBER and LEAVING alone its vote and its error flag (R2, R42 to
R44, R52). -/
def pullsSbd (s : State) : Bool :=
  (s.bi.attempt.map s.attemptPulls).getD false || (s.isMember && (s.votePulls || s.bi.errorFlagLeft ≠ 0))

/-- SBD as the station samples it: the wired-AND of every drive (R43). -/
def sbdDominant (s : State) : Bool := s.pins.sbdPulled || (s.pullsSbd && !s.pins.sbdOpen)

/-- The level of a fault input pin. -/
def faultPin (s : State) : InputNo → Bool
  | .flt0 => s.pins.flt0
  | .flt1 => s.pins.flt1
  | .flt2 => s.pins.flt2

end State

end Sys2Proof.Machine
end

