-- ==== Sys2Proof/Machine/Ops.lean ====
section
/-! DEFINITION. The operations the rules share: updates of one block, events, tickets, the roster's derived
values, the digest, the transmit queue and the trip set. -/

namespace Sys2Proof.Machine
namespace State

/-! ### Updates of one block -/

def modSc (f : StationController → StationController) (s : State) : State := { s with sc := f s.sc }
def modTb (f : TimeBase → TimeBase) (s : State) : State := { s with tb := f s.tb }
def modBi (f : BusInterface → BusInterface) (s : State) : State := { s with bi := f s.bi }
def modRt (f : RosterTable → RosterTable) (s : State) : State := { s with rt := f s.rt }
def modCq (f : CommitQueue → CommitQueue) (s : State) : State := { s with cq := f s.cq }
def modPu (f : PlacementUnit → PlacementUnit) (s : State) : State := { s with pu := f s.pu }
def modOs (f : OutputStage → OutputStage) (s : State) : State := { s with os := f s.os }
def modFu (f : FaultUnit → FaultUnit) (s : State) : State := { s with fu := f s.fu }
def modSp (f : SetupPort → SetupPort) (s : State) : State := { s with sp := f s.sp }

/-- Do `f` where `c` holds. -/
def doIf (c : Bool) (f : State → State) (s : State) : State := if c then f s else s

/-- The result where there is one, else the state as it was. -/
def orKeep (r : Option State) (s : State) : State := r.getD s

/-! ### Events and responses -/

/-- A block raises an event (R186). -/
def raise (e : Event) (s : State) : State := s.modSp fun p => { p with events := p.events ||| e.bit }

/-- The outcome of a Setup Port command: the status byte and the response data (R171, R173). -/
def respond (st : Status) (data : List Byte) (s : State) : State :=
  s.modSp fun p => { p with response := st.code :: data }

/-- A free value is used up: the next one is another (log 3). -/
def nextFree (s : State) : State := { s with freeCount := s.freeCount + 1 }

/-! ### The roster's derived values (R68) -/

/-- The entry of a station. -/
def entry (s : State) (i : StationId) : RosterEntry := s.rt.entries.getD i.val .absentEntry

/-- The own entry. -/
def ownEntry (s : State) : RosterEntry := s.entry s.ownId

end State

/-- Whether an entry is ACTIVE of kind PHASE and so holds a slot (R68). -/
def RosterEntry.holdsSlot (e : RosterEntry) : Bool := e.state = .active && e.kind = .phase

/-- Whether an entry is ACTIVE or SHED. -/
def RosterEntry.isPresent (e : RosterEntry) : Bool := e.state ≠ .absent

/-- The stations of a list of entries that satisfy a test, ascending. -/
def stationsWhere (entries : List RosterEntry) (test : RosterEntry → Bool) : List StationId :=
  allStations.filter fun i => test (entries.getD i.val .absentEntry)

/-- N, the number of ACTIVE PHASE entries (R68). -/
def phaseCount (entries : List RosterEntry) : Nat := (stationsWhere entries (·.holdsSlot)).length

/-- The slot of a station: its rank among the ACTIVE PHASE entries by ascending ID (R68). -/
def slotOf (entries : List RosterEntry) (i : StationId) : Option Nat :=
  if (entries.getD i.val .absentEntry).holdsSlot then
    some ((stationsWhere entries (·.holdsSlot)).filter (· < i)).length
  else none

/-- The lowest ACTIVE ID; 16 when no entry is ACTIVE (R68). -/
def lowestActive (entries : List RosterEntry) : Nat :=
  ((stationsWhere entries (·.state = .active)).head?.map (·.val)).getD 16

/-- The number of ACTIVE entries of either kind (R68). -/
def activeCount (entries : List RosterEntry) : Nat := (stationsWhere entries (·.state = .active)).length

/-! ### The digest (R70, R192, R193) -/

/-- The nibble of an entry (R192). -/
def entryNibble (e : RosterEntry) : BitVec 4 :=
  match e.state, e.kind with
  | .absent, _ => 0x0
  | .active, .phase => 0x4
  | .active, .observer => 0x6
  | .shed, .phase => 0x8
  | .shed, .observer => 0xA

/-- The coded roster: one nibble per station, station 0 in the highest (R192). -/
def rosterCode (entries : List RosterEntry) : BitVec 64 :=
  allStations.foldl
    (fun r i => (r <<< 4) ||| (entryNibble (entries.getD i.val .absentEntry)).setWidth 64) 0

/-- State and kind of a nibble; none where R192 does not define it. -/
def nibbleEntry (n : BitVec 4) : Option (EntryState × StationKind) :=
  match n.toNat with
  | 0 => some (.absent, .phase)
  | 4 => some (.active, .phase)
  | 6 => some (.active, .observer)
  | 8 => some (.shed, .phase)
  | 10 => some (.shed, .observer)
  | _ => none

/-- The nibble of station `i` in a coded roster (R192). -/
def codedNibble (r : BitVec 64) (i : StationId) : BitVec 4 := r.extractLsb' (4 * (15 - i.val)) 4

/-- The digest of a coded roster, a duty and a trip set: the check word over 12 bytes (R193). -/
def digestOfCode (roster : BitVec 64) (duty : Word) (tripSet : StationMask) : Word :=
  checkWord (rosterBytes roster ++ wordBytes duty ++ wordBytes tripSet)

namespace State

/-- The digest of the station's state (R70). -/
def digest (s : State) : Word := digestOfCode (rosterCode s.rt.entries) s.cq.duty s.fu.tripSet

end State

/-! ### Roster updates (R69) -/

/-- Whether state or kind of some entry differs between two rosters. -/
def standingChanged (old new : List RosterEntry) : Bool := rosterCode old ≠ rosterCode new

namespace State

/-- The roster changes; event ROSTER if the state or kind of an entry changed (R69). -/
def setRoster (entries : List RosterEntry) (s : State) : State :=
  (s.modRt fun rt => { rt with entries := entries }).doIf (standingChanged s.rt.entries entries) (raise .roster)

/-- One entry changes (R69). -/
def setEntry (i : StationId) (e : RosterEntry) (s : State) : State := s.setRoster (s.rt.entries.set i.val e)

/-- Every entry becomes ABSENT (R66, R67). -/
def clearRoster (s : State) : State := s.setRoster (List.replicate 16 .absentEntry)

/-! ### The trip set (R160) -/

/-- The trip set changes; TRIP_ON when it becomes non-empty, TRIP_OFF when it becomes empty (R160). -/
def setTripSet (m : StationMask) (s : State) : State :=
  ((s.modFu fun fu => { fu with tripSet := m }).doIf (s.fu.tripSet = 0 && m ≠ 0) (raise .tripOn)).doIf
    (s.fu.tripSet ≠ 0 && m = 0) (raise .tripOff)

end State

/-- The mask of one station. -/
def stationBit (i : StationId) : StationMask := 1#16 <<< i.val

/-! ### Tickets (R180 to R182) -/

/-- WAITING, OPEN and FIRM are unfinished (R180). -/
def TicketState.unfinished : TicketState → Bool
  | .waiting | .openState | .firm => true
  | .applied _ | .refused _ | .objected _ _ | .abandoned | .voided _ => false

/-- Whether a ticket is unfinished (R180). -/
def Ticket.unfinished (t : Ticket) : Bool := t.state.unfinished

/-- Whether a proposal is one the Setup Port produces, and the ticket is of its kind (R182, log 18). -/
def TicketKind.fits : TicketKind → ProposalContent → Bool
  | .demand _, .demand _ => true
  | .clearTrip _, .clearTrip _ => true
  | .remove, .remove _ .left => true
  | _, _ => false

/-- A ticket enters a finished state; its withdraw request is cleared (R179, R181). -/
def Ticket.finish (st : TicketState) (t : Ticket) : Ticket :=
  { t with state := st, withdrawRequest := false, withdrawQueued := false, reserved := false }

namespace State

/-- Every ticket that `hit` picks and that is unfinished changes by `f`; event TICKET if one of them is
finished by it (R182). -/
def updateTickets (hit : Ticket → Bool) (f : Ticket → Ticket) (s : State) : State :=
  let hits := fun t : Ticket => t.unfinished && hit t
  (s.modSp fun p => { p with tickets := p.tickets.map fun t => if hits t then f t else t }).doIf
    (s.sp.tickets.any fun t => hits t && !(f t).unfinished) (raise .ticket)

/-- A report on a proposal of this station's reaches the unfinished ticket of its number and kind (R182). -/
def reportTicket (seq : Byte) (content : ProposalContent) (f : Ticket → Ticket) (s : State) : State :=
  s.updateTickets (fun t => t.number = seq && t.kind.fits content && !t.reserved) f

/-- Every unfinished ticket is voided (R15, R17, R18). -/
def voidTickets (r : VoidReason) (s : State) : State := s.updateTickets (fun _ => true) (Ticket.finish (.voided r))

/-- Every reserved ticket becomes ABANDONED (R181). -/
def abandonReserved (s : State) : State := s.updateTickets (·.reserved) (Ticket.finish .abandoned)

/-- The number of unfinished tickets. -/
def unfinishedTickets (s : State) : Nat := (s.sp.tickets.filter (·.unfinished)).length

/-- Whether a ticket of the next sequence number can be issued (R178, condition 4). -/
def canIssueTicket (s : State) : Bool :=
  s.unfinishedTickets < 4 && !(s.sp.tickets.any fun t => t.unfinished && t.number = s.cq.nextSeq)

end State

/-- The ticket table with its oldest finished ticket removed (R180, step 3). -/
def dropOldestFinished : List Ticket → List Ticket
  | [] => []
  | t :: ts => if t.unfinished then t :: dropOldestFinished ts else ts

/-- Issue of a ticket: a finished ticket of the same number is freed first; then a free record is taken,
else the record of the oldest finished ticket (R180). -/
def issueInto (t : Ticket) (table : List Ticket) : List Ticket :=
  let kept := table.filter fun u => u.unfinished || u.number ≠ t.number
  (if kept.length < 4 then kept else dropOldestFinished kept) ++ [t]

namespace State

/-- A new ticket in state WAITING (R180). -/
def issueTicket (number : Byte) (kind : TicketKind) (reserved : Bool) (s : State) : State :=
  s.modSp fun p => { p with
    tickets := issueInto
      { number := number, kind := kind, state := .waiting, f := none, withdrawRequest := false,
        withdrawQueued := false, reserved := reserved } p.tickets }

end State

/-! ### The transmit queue (R56, R57) -/

/-- The arbitration class of a queued frame (R47). -/
def QueuedBody.cls : QueuedBody → Nat
  | .beat _ => 1
  | .object _ _ => 2
  | .propose _ _ => 3
  | .reply _ => 4
  | .query => 5

/-- The payload length of a queued frame's kind (R190). -/
def QueuedBody.payloadLength : QueuedBody → Nat
  | .beat _ => 10
  | .object _ _ => 3
  | .propose _ _ => 7
  | .reply _ => 19
  | .query => 0

def QueuedBody.isBeat : QueuedBody → Bool
  | .beat _ => true
  | _ => false

def QueuedBody.isQuery : QueuedBody → Bool
  | .query => true
  | _ => false

/-- Whether a queued frame is a PROPOSE or an OBJECT. -/
def QueuedBody.isShared : QueuedBody → Bool
  | .object _ _ | .propose _ _ => true
  | _ => false

/-- Whether a queued frame is a PROPOSE of the given sequence number and content. -/
def QueuedBody.isPropose (seq : Byte) (content : ProposalContent) : QueuedBody → Bool
  | .propose q c => q = seq && c = content
  | _ => false

/-- Whether a queued frame is a PROPOSE of the given sequence number. -/
def QueuedBody.isProposeSeq (seq : Byte) : QueuedBody → Bool
  | .propose q _ => q = seq
  | _ => false

/-- Whether a queued frame is a PROPOSE ADMIT (of this station, the only origin it has). -/
def QueuedBody.isAdmit : QueuedBody → Bool
  | .propose _ (.admission _ _) => true
  | _ => false

/-- Whether a queued frame is a PROPOSE REMOVE of the given station. -/
def QueuedBody.isRemoveOf (target : StationId) : QueuedBody → Bool
  | .propose _ (.remove t _) => t = target
  | _ => false

/-- Whether a queued frame is a PROPOSE REMOVE(LOST) of the given station. -/
def QueuedBody.isLossOf (target : StationId) : QueuedBody → Bool
  | .propose _ (.remove t .lost) => t = target
  | _ => false

/-- Whether a queued frame is an OBJECT against the given proposal. -/
def QueuedBody.objectsTo (id : ProposalId) : QueuedBody → Bool
  | .object i _ => i = id
  | _ => false

/-- Whether a queued frame is an OBJECT WITHDRAWN against the given proposal. -/
def QueuedBody.withdraws (id : ProposalId) : QueuedBody → Bool
  | .object i .withdrawn => i = id
  | _ => false

/-- Whether a queued frame is a ROSTER_REPLY to the given asker. -/
def QueuedBody.repliesTo (asker : StationId) : QueuedBody → Bool
  | .reply a => a = asker
  | _ => false

/-- A frame is placed after every frame of its class or a lower one (R56). -/
def insertFrame (x : QueuedFrame) (q : List QueuedFrame) : List QueuedFrame :=
  q.takeWhile (fun y => y.body.cls ≤ x.body.cls) ++ x :: q.dropWhile (fun y => y.body.cls ≤ x.body.cls)

/-- The attempt in flight ends with its frame. Past the falling edge of the reject bit the frame still has its outcome
and is this station's own (R61). -/
def BusInterface.dropAttempt (bi : BusInterface) : BusInterface :=
  { bi with
    attempt := none
    rx := bi.rx.map fun rx => { rx with sent := rx.sent || (bi.attempt.isSome && rx.slotAge.isSome) } }

namespace State

/-- Whether a queued frame satisfies a test. -/
def hasQueued (s : State) (test : QueuedBody → Bool) : Bool := s.bi.queue.any fun x => test x.body

/-- Whether the transmit queue has room (R57). -/
def hasRoom (s : State) : Bool := s.bi.queue.length < 6

/-- The shed frame and the readmit frame become absent when the frame they name has left the transmit
queue (R152). -/
def syncFaultFrames (s : State) : State :=
  s.modFu fun fu => { fu with
    shedFrame := fu.shedFrame.filter fun id => s.hasQueued (·.isPropose id.seq .shed)
    readmitFrame := fu.readmitFrame.filter fun id => s.hasQueued fun b => b.isAdmit && b.isProposeSeq id.seq }

/-- The transmit queue changes (R56, R152). -/
def setQueue (q : List QueuedFrame) (s : State) : State :=
  (s.modBi fun bi => { bi with queue := q }).syncFaultFrames

/-- The queued frames that `test` picks leave the queue; an attempt of one of them ends (R59, R61, R65). For a change of
station state R61 says that driving stops at once. The spec leaves open whether an OBJECT removed in flight at FIRM or with
its entry (R60), or a query in flight whose need ends (R81), goes on being driven (R55): it stops at once too; DESIGN
CHOICE, log 35. -/
def dropFrames (test : QueuedFrame → Bool) (s : State) : State :=
  (s.setQueue (s.bi.queue.filter fun x => !test x)).doIf
    (s.bi.queue.any fun x => test x && x.inFlight) (modBi .dropAttempt)

/-- The queued frames whose contents `test` picks leave the queue. -/
def dropBodies (test : QueuedBody → Bool) (s : State) : State := s.dropFrames fun x => test x.body

/-- An owning block offers a frame: taken when fewer than 6 frames are held (R57). -/
def offer (body : QueuedBody) (s : State) : Option State :=
  if s.hasRoom then
    some (s.setQueue (insertFrame { body := body, attempts := 0, inFlight := false } s.bi.queue))
  else none

/-- A PROPOSE of this station is offered; when taken it uses the next sequence number (R92, R95). -/
def offerPropose (content : ProposalContent) (s : State) : Option State :=
  (s.offer (.propose s.cq.nextSeq content)).map (modCq fun cq => { cq with nextSeq := cq.nextSeq + 1 })

/-- The id the next proposal of this station takes (R92). -/
def nextId (s : State) : ProposalId := { origin := s.ownId, seq := s.cq.nextSeq }

/-- A new BEAT replaces a queued one in place with an attempt count of 0, else it is offered; contents
replaced in flight wait for the next attempt (R57). -/
def enqueueBeat (f : BeatFields) (s : State) : State :=
  if s.hasQueued (·.isBeat) then
    (s.setQueue (s.bi.queue.map fun x => if x.body.isBeat then { x with body := .beat f, attempts := 0 } else x)).doIf
      (s.bi.queue.any fun x => x.body.isBeat && x.inFlight)
      (modBi fun bi => { bi with attempt := bi.attempt.map fun a => { a with beatReplaced := true } })
  else orKeep (s.offer (.beat f)) s

/-- The TRIP slot takes a TRIP; one already there is replaced, its place kept, with an attempt count of 0
(R57, R163). -/
def fillTripSlot (f : TripFields) (s : State) : State :=
  s.modBi fun bi => { bi with
    tripSlot := some { fields := f, attempts := 0, inFlight := (bi.tripSlot.map (·.inFlight)).getD false } }

/-- The TRIP slot is emptied; an attempt of its TRIP ends (R62, R65, log 14). -/
def emptyTripSlot (s : State) : State :=
  s.modBi fun bi =>
    { (if (bi.tripSlot.map (·.inFlight)).getD false then bi.dropAttempt else bi) with tripSlot := none }

/-- The tickets of the frames that `test` picks become ABANDONED (R65). -/
def abandonTicketsOf (test : QueuedFrame → Bool) (s : State) : State :=
  (s.bi.queue.filter test).foldl
    (fun s x => match x.body with
      | .propose seq content => s.reportTicket seq content (Ticket.finish .abandoned)
      | _ => s) s

/-! ### Faults latched (R136, R155) -/

/-- Whether an input of a class is latched. -/
def classLatched (s : State) (c : InputClass) : Bool :=
  allInputs.any fun i => (s.inputRecord i).latched && (s.input i).cls = c

/-! ### The Commit Queue's reference epoch and its questions (R92, R116) -/

/-- The reference epoch (R92). -/
def refEpoch (s : State) : Word := s.cq.frozenRef.getD s.tb.en

/-- The station's own ADMIT in its copy of the queue (R116). -/
def ownAdmit (s : State) : Option QueueEntry :=
  s.cq.entries.find? fun e => e.id.origin = s.ownId && match e.content with
    | .admission _ _ => true
    | _ => false

end State

/-- The target of an entry: the carried target of REMOVE and CLEAR_TRIP, else the origin (R91). -/
def targetOf (origin : StationId) : ProposalContent → StationId
  | .remove t _ => t
  | .clearTrip t => t
  | .admission _ _ | .shed | .demand _ => origin

/-- The target of an entry (R91). -/
def QueueEntry.target (e : QueueEntry) : StationId := targetOf e.id.origin e.content

/-- Whether a proposal is an ADMIT, a REMOVE or a SHED: the kinds that change a standing (R97). -/
def ProposalContent.changesStanding : ProposalContent → Bool
  | .admission _ _ | .remove _ _ | .shed => true
  | .demand _ | .clearTrip _ => false

namespace State

/-- Whether an ADMIT of a station is pending (R116). -/
def admitPending (s : State) (i : StationId) : Bool :=
  s.cq.entries.any fun e => e.target = i && match e.content with
    | .admission _ _ => true
    | _ => false

/-- Whether a REMOVE of a station is pending, for either reason (R116). -/
def removePending (s : State) (i : StationId) : Bool :=
  s.cq.entries.any fun e => e.target = i && match e.content with
    | .remove _ _ => true
    | _ => false

/-- Whether a SHED of a station is pending (R116). -/
def shedPending (s : State) (i : StationId) : Bool :=
  s.cq.entries.any fun e => e.target = i && e.content = .shed

/-- Whether an OBJECT WITHDRAWN against a proposal is queued. -/
def withdrawalQueued (s : State) (id : ProposalId) : Bool := s.hasQueued (·.withdraws id)

/-- The Commit Queue is emptied: the unfinished tickets that follow its local entries are voided, and the
pending objections go (R93, R117). -/
def emptyQueue (r : VoidReason) (s : State) : State :=
  ((s.cq.entries.filter (·.isLocal)).foldl
    (fun s e => s.reportTicket e.id.seq e.content (Ticket.finish (.voided r))) s).modCq
    fun cq => { cq with entries := [], pendingObjections := [] }

end State

end Sys2Proof.Machine
end

