-- ==== Sys2Proof/Machine/Placement.lean ====
section
/-! DEFINITION. The Output Stage's modes, gates and compare latch (07), and the Placement Unit's targets,
steps and re-anchorings (06). -/

namespace Sys2Proof.Machine

/-! ### Gates (R139, R143) -/

/-- What the output mode, P and the latched CMP request of the gates (R139). -/
inductive Request where
  | neither | high | low
  deriving DecidableEq, Repr

/-- The requested output (R139); blanking holds both outputs inactive (R149). -/
def requestOf (mode : OutputMode) (p cmp : Nat) (blanking : Bool) : Request :=
  if blanking then .neither
  else match mode with
    | .off => .neither
    | .lowClamp => .low
    | .run => if p < cmp then .high else .low

/-- The requested output of a state of the Output Stage. -/
def OutputStage.request (os : OutputStage) : Request := requestOf os.mode os.p os.cmp os.blanking

/-- The gate levels under the deadtime rule: an output no longer requested goes inactive; a requested one
is active if it was in the count before, or if the inactive run has reached DT (R143). After a release both stay
inactive in the count (R146). -/
def OutputStage.regate (dt : Nat) (os : OutputStage) : OutputStage :=
  { os with
    gh := os.request = .high && !os.released && (os.ghWas || dt ≤ os.inactiveRun)
    gl := os.request = .low && !os.released && (os.glWas || dt ≤ os.inactiveRun) }

/-- Both gates go inactive in this count (R146). -/
def OutputStage.release (os : OutputStage) : OutputStage := { os with gh := false, gl := false, released := true }

/-- Another count begins, an inactive run unbroken by it: the levels of the present count become those of the count before
(R134, R143). -/
def OutputStage.newCount (os : OutputStage) : OutputStage :=
  { os with
    ghWas := os.gh, glWas := os.gl, inactiveRun := if os.gh || os.gl then 0 else os.inactiveRun
    released := false, anchored := false }

/-- The next count: the inactive run counts the count just past (R134, R143). -/
def OutputStage.nextCount (dt : Nat) (os : OutputStage) : OutputStage :=
  { os.newCount with inactiveRun := if os.gh || os.gl then 0 else min dt (os.inactiveRun + 1) }

namespace State

/-- The gates follow the request in this count (R143). -/
def regate (s : State) : State := s.modOs (OutputStage.regate s.deadtime)

/-! ### The output mode (R136, R137) -/

/-- Whether some latched input chooses OFF: action OFF, or class TRIP whatever its action (R136). -/
def offLatched (s : State) : Bool :=
  allInputs.any fun i => (s.inputRecord i).latched && ((s.input i).cls = .trip || !(s.input i).lowClamp)

/-- Whether some latched input has action LOW_CLAMP (R136). -/
def clampLatched (s : State) : Bool :=
  allInputs.any fun i => (s.inputRecord i).latched && (s.input i).lowClamp

/-- The chosen mode: the first row that applies (R136). -/
def chosenMode (s : State) : OutputMode :=
  if !s.isMember || s.ownKind = .observer || s.fu.tripSet ≠ 0 || s.offLatched then .off
  else if s.clampLatched then .lowClamp
  else if s.ownEntry.state = .active then .run
  else .off

/-- A chosen mode of OFF or LOW_CLAMP takes effect in this count; one of RUN waits for the next local
cycle start (R137, R138). -/
def remode (s : State) : State :=
  if s.chosenMode ≠ .run && s.chosenMode ≠ s.os.mode then
    (s.modOs fun os => { os with mode := s.chosenMode }).regate
  else s

/-! ### Targets (R123, R127 to R130) -/

/-- Whether the station state allows a target (R123). -/
def mayHaveTarget (s : State) : Bool := s.isMember || s.isFollower

/-- The target the roster gives: floor(slot × PERIOD / N) (R123). -/
def targetNow (s : State) : Option Nat :=
  if s.mayHaveTarget then
    (slotOf s.rt.entries s.ownId).map fun slot => slot * s.period / phaseCount s.rt.entries
  else none

/-- P taken from B at a re-anchoring: (B − O) modulo PERIOD (R127). -/
def anchoredP (s : State) (offset : Nat) : Nat := (s.tb.b + s.period - offset) % s.period

/-- O at the end of the cycle in progress: O + s modulo PERIOD (R122, R125). -/
def endOffset (s : State) : Nat := (((s.pu.offset : Int) + s.pu.step) % (s.period : Int)).toNat

/-- The reach test: with a target, SETTLED and PLACED when O reached it, else SLEWING; without one, SETTLED
(R125, R130). -/
def reachTest (s : State) : State :=
  match s.pu.target with
  | none => s.modPu fun pu => { pu with slewing := false }
  | some t =>
    if s.pu.offset = t then
      (s.modPu fun pu => { pu with slewing := false }).doIf s.pu.slewing (raise .placed)
    else s.modPu fun pu => { pu with slewing := true }

/-- A re-anchoring: the cycle in progress ends, O takes its end value, and an unslewed cycle begins with P
taken from B (R127). It is no local cycle start. -/
def reanchor (s : State) : State :=
  let o := s.endOffset
  ((((s.modPu fun pu => { pu with offset := o }).reachTest.modPu fun pu =>
    { pu with step := 0, length := s.period }).modOs fun os => { os with p := s.anchoredP o, anchored := true }).regate)

/-- A jump: O takes the target at once, the cycle is re-anchored, and PLACED is raised (R129). -/
def jumpTo (t : Nat) (s : State) : State :=
  (((s.modPu fun pu =>
    { pu with target := some t, offset := t, slewing := false, step := 0, length := s.period }).modOs fun os =>
    { os with p := s.anchoredP t, anchored := true }).regate).raise .placed

/-- A retarget: the new target replaces the old one, the cycle in progress is kept (R128). -/
def retargetTo (t : Nat) (s : State) : State :=
  if s.pu.offset = t && s.pu.step = 0 then
    (s.modPu fun pu => { pu with target := some t, slewing := false }).doIf s.pu.slewing (raise .placed)
  else s.modPu fun pu => { pu with target := some t, slewing := true }

/-- Recomputation of the target: the same value changes nothing; a new one is a retarget in RUN without
blanking and a jump otherwise; a lost one leaves the cycle in progress its step and length (R123, R128 to R130). -/
def recomputeTarget (s : State) : State :=
  if s.targetNow = s.pu.target then s
  else match s.targetNow with
    | none => s.modPu fun pu => { pu with target := none }
    | some t =>
      if s.os.mode = .run && !s.os.blanking && s.pu.target.isSome then s.retargetTo t else s.jumpTo t

/-- Confirmation into MEMBER, like founding and adoption, puts O on the target even where the target itself did not change
(R16, R129, log 11). -/
def jumpToTarget (s : State) : State :=
  match s.targetNow with
  | none => s.recomputeTarget
  | some t => if s.pu.target = some t && s.pu.offset = t && !s.pu.slewing then s else s.jumpTo t

/-- The cycle in progress goes on unslewed from where B puts it, O kept (R122, R127, log 11). -/
def endSlew (s : State) : State :=
  ((s.modPu fun pu => { pu with step := 0, length := s.period }).modOs fun os =>
    { os with p := s.anchoredP s.pu.offset, anchored := true }).regate

/-- Founding and adoption of a reply: a jump to the target, and where the roster gives none SETTLED at once with O kept; a
cycle in progress that is slewed then ends, and one that is not goes on as it is (R122, R123, R129, log 11). -/
def adoptTarget (s : State) : State :=
  match s.targetNow with
  | some _ => s.jumpToTarget
  | none => (s.modPu fun pu => { pu with target := none, slewing := false }).doIf (s.pu.step ≠ 0) endSlew

/-- The output mode and the target follow the state the other blocks are in (R123, R137). Every event that
can change them ends with this. -/
def settle (s : State) : State := s.remode.recomputeTarget

/-! ### The local cycle (R125, R126, R138, R140 to R142) -/

end State

/-- The step of a slewing cycle: the shorter way from O to T, forward at half the period, limited to
SLEW_STEP (R126). -/
def slewStepOf (period slew offset target : Nat) : Int :=
  let d : Int := ((target : Int) - offset) % period
  let d := if period < 2 * d then d - period else d
  max (-(slew : Int)) (min slew d)

/-- The compare of a duty: floor(D × PERIOD / 65535) (00_scope, R140). -/
def compareOf (duty : Word) (period : Nat) : Nat := duty.toNat * period / 65535

/-- The adjustment of the raw compare against the length of the new cycle (R142). -/
def adjustCompare (raw period length minPulse : Nat) : Nat :=
  if raw = period then length
  else if raw = 0 then 0
  else if raw < minPulse then 0
  else if length < raw + minPulse then length
  else raw

namespace State

/-- The Placement Unit at a local cycle start: end of the old cycle, reach test, step and length of the new
one (R125). -/
def placeCycle (s : State) : State :=
  let s := (s.modPu fun pu => { pu with offset := s.endOffset }).reachTest
  let step := match s.pu.target, s.pu.slewing with
    | some t, true => slewStepOf s.period s.slewStep s.pu.offset t
    | _, _ => 0
  s.modPu fun pu => { pu with step := step, length := ((s.period : Int) + step).toNat }

/-- The compare latch at a local cycle start, against the new cycle's length (R140, R142). -/
def latchCompare (s : State) : State :=
  let dutyCmp := compareOf s.cq.duty s.period
  let limitCmp := compareOf s.dutyMax s.period
  s.modOs fun os => { os with
    cmp := adjustCompare (min dutyCmp limitCmp) s.period s.pu.length s.minPulse
    clampFlag := limitCmp < dutyCmp }

/-- Event CLAMP and the clamp record at a start at which the output mode is RUN (R141). -/
def clampEvent (s : State) : State :=
  if s.os.mode ≠ .run then s
  else if !s.os.clampFlag then s.modOs fun os => { os with clampRecord := none }
  else if s.os.clampRecord = some s.cq.duty then s
  else (s.modOs fun os => { os with clampRecord := some s.cq.duty }).raise .clamp

/-- The output mode becomes RUN at a local cycle start if the chosen mode is RUN (R138). -/
def enterRun (s : State) : State :=
  if s.chosenMode = .run then s.modOs fun os => { os with mode := .run } else s

/-- A local cycle start: P is 0; the Placement Unit, the compare latch, the entry to
RUN, CLAMP, the end of blanking unless the start is taken at the recognition that set it, and the gates
(R125, R138 to R142, R149). Where the blanking has lasted fewer than DT counts R149 has the requested output active at its end
and R143 not before DT inactive counts: R143 holds; DESIGN CHOICE, log 37. -/
def cycleStart (endsBlanking : Bool) (s : State) : State :=
  ((s.placeCycle.latchCompare.enterRun.clampEvent).modOs fun os =>
    { os with p := 0, blanking := os.blanking && !endsBlanking }).regate

end State

end Sys2Proof.Machine
end

