-- ==== Sys2Proof/Machine/TimeBase.lean ====
section
/-! DEFINITION. The Time Base's states: FREE, LOCKED and HOLDOVER entered and left, and the guard (02). -/

namespace Sys2Proof.Machine
namespace State

/-- The mark drive ends, releasing SBM (R25). -/
def stopDrive (s : State) : State := s.modTb fun tb => { tb with driveLeft := 0, driveReadLow := false }

/-- Entry to LOCKED: event LOCK, in-window count 3, unlocked count 0 (R35). -/
def enterLocked (s : State) : State :=
  ((s.modTb fun tb => { tb with state := .locked, inWindow := 3 }).modSc fun sc => { sc with unlocked := 0 }).raise .lock

/-- Entry to HOLDOVER from any other state: event LINE, the resume state, the end of a drive and of the
failed-drives count; with LOCKED the need for the group's state ends, and a queued ROSTER_QUERY goes (R25, R26, R36, R65,
R81). -/
def enterHoldover (s : State) : State :=
  if s.tb.state = .holdover then s
  else
    let locked := s.tb.state = .locked
    (s.modTb fun tb => { tb with
      state := .holdover
      resume := if locked then .locked else .free
      inWindow := if locked then 3 else 0
      holdoverEpochs := 0
      driveLeft := 0
      driveReadLow := false
      failedDrives := 0 }).raise .line |>.doIf (s.hasQueued (·.isQuery)) (dropBodies (·.isQuery))

/-- HOLDOVER is left for the resume state; event LOCK when that is LOCKED (R35, R37). -/
def leaveHoldover (s : State) : State :=
  let resume := s.tb.resume
  let s := s.modTb fun tb => { tb with state := .free, holdoverEpochs := 0, resume := .free }
  if resume = .locked then s.enterLocked else s

/-- RESTART and entry to ISOLATED or HALTED leave the time base FREE; a line still held low puts it into
HOLDOVER at once (R20, R36). -/
def freeTimeBase (s : State) : State :=
  let s := s.modTb fun tb => { tb with
    state := .free, inWindow := 0, markSeen := false, resume := .free, holdoverEpochs := 0,
    driveLeft := 0, driveReadLow := false, failedDrives := 0 }
  if s.tb.levelLow && 64 < s.tb.lowRun then s.enterHoldover else s

/-! ### The guard (R40, R48, R53) -/

/-- The counts to the own next natural boundary, E − pos (R40). -/
def toNextBoundary (s : State) : Nat := s.epochCounts - s.pos

/-- Whether a vote slot whose reject bit begins now lies within GUARD of an own boundary (R53). -/
def slotInGuard (s : State) : Bool :=
  s.pos < s.guardCounts || s.toNextBoundary * s.prescale < s.guardCounts * s.prescale + 2 * s.bitTime

/-- Whether a frame of `length` payload bytes may begin now: GUARD counts have passed, and the frame ends
GUARD counts before the natural boundary (R48). -/
def frameFits (s : State) (length : Nat) : Bool :=
  s.guardCounts ≤ s.pos
    && (35 + 8 * length) * s.bitTime + s.guardCounts * s.prescale ≤ s.toNextBoundary * s.prescale

end State
end Sys2Proof.Machine
end

