-- ==== Sys2Proof/Machine/Faults.lean ====
section
/-! DEFINITION. The Fault Unit: activations and releases, the clearing of latches at half-cycle points, and
the shed, readmission and withdrawal tests (08). -/

namespace Sys2Proof.Machine
namespace State

/-- One input record changes. -/
def modInput (i : InputNo) (f : InputRecord → InputRecord) (s : State) : State :=
  s.modFu fun fu => match i with
    | .flt0 => { fu with flt0 := f fu.flt0 }
    | .flt1 => { fu with flt1 := f fu.flt1 }
    | .flt2 => { fu with flt2 := f fu.flt2 }

/-! ### The shed decision (R165 to R167) -/

/-- Whether the shed test is passed (R165). -/
def shedTestPassed (s : State) : Bool :=
  s.sc.station = .member && s.ownEntry.holdsSlot && s.classLatched .shed && !s.shedPending s.ownId
    && !s.removePending s.ownId && s.fu.shedFrame.isNone && !s.hasQueued (·.isRemoveOf s.ownId)

/-- The shed test: when it is passed, PROPOSE SHED is offered and its id becomes the shed frame (R165). -/
def shedTest (s : State) : State :=
  if s.shedTestPassed then
    orKeep ((s.offerPropose .shed).map (modFu fun fu => { fu with shedFrame := some s.nextId })) s
  else s

/-- Whether the readmission test is passed (R166). -/
def readmissionTestPassed (s : State) : Bool :=
  s.sc.station = .member && s.ownEntry.state = .shed && !s.classLatched .shed && !s.admitPending s.ownId
    && !s.shedPending s.ownId && !s.removePending s.ownId && s.fu.readmitFrame.isNone

/-- The ADMIT this station proposes for itself (R95). -/
def admitContent (s : State) : ProposalContent := .admission s.sp.fingerprint s.ownKind

/-- The readmission test: when it is passed, PROPOSE ADMIT is offered and its id becomes the readmit frame
(R166). -/
def readmissionTest (s : State) : State :=
  if s.readmissionTestPassed then
    orKeep ((s.offerPropose s.admitContent).map (modFu fun fu => { fu with readmitFrame := some s.nextId })) s
  else s

/-- The withdrawal test: an OBJECT WITHDRAWN against the own OPEN ADMIT is offered while a SHED-class input
is latched (R167). -/
def withdrawalTest (s : State) : State :=
  match s.ownAdmit with
  | some e =>
    if (s.sc.station = .joining || s.sc.station = .member) && s.classLatched .shed && e.phase = .openPhase
        && !s.withdrawalQueued e.id then
      orKeep (s.offer (.object e.id .withdrawn)) s
    else s
  | none => s

/-! ### Activation and release (R153, R154, R163) -/

/-- The class effects of an activation: the shed decision, or a TRIP into the TRIP slot in MEMBER and
LEAVING (R154, R163, R168). -/
def activationEffects (i : InputNo) (s : State) : State :=
  match (s.input i).cls with
  | .shed => s.shedTest.withdrawalTest
  | .trip => s.doIf s.isMember (fillTripSlot { input := BitVec.ofNat 8 (allInputs.idxOf i), en := s.tb.en })
  | .unused | .localClass => s

/-- A filtered activation (R154): the latch, the lost acknowledgement, the count, FAULT_ON, the output mode
in the same count, and the class effects. -/
def activateInput (i : InputNo) (s : State) : State :=
  ((((s.modInput i fun r =>
      { active := true, disagree := 0, latched := true, ackArmed := false,
        activations := min 255 (r.activations + 1) }).raise .faultOn).settle).activationEffects i).settle

/-- A filtered release (R153). -/
def releaseInput (i : InputNo) (s : State) : State :=
  s.modInput i fun r => { r with active := false, disagree := 0 }

/-- Whether an input is evaluated: after START, and of a class other than UNUSED (R151, R153). -/
def evaluates (s : State) (i : InputNo) : Bool := s.sc.station ≠ .setup && (s.input i).cls ≠ .unused

/-- The filter of one input at one count (R153). -/
def sampleInput (s : State) (i : InputNo) : State :=
  let r := s.inputRecord i
  let asserted := s.faultPin i != (s.input i).activeLow
  if !s.evaluates i then s
  else if asserted = r.active then s.modInput i fun r => { r with disagree := 0 }
  else if (s.input i).filter ≤ r.disagree + 1 then
    if asserted then s.activateInput i else s.releaseInput i
  else s.modInput i fun r => { r with disagree := r.disagree + 1 }

/-! ### Clearing at a half-cycle point (R156, R158, R159) -/

/-- Whether the latch of an input clears at a half-cycle point: AUTO and inactive, or MANUAL, armed and
inactive (R156, R158). -/
def clearsAtPoint (s : State) (i : InputNo) : Bool :=
  let r := s.inputRecord i
  r.latched && !r.active && (!(s.input i).manual || r.ackArmed)

/-- One input at a half-cycle point: FAULT_OFF, and the readmission test after a SHED-class clearing
(R156, R158, R159, R166). -/
def pointForInput (s : State) (i : InputNo) : State :=
  if s.clearsAtPoint i then
    ((s.modInput i fun r => { r with latched := false, ackArmed := false }).raise .faultOff).doIf
      ((s.input i).cls = .shed) readmissionTest
  else s

/-- A half-cycle point (R148). -/
def halfPoint (s : State) : State := (allInputs.foldl pointForInput s).settle

/-! ### A local cycle start with its half-cycle point -/

/-- Whether some latch clears at a half-cycle point now. -/
def someClears (s : State) : Bool := allInputs.any s.clearsAtPoint

/-- Whether the requested output of R139 differs between two states; blanking holds the gates inactive whatever it is
(R149). -/
def requestChanged (s t : State) : Bool :=
  requestOf s.os.mode s.os.p s.os.cmp false ≠ requestOf t.os.mode t.os.p t.os.cmp false

/-- A local cycle start and the half-cycle point it gives, with whether the start changed the requested output. Where a
latch clears, which of the two is taken first is a free value (R138, R148, log 3). -/
def crossStart (endsBlanking : Bool) (s : State) : Bool × State :=
  if !s.someClears then (s.requestChanged (s.cycleStart endsBlanking), s.cycleStart endsBlanking)
  else if Config.pointBeforeStart s.freeCount then
    let t := s.nextFree.halfPoint
    (t.requestChanged (t.cycleStart endsBlanking), t.cycleStart endsBlanking)
  else (s.requestChanged (s.nextFree.cycleStart endsBlanking), (s.nextFree.cycleStart endsBlanking).halfPoint)

/-- A local cycle start and the half-cycle point it gives (R138, R148). -/
def startWithPoint (endsBlanking : Bool) (s : State) : State := (s.crossStart endsBlanking).2

end State
end Sys2Proof.Machine
end

