-- ==== Sys2Proof/Machine/Cycle.lean ====
section
/-! DEFINITION. The commands of the local cycle (06, 07) and of the fault inputs (08). -/

namespace Sys2Proof.Machine
namespace State

/-- A local cycle start, in a count of its own (R125, R138, R140, log 21). -/
def localCycleStart (s : State) : State :=
  if s.sc.station = .setup then s else (s.modOs .newCount).cycleStart true

/-- P reaches the latched CMP in RUN, in a count of its own: the request moves from GH to GL. A CMP of 0 or of the whole
cycle has no such point (R139, log 21). -/
def compareMatch (s : State) : State :=
  if s.sc.station ≠ .setup && s.os.mode = .run && 0 < s.os.cmp && s.os.cmp < s.pu.length then
    (s.modOs fun os => { os.newCount with p := os.cmp }).regate
  else s

/-- The inactive run reaches DT, in a count of its own: a requested gate becomes active (R143, log 21). -/
def deadtimeExpiry (s : State) : State :=
  if s.sc.station = .setup || s.os.gh || s.os.gl then s
  else (s.modOs fun os => { os.newCount with inactiveRun := s.deadtime }).regate

/-- A half-cycle point at the present instant (R148). -/
def halfCyclePoint (s : State) : State := if s.sc.station = .setup then s else s.halfPoint

/-- A filtered activation at the present instant, of an evaluated input that is inactive (R153, R154). -/
def faultActivation (i : InputNo) (s : State) : State :=
  if s.evaluates i && !(s.inputRecord i).active then s.activateInput i else s

/-- A filtered release at the present instant, of an evaluated input that is active (R153). -/
def faultRelease (i : InputNo) (s : State) : State :=
  if s.evaluates i && (s.inputRecord i).active then s.releaseInput i else s

end State

/-! ### The commands -/

/-- LOCAL_CYCLE_START (R125). -/
def execLocalCycleStart (s : State) : Host.Outcome State Fault Refusal := .next s.localCycleStart

/-- COMPARE_MATCH (R139). -/
def execCompareMatch (s : State) : Host.Outcome State Fault Refusal := .next s.compareMatch

/-- DEADTIME_EXPIRY (R143). -/
def execDeadtimeExpiry (s : State) : Host.Outcome State Fault Refusal := .next s.deadtimeExpiry

/-- HALF_CYCLE_POINT (R148). -/
def execHalfCyclePoint (s : State) : Host.Outcome State Fault Refusal := .next s.halfCyclePoint

/-- FAULT_ACTIVATION (R154). -/
def execFaultActivation (i : InputNo) (s : State) : Host.Outcome State Fault Refusal := .next (s.faultActivation i)

/-- FAULT_RELEASE (R153). -/
def execFaultRelease (i : InputNo) (s : State) : Host.Outcome State Fault Refusal := .next (s.faultRelease i)

end Sys2Proof.Machine
end

