-- ==== Sys2Proof/Machine/Lifecycle.lean ====
section
/-! DEFINITION. The changes of station state (01), with what each does to the other blocks: the entry
tables of R1, R4, R20, R42, R65, R67, R93, R122, R134, R152, R160 and R170. -/

namespace Sys2Proof.Machine
namespace State

/-! ### What every change of station state does -/

/-- What a station that is no longer MEMBER or LEAVING loses: pending objections, pending replies, the
TRIP slot, the reject count, and a vote or an error flag it was driving (R2, R44, R52, R62, R64, R67, R93). -/
def dropMemberWork (s : State) : State :=
  (((s.emptyTripSlot.modCq fun cq => { cq with pendingObjections := [] }).modRt fun rt =>
    { rt with pendingReplies := 0 }).modBi fun bi => { bi with
      rejectCount := 0, errorFlagLeft := 0, rx := bi.rx.map fun rx => { rx with rejecting := false } })

/-- A change of station state: event STATE, and what leaving one group of states or entering another does
whatever the cause (R1, R25, R26, R64, R65, R67, R80, R93, R181). -/
def moveTo (new : StationState) (s : State) : State :=
  let s₁ := ((s.modSc fun sc => { sc with station := new, withdrawOwed := false }).raise .state).modRt fun rt =>
    { rt with heardGroup := none
              expectedKey := if s.sc.station = .resync then none else rt.expectedKey }
  let s₂ := s₁.doIf (s.isMember && !s₁.isMember) dropMemberWork
  let s₃ := s₂.doIf (new = .listen || new = .dormant || new = .halted) abandonReserved
  let s₄ := s₃.doIf (new ≠ .listen && new ≠ .resync) (dropBodies (·.isQuery))
  s₄.doIf (!s₁.drivesMarks) fun s => s.stopDrive.modTb fun tb => { tb with failedDrives := 0 }

/-- The frames a station leaving MEMBER, LEAVING or RESYNC for LISTEN or JOINING drops, with their tickets
ABANDONED: every queued frame but a ROSTER_QUERY and those `kept` picks (R65). -/
def dropGroupFrames (kept : QueuedBody → Bool) (s : State) : State :=
  let drops := fun x : QueuedFrame => !x.body.isQuery && !kept x.body
  (s.abandonTicketsOf drops).dropFrames drops

/-- The Bus Interface on entry to DORMANT, ISOLATED and HALTED: queue and TRIP slot empty, no attempt, no
receive context, every counter at 0 (R42). -/
def clearBus (s : State) : State :=
  (s.setQueue []).modBi fun bi => { bi with
    rx := none, attempt := none, tripSlot := none, abandonCount := 0, rejectCount := 0,
    clashWindow := none, stuckEpochs := 0 }

/-- The blanking flag is cleared (R134). -/
def clearBlanking (s : State) : State := s.modOs fun os => { os with blanking := false }

/-- A follower's copy of the group state is discarded: roster ABSENT, queue emptied, duty 0, trip set empty,
copy source NONE, not armed, follow standing NONE (R6, R87, R88, R117). -/
def discardCopy (s : State) : State :=
  (((((s.clearRoster.emptyQueue .resync).modCq fun cq => { cq with duty := 0 }).setTripSet 0).modRt fun rt =>
    { rt with copySource := .none, armed := false }).modSc fun sc => { sc with standing := .none }).settle

/-! ### Entry to LISTEN (R4) -/

/-- The Station Controller and the Time Base on every entry to LISTEN (R4, R18, R20). -/
def enterListen (standing : FollowStanding) (holdoff : Nat) (s : State) : State :=
  ((s.moveTo .listen).modSc fun sc => { sc with
    reason := .none, quiet := 0, unlocked := 0, joinHoldoff := holdoff, standing := standing,
    leavePending := false, tracked := none, frameSinceListen := false }).modTb fun tb =>
    { tb with enAdopted := false }

/-- The roster side of START and RESTART: no copy, nothing expected, nothing pending (R67). -/
def forgetRoster (s : State) : State :=
  s.clearRoster.modRt fun rt => { rt with
    copySource := .none, epochDigest := 0, armed := false, expectedKey := none, groupFingerprint := none,
    countdown := 0, pendingReplies := 0, heardGroup := none }

/-- The Commit Queue of START, RESTART and ISOLATED: no entry, duty 0, the reference epoch again the
current EN; the next sequence number is kept (R93). -/
def forgetQueue (s : State) : State :=
  s.modCq fun cq => { cq with entries := [], duty := 0, pendingObjections := [], frozenRef := none }

/-- START from SETUP with a valid record (R3, R20, R67, R93, R122, R124, R134, R170). -/
def startFromSetup (s : State) : State :=
  let s₁ := s.modSp fun p => { p with locked := true, fingerprint := fingerprintOf p.record }
  let s₂ := (((((s₁.modTb fun _ => .reset).modBi fun _ => { BusInterface.reset with line := .busy }).modPu
    fun _ => { PlacementUnit.reset with length := s₁.period }).modOs
    fun _ => { OutputStage.reset with inactiveRun := s₁.deadtime }).modFu fun _ => .reset).forgetRoster.forgetQueue
  let s₃ := ({ s₂ with phase := 0 }).enterListen .none 0
  s₃.settle.startWithPoint true

/-- START from DORMANT: the frozen copy is discarded and unfinished tickets are voided (R4, R17). -/
def startFromDormant (s : State) : State :=
  ((((s.voidTickets .restart).forgetRoster.forgetQueue).setTripSet 0).enterListen .none 0).settle

/-- The Fault Unit's records, trip set and last trip are cleared (R18, R152, R160). -/
def clearFaults (s : State) : State := (s.setTripSet 0).modFu fun _ => .reset

/-- RESTART from ISOLATED (R18, R20, R42, R67, R93, R134, R152, R170). -/
def restartFromIsolated (s : State) : State :=
  let s₁ := ((((s.voidTickets .restart).forgetRoster.forgetQueue).clearFaults.clearBus).modOs fun os =>
    { os with clampFlag := false, clampRecord := none, blanking := false })
  (s₁.freeTimeBase.enterListen .none 0).settle

/-- LISTEN with the copy kept, after a refused, objected or abandoned ADMIT (R4, R8). -/
def listenWithCopy (s : State) : State := (s.enterListen s.sc.standing s.listenEpochs).settle

/-- LISTEN after the application of a REMOVE of the own ID originated elsewhere (R14). -/
def listenRemoved (s : State) : State :=
  (((s.enterListen .confirmed s.listenEpochs).dropGroupFrames fun _ => false).modRt fun rt =>
    { rt with copySource := .own }).settle

/-- LISTEN from RESYNC when no group is heard (R15). -/
def listenUnheard (s : State) : State :=
  ((s.discardCopy.enterListen .none 0).dropGroupFrames fun _ => false).settle

/-! ### The resting states (R17 to R19) -/

/-- Entry to DORMANT: queue and TRIP slot emptied, the group state frozen, outputs OFF (R17). -/
def enterDormant (s : State) : State :=
  (((((s.moveTo .dormant).clearBus.modRt fun rt =>
      { rt with armed := false, expectedKey := none, countdown := 0, pendingReplies := 0 }).modCq fun cq =>
      { cq with pendingObjections := [], frozenRef := some s.tb.en }).modSc fun sc =>
      { sc with leavePending := false, tracked := none }).clearBlanking).settle

/-- Entry to ISOLATED with a reason (R18). -/
def enterIsolated (r : Reason) (s : State) : State :=
  (((((((s.voidTickets .isolated).moveTo .isolated).clearBus.forgetRoster.forgetQueue).clearFaults).modSc fun sc =>
      { sc with reason := r, standing := .none, leavePending := false, tracked := none }).clearBlanking).freeTimeBase).settle

/-- Entry to HALTED with a reason: as for DORMANT, and the time base becomes FREE (R19). -/
def enterHalted (r : Reason) (s : State) : State :=
  ((((((s.moveTo .halted).clearBus.modRt fun rt =>
      { rt with armed := false, expectedKey := none, countdown := 0, pendingReplies := 0 }).modCq fun cq =>
      { cq with pendingObjections := [], frozenRef := some s.tb.en }).modSc fun sc =>
      { sc with reason := r, leavePending := false, tracked := none }).clearBlanking).freeTimeBase).settle

/-- The states from which a line fault or a confinement leads to ISOLATED (R18). -/
def canIsolate (s : State) : Bool :=
  s.sc.station ≠ .setup && s.sc.station ≠ .isolated && s.sc.station ≠ .halted

/-- ISOLATED, from the states of R18. -/
def isolate (r : Reason) (s : State) : State := s.doIf s.canIsolate (enterIsolated r)

/-! ### Entry to RESYNC (R15, R79) -/

/-- Entry to RESYNC; a yielding station brings the key it expects of a reply (R15, R79). -/
def enterResync (key : Option Nat) (s : State) : State :=
  let s₁ := ((s.voidTickets .resync).emptyQueue .resync).moveTo .resync
  let s₂ := (s₁.dropBodies (·.isShared)).modBi fun bi => { bi with rejectCount := 0 }
  let s₃ := s₂.modRt fun rt => { rt with
    copySource := .old, armed := false, expectedKey := key, countdown := 0, pendingReplies := 0 }
  let s₄ := s₃.modSc fun sc => { sc with quiet := 0, standing := .none, leavePending := false, tracked := none }
  ((s₄.modTb fun tb => { tb with enAdopted := false }).clearBlanking).settle

/-! ### Leaving by the own removal (R12) -/

/-- The record reserved by STOP in JOINING, while it is unused (R11). -/
def reservedTicket (s : State) : Option Ticket := s.sp.tickets.find? fun t => t.reserved && t.unfinished

/-- REMOVE(LEFT) of this station is queued under number `seq`, tracked, and the station is LEAVING (R12). -/
def becomeLeaving (seq : Byte) (s : State) : State :=
  (s.moveTo .leaving).modSc fun sc =>
    { sc with tracked := some { origin := s.ownId, seq := seq }, leavePending := false }

/-- The leave of a station that is MEMBER with the leave-pending flag set: the reserved ticket is used if
there is one, else a ticket is issued if one can be; a full transmit queue delays the leave (R12). Where an unfinished
ticket still holds the number, the REMOVE(LEFT) is sent without a ticket, as with four unfinished; DESIGN CHOICE, log 17. -/
def proposeLeave (s : State) : State :=
  let content := ProposalContent.remove s.ownId .left
  match s.reservedTicket with
  | some t =>
    match s.offer (.propose t.number content) with
    | some s' =>
      ((s'.updateTickets (fun u => u.number = t.number) fun u => { u with reserved := false }).becomeLeaving t.number)
    | none => s
  | none =>
    match s.offerPropose content with
    | some s' => (s'.doIf s.canIssueTicket (issueTicket s.cq.nextSeq .remove false)).becomeLeaving s.cq.nextSeq
    | none => s

/-- The leave that the leave-pending flag asks for, in MEMBER (R12). -/
def leaveIfPending (s : State) : State := s.doIf (s.sc.station = .member && s.sc.leavePending) proposeLeave

/-! ### Entry to MEMBER (R7, R8, R13, R16) -/

/-- The tests of the Fault Unit, at once with every entry to MEMBER (R165, R166, R168). -/
def memberTests (s : State) : State := s.shedTest.readmissionTest

/-- Entry to MEMBER: the copy is the station's own state, a pending leave is proposed, and the Fault Unit makes its tests of
the state that leaves (R8, R12, R89, R168). -/
def becomeMember (s : State) : State :=
  ((((s.moveTo .member).modRt fun rt => { rt with copySource := .own }).modSc fun sc =>
    { sc with tracked := none }).leaveIfPending).memberTests

/-- MEMBER from LISTEN or RESYNC at a confirmation: O jumps to T (R7, R16). -/
def enterMember (s : State) : State := (s.becomeMember.settle.jumpToTarget).settle

/-- LEAVING returns to MEMBER: its REMOVE(LEFT) was refused, objected or abandoned (R13). -/
def returnToMember (s : State) : State := s.becomeMember.settle

/-! ### Joining (R7, R16) -/

/-- The own ADMIT is offered; when it is taken the station is JOINING with that ADMIT tracked (R7, R16).
Coming from RESYNC, the other frames of the group are dropped (R65). -/
def proposeAdmission (s : State) : State :=
  match s.offerPropose s.admitContent with
  | some s' =>
    ((s'.moveTo .joining).doIf (s.sc.station = .resync) (dropGroupFrames (·.isAdmit))).modSc fun sc =>
      { sc with tracked := some s.nextId }
  | none => s

/-- The own entry decides how a confirmed follower enters the group (R7, R16). -/
def enterGroup (s : State) : State :=
  if s.ownEntry.isPresent then s.enterMember
  else if s.classLatched .shed then s
  else s.proposeAdmission.settle

/-- The join test (R7). -/
def joinTest (s : State) : State :=
  s.doIf (s.sc.station = .listen && s.sc.standing = .confirmed && s.tb.state = .locked && s.sc.joinHoldoff = 0)
    enterGroup

/-- The resync step of a confirmed RESYNC station (R16). -/
def resyncTest (s : State) : State :=
  s.doIf (s.sc.station = .resync && s.sc.standing = .confirmed) enterGroup

/-! ### Outcomes of the tracked ADMIT (R8, R9, R10) -/

/-- The tracked ADMIT was refused, objected or abandoned: back to LISTEN with the copy kept, or DORMANT
with the leave-pending flag (R8). -/
def joinFailed (s : State) : State := if s.sc.leavePending then s.enterDormant else s.listenWithCopy

/-- A joiner misses a frame or hears a lower group: its copy is discarded and a waiting ADMIT removed
(R6, R9, R10). -/
def joinMissed (s : State) : State :=
  let leave := s.sc.leavePending
  let s := (s.dropBodies (·.isAdmit)).discardCopy
  if leave then s.enterDormant else (s.enterListen .none 0).settle

/-- A follower has missed an accepted frame (R6, R9, R88). -/
def missedFrame (s : State) : State :=
  match s.sc.station with
  | .joining => s.joinMissed
  | .listen | .resync => s.discardCopy
  | _ => s

end State
end Sys2Proof.Machine
end

