-- ==== Sys2Proof/Machine/Commit.lean ====
section
/-! DEFINITION. The Commit Queue (05): arrival checks, entry and order, objections, voiding, FIRM and the
application of due entries. -/

namespace Sys2Proof.Machine

/-! ### Proposals as they stand on the line (R95, R194) -/

/-- How many epochs `f` is ahead of `en` (00_scope, Epoch numbers). -/
def epochsAhead (f en : Word) : Nat := (f - en).toNat

/-- The proposal a PROPOSE payload asks for; none where a code is undefined (R194). -/
def contentOf (p : ProposeFields) : Option ProposalContent :=
  match p.kindCode.toNat with
  | 1 =>
    match (p.value.extractLsb' 0 8).toNat with
    | 0 => some (.admission (p.value.extractLsb' 8 16) .phase)
    | 1 => some (.admission (p.value.extractLsb' 8 16) .observer)
    | _ => none
  | 2 =>
    match (p.value.extractLsb' 16 8).toNat with
    | 1 => some (.remove (stationOfNibble p.target) .left)
    | 2 => some (.remove (stationOfNibble p.target) .lost)
    | _ => none
  | 3 => some .shed
  | 4 => some (.demand (p.value.extractLsb' 8 16))
  | 5 => some (.clearTrip (stationOfNibble p.target))
  | _ => none

/-- The kind code of a proposal (R194). -/
def ProposalContent.kindCode : ProposalContent → BitVec 4
  | .admission _ _ => 1
  | .remove _ _ => 2
  | .shed => 3
  | .demand _ => 4
  | .clearTrip _ => 5

/-- The value bytes of a proposal (R194). -/
def ProposalContent.value : ProposalContent → BitVec 24
  | .admission fp .phase => fp ++ 0x00#8
  | .admission fp .observer => fp ++ 0x01#8
  | .remove _ .left => 0x010000#24
  | .remove _ .lost => 0x020000#24
  | .shed => 0
  | .demand d => d ++ 0x00#8
  | .clearTrip _ => 0

/-- The target nibble of a proposal as it is sent: 0 where the kind carries no target (R194). -/
def ProposalContent.sentTarget : ProposalContent → BitVec 4
  | .remove t _ => nibbleOfStation t
  | .clearTrip t => nibbleOfStation t
  | .admission _ _ | .shed | .demand _ => 0

/-- The PROPOSE payload of a proposal (R95, R194). -/
def proposeFieldsOf (seq : Byte) (f : Word) (c : ProposalContent) : ProposeFields :=
  { kindCode := c.kindCode, target := c.sentTarget, seq := seq, f := f, value := c.value }

/-- The reason code of an objection (R194). -/
def ObjectReason.code : ObjectReason → Byte
  | .dutyLimit => 1
  | .withdrawn => 2
  | .stillActive => 3
  | .present => 4

/-- The objection a reason code names; none where R194 does not define it. -/
def objectReasonOf (code : Byte) : Option ObjectReason :=
  match code.toNat with
  | 1 => some .dutyLimit
  | 2 => some .withdrawn
  | 3 => some .stillActive
  | 4 => some .present
  | _ => none

/-- The OBJECT payload of an objection (R194). -/
def objectFieldsOf (id : ProposalId) (r : ObjectReason) : ObjectFields :=
  { origin := nibbleOfStation id.origin, seq := id.seq, reason := r.code }

/-! ### Arrival checks (R97) -/

namespace State

/-- Check 1, LATE: F is 2 to 15 epochs ahead. -/
def lateCheck (s : State) (p : ProposeFields) : Option ArrivalRefusal :=
  if inRange 2 (epochsAhead p.f s.tb.en) 15 then none else some .late

/-- Check 2, NOT_MEMBER: judged on the kind code, so that an ADMIT or REMOVE with an undefined value is
judged as one (R97, R194). -/
def memberCheck (s : State) (origin : StationId) (p : ProposeFields) : Option ArrivalRefusal :=
  if (s.entry origin).state = .active || p.kindCode = 1
      || (p.kindCode = 2 && stationOfNibble p.target = origin && (s.entry origin).state = .shed) then none
  else some .notMember

/-- The fingerprint an ADMIT is compared with: the own one in a member, the group's in a follower that has
adopted a reply (R97). -/
def referenceFingerprint (s : State) : Word :=
  if s.isMember then s.sp.fingerprint else s.rt.groupFingerprint.getD s.sp.fingerprint

/-- Check 3, the kind-specific condition. -/
def kindCheck (s : State) (origin : StationId) : Option ProposalContent → Option ArrivalRefusal
  | none => some .notAllowed
  | some (.admission fp _) =>
    if (s.entry origin).state = .active then some .notAllowed
    else if fp ≠ s.referenceFingerprint then some .fingerprint
    else none
  | some (.remove t .left) => if !(s.entry t).isPresent || t ≠ origin then some .notAllowed else none
  | some (.remove t .lost) => if !(s.entry t).isPresent || t = origin then some .notAllowed else none
  | some .shed => if (s.entry origin).holdsSlot then none else some .notAllowed
  | some (.demand _) => none
  | some (.clearTrip t) => if s.fu.tripSet.getLsbD t.val then none else some .notTripped

/-- Whether two proposals of one target exclude each other: both change a standing, or both are a
CLEAR_TRIP (R97). -/
def conflicts (c d : ProposalContent) : Bool :=
  (c.changesStanding && d.changesStanding)
    || match c, d with
      | .clearTrip _, .clearTrip _ => true
      | _, _ => false

/-- Check 4, DUPLICATE. -/
def duplicateCheck (s : State) (id : ProposalId) : Option ProposalContent → Option ArrivalRefusal
  | none => none
  | some c =>
    if s.cq.entries.any fun e => e.id = id || (conflicts e.content c && e.target = targetOf id.origin c) then
      some .duplicate
    else none

/-- Check 5, FULL. -/
def fullCheck (s : State) : Option ArrivalRefusal := if s.cq.entries.length < 8 then none else some .full

/-- The reason with which a PROPOSE is refused on arrival: that of the first check that fails (R97). -/
def arrivalRefusal (s : State) (origin : StationId) (p : ProposeFields) : Option ArrivalRefusal :=
  let content := contentOf p
  (s.lateCheck p).or ((s.memberCheck origin p).or ((s.kindCheck origin content).or
    ((s.duplicateCheck { origin := origin, seq := p.seq } content).or s.fullCheck)))

/-! ### Entries (R91, R94, R98) -/

/-- A new entry is placed after every entry at the same distance or nearer (R94). -/
def insertEntry (en : Word) (e : QueueEntry) (es : List QueueEntry) : List QueueEntry :=
  let nearer := fun x : QueueEntry => epochsAhead x.f en ≤ epochsAhead e.f en
  es.takeWhile (nearer ·) ++ e :: es.dropWhile (nearer ·)

/-- An entry leaves the queue: queued and pending objections to it go without an event (R60, R102). -/
def dropEntry (id : ProposalId) (s : State) : State :=
  (s.modCq fun cq => { cq with
    entries := cq.entries.filter fun e => e.id ≠ id
    pendingObjections := cq.pendingObjections.filter fun o => o.1 ≠ id }).dropBodies (·.objectsTo id)

/-- An objection this station has decided on: offered now, or kept pending when the queue is full (R107). -/
def decideObjection (id : ProposalId) (r : ObjectReason) (s : State) : State :=
  (s.offer (.object id r)).getD
    (s.modCq fun cq => { cq with pendingObjections := cq.pendingObjections ++ [(id, r)] })

/-- The objection a member has to a proposal it enters (R103, R104, R105). -/
def ownObjection (s : State) (c : ProposalContent) : Option ObjectReason :=
  if !s.isMember then none
  else match c with
    | .demand d => if s.ownEntry.holdsSlot && s.dutyMax < d then some .dutyLimit else none
    | .clearTrip t => if t = s.ownId && s.classLatched .trip then some .stillActive else none
    | .remove t .lost => if t = s.ownId then some .present else none
    | .remove _ .left | .admission _ _ | .shed => none

/-- A withdraw request whose proposal is OPEN: the OBJECT WITHDRAWN is queued when there is room (R179). -/
def offerWithdrawal (s : State) (e : QueueEntry) : State :=
  if e.isLocal && e.phase = .openPhase
      && s.sp.tickets.any fun t => t.unfinished && t.number = e.id.seq && t.kind.fits e.content
          && t.withdrawRequest && !t.withdrawQueued then
    match s.offer (.object e.id .withdrawn) with
    | some s' => s'.reportTicket e.id.seq e.content fun t => { t with withdrawQueued := true }
    | none => s
  else s

/-- The withdrawal owed by a STOP taken while the ADMIT was in flight: queued at its entry or at a later
boundary with room, while the ADMIT is OPEN (R11). One that the Fault Unit has queued meanwhile stands for it (log 17). -/
def offerOwedWithdrawal (s : State) : State :=
  match s.ownAdmit with
  | some e =>
    if s.sc.withdrawOwed && e.phase = .openPhase && !s.withdrawalQueued e.id then
      match s.offer (.object e.id .withdrawn) with
      | some s' => s'.modSc fun sc => { sc with withdrawOwed := false }
      | none => s
    else s.modSc fun sc => { sc with withdrawOwed := false }
  | none => s.modSc fun sc => { sc with withdrawOwed := false }

/-- Whether an id is the tracked proposal (R1). -/
def tracks (s : State) (id : ProposalId) : Bool := s.sc.tracked = some id

/-- A proposal that passes every check is entered OPEN; its ticket, the tracked ADMIT after a STOP in flight,
and the objections of this station follow in the same acceptance (R98, R11, R167, R179). The spec does not order the own
objection and a requested OBJECT WITHDRAWN against the same own proposal, DUTY_LIMIT for a DEMAND and STILL_ACTIVE for a
CLEAR_TRIP of the own ID: the own objection is offered first and so is sent first, and takes the last place where only one
is free; DESIGN CHOICE, log 13. -/
def enterProposal (id : ProposalId) (c : ProposalContent) (f : Word) (s : State) : State :=
  let e : QueueEntry := { id := id, content := c, f := f, phase := .openPhase, isLocal := id.origin = s.ownId }
  let s₁ := s.modCq fun cq => { cq with entries := insertEntry s.tb.en e cq.entries }
  let s₂ := s₁.doIf e.isLocal (reportTicket id.seq c fun t => { t with state := .openState, f := some f })
  let s₃ := (s.ownObjection c).elim s₂ fun r => s₂.decideObjection id r
  let s₄ := s₃.doIf (s.sc.station = .joining && s.tracks id && s.sc.leavePending)
    fun s => (s.modSc fun sc => { sc with withdrawOwed := true }).offerOwedWithdrawal
  let s₅ := s₄.offerWithdrawal e
  s₅.doIf (e.isLocal && match c with
    | .admission _ _ => true
    | _ => false) withdrawalTest

/-- The tracked proposal was refused: R8 in JOINING, R13 in LEAVING. -/
def trackedRefused (r : ArrivalRefusal) (s : State) : State :=
  match s.sc.station, r with
  | .joining, .fingerprint => s.enterHalted .fingerprint
  | .joining, _ => s.joinFailed
  | .leaving, _ => s.returnToMember
  | _, _ => s

/-- A refused proposal leaves no entry; at its origin the ticket is REFUSED and a tracked proposal has its
outcome (R99). -/
def refuseProposal (id : ProposalId) (p : ProposeFields) (r : ArrivalRefusal) (s : State) : State :=
  let s₁ := s.doIf (id.origin = s.ownId) fun s => match contentOf p with
    | some c => s.reportTicket id.seq c fun t => { t.finish (.refused r) with f := some p.f }
    | none => s
  s₁.doIf (s.tracks id) (trackedRefused r)

/-- An accepted PROPOSE at a station that processes it (R97 to R99). -/
def processPropose (origin : StationId) (p : ProposeFields) (s : State) : State :=
  let id : ProposalId := { origin := origin, seq := p.seq }
  match s.arrivalRefusal origin p, contentOf p with
  | none, some c => s.enterProposal id c p.f
  | some r, _ => s.refuseProposal id p r
  | none, none => s

/-! ### Objections (R102) -/

/-- Whether an objection's reason fits the entry and the objector (R102). -/
def objectionFits (s : State) (e : QueueEntry) (objector : StationId) : ObjectReason → Bool
  | .dutyLimit => (s.entry objector).holdsSlot && match e.content with
    | .demand _ => true
    | _ => false
  | .withdrawn => objector = e.id.origin
  | .stillActive => objector = e.target && match e.content with
    | .clearTrip _ => true
    | _ => false
  | .present => objector = e.target && match e.content with
    | .remove _ .lost => true
    | _ => false

/-- The tracked proposal was removed by an objection or abandoned: R8 in JOINING, R13 in LEAVING. -/
def trackedLost (s : State) : State :=
  match s.sc.station with
  | .joining => s.joinFailed
  | .leaving => s.returnToMember
  | _ => s

/-- A PRESENT objection shows its sender alive: its silent epochs return to 0 (R75). -/
def resetSilence (i : StationId) (s : State) : State :=
  s.doIf (s.entry i).isPresent fun s => s.modRt fun rt =>
    { rt with entries := rt.entries.set i.val { s.entry i with silent := 0 } }

/-- An objection that takes effect removes the entry and settles what follows it (R102). -/
def applyObjection (e : QueueEntry) (r : ObjectReason) (objector : StationId) (s : State) : State :=
  let s₁ := (s.dropEntry e.id).doIf e.isLocal
    (reportTicket e.id.seq e.content (Ticket.finish (.objected r objector)))
  let s₂ := s₁.doIf (r = .present) (resetSilence e.target)
  s₂.doIf (s.tracks e.id) trackedLost

/-- An accepted OBJECT at a station that processes it: it takes effect when an OPEN entry has that id and
the reason fits (R102). -/
def processObject (objector : StationId) (o : ObjectFields) (s : State) : State :=
  let id : ProposalId := { origin := stationOfNibble o.origin, seq := o.seq }
  match s.cq.entries.find? (·.id = id), objectReasonOf o.reason with
  | some e, some r =>
    if e.phase = .openPhase && s.objectionFits e objector r then s.applyObjection e r objector else s
  | _, _ => s

/-! ### Voiding a CLEAR_TRIP (R108) and TRIP (R162) -/

/-- One entry is voided by a TRIP from its target (R108). -/
def voidClearTrip (s : State) (e : QueueEntry) : State :=
  (s.dropEntry e.id).doIf e.isLocal (reportTicket e.id.seq e.content (Ticket.finish (.voided .retripped)))

/-- An accepted TRIP at a station that processes it (R108, R162). -/
def processTrip (sender : StationId) (t : TripFields) (s : State) : State :=
  let s₁ := (s.setTripSet (s.fu.tripSet ||| stationBit sender)).modFu fun fu =>
    { fu with lastTrip := some { sender := sender, input := t.input, enCarried := t.en, enAccepted := s.tb.en } }
  (s.cq.entries.filter fun e => e.content = .clearTrip sender).foldl voidClearTrip s₁

/-! ### FIRM (R100) -/

/-- Whether an entry is made FIRM at the boundary into EN: OPEN and 1 epoch ahead (R100). -/
def firmNow (s : State) (e : QueueEntry) : Bool := e.phase = .openPhase && epochsAhead e.f s.tb.en = 1

/-- One entry becomes FIRM: objections to it that are queued, pending or asked for are overtaken, and its
ticket becomes FIRM (R60, R100, R179). -/
def makeEntryFirm (s : State) (e : QueueEntry) : State :=
  let lapses := fun t : Ticket => t.unfinished && t.number = e.id.seq && t.kind.fits e.content
    && t.withdrawRequest && !t.withdrawQueued
  let late := s.hasQueued (·.objectsTo e.id) || (s.cq.pendingObjections.any fun o => o.1 = e.id)
    || (e.isLocal && s.sp.tickets.any lapses)
  let s₁ := s.modCq fun cq => { cq with
    entries := cq.entries.map fun x => if x.id = e.id then { x with phase := .firm } else x
    pendingObjections := cq.pendingObjections.filter fun o => o.1 ≠ e.id }
  ((s₁.dropBodies (·.objectsTo e.id)).doIf e.isLocal
    (reportTicket e.id.seq e.content fun t =>
      { t with state := .firm, withdrawRequest := false, withdrawQueued := false })).doIf late (raise .lateObjection)

/-- The FIRM part of step 2 (R100). -/
def makeFirm (s : State) : State := (s.cq.entries.filter s.firmNow).foldl makeEntryFirm s

/-! ### Application (R101, R109 to R114) -/

/-- Whether the effect of an entry is a no-op against the state as it stands (R109 to R113). -/
def isNoEffect (s : State) (e : QueueEntry) : Bool :=
  match e.content with
  | .admission _ _ => (s.entry e.target).state = .active
  | .remove _ _ => !(s.entry e.target).isPresent
  | .shed => (s.entry e.target).state ≠ .active
  | .demand _ => false
  | .clearTrip t => !s.fu.tripSet.getLsbD t.val

/-- The change an entry makes to the shared state (R69, R109 to R113). -/
def applyContent (e : QueueEntry) (s : State) : State :=
  match e.content with
  | .admission _ kind =>
    s.setEntry e.target { state := .active, kind := kind, admittedAt := some s.tb.en, silent := 0, heard := false,
                          lastBeat := none }
  | .remove t _ => s.setEntry t .absentEntry
  | .shed => s.setEntry e.target { s.entry e.target with state := .shed }
  | .demand d => s.modCq fun cq => { cq with duty := d }
  | .clearTrip t => s.setTripSet (s.fu.tripSet &&& ~~~stationBit t)

/-- The change of station state an application brings, when its target is this station (R109, R110). -/
def applyToOwn (e : QueueEntry) (s : State) : State :=
  if e.target ≠ s.ownId then s
  else match e.content with
    | .admission _ _ => s.doIf (s.sc.station = .joining) becomeMember
    | .remove _ .left => s.doIf s.isMember enterDormant
    | .remove _ .lost => s.doIf s.isMember listenRemoved
    | .shed | .demand _ | .clearTrip _ => s

/-- One due entry is applied and removed, and its ticket reported (R101, R114). -/
def applyEntry (s : State) (e : QueueEntry) : State :=
  let noEffect := s.isNoEffect e
  let s₁ := (s.dropEntry e.id).doIf (!noEffect) (applyContent e)
  let s₂ := s₁.doIf e.isLocal (reportTicket e.id.seq e.content (Ticket.finish (.applied noEffect)))
  s₂.applyToOwn e

/-- The application part of step 2: every entry whose F equals EN, in queue order (R101). -/
def applyDue (s : State) : State := (s.cq.entries.filter fun e => e.f = s.tb.en).foldl applyEntry s

/-! ### Pending objections (R107) -/

/-- Pending objections are offered in order while there is room (R107). -/
def offerObjections : List (ProposalId × ObjectReason) → State → State
  | [], s => s
  | (id, r) :: rest, s =>
    match s.offer (.object id r) with
    | some s' => offerObjections rest (s'.modCq fun cq => { cq with pendingObjections := rest })
    | none => s

/-- What the Commit Queue and the Setup Port offer at a boundary: pending objections, the withdrawal owed by
a STOP, and the withdraw requests (R11, R107, R179). No sentence orders the three where fewer places are free: they are
offered in this order, the withdraw requests in that of the Commit Queue; DESIGN CHOICE, log 5. -/
def offerAtBoundary (s : State) : State :=
  let s₁ := (offerObjections s.cq.pendingObjections s).doIf s.sc.withdrawOwed offerOwedWithdrawal
  s₁.cq.entries.foldl offerWithdrawal s₁

end State
end Sys2Proof.Machine
end

