-- ==== Sys2Proof/Machine/Boundary.lean ====
section
/-! DEFINITION. The boundary (R22): founding, the three steps, and the other work the blocks do there, in
the order the model fixes (log 5). -/

namespace Sys2Proof.Machine
namespace State

/-- The states in which steps 2 and 3 are performed (R22). -/
def actsAtBoundary (s : State) : Bool := s.isMember || s.isFollower

/-! ### Founding (R5) -/

/-- Whether the boundary that begins is the one at which the station founds: one more quiet boundary, on
lines it can read (R5). -/
def foundsNow (s : State) : Bool :=
  s.sc.station = .listen && s.tb.state ≠ .holdover && s.bi.line ≠ .stuck && s.quietLimit ≤ s.sc.quiet + 1

/-- The roster of a founder (R5). -/
def founderRoster (s : State) : List RosterEntry :=
  (List.replicate 16 RosterEntry.absentEntry).set s.ownId.val
    { state := .active, kind := s.ownKind, admittedAt := some 0, silent := 0, heard := false, lastBeat := none }

/-- Founding, in place of steps 1 to 3, with the tests of an entry to MEMBER (R5, R67, R93, R117, R160, R168, log 6). -/
def found (s : State) : State :=
  let s₁ := ((s.emptyQueue .resync).setTripSet 0).setRoster s.founderRoster
  let s₂ := (s₁.modCq fun cq => { cq with duty := 0 }).modRt fun rt => { rt with
    copySource := .own, expectedKey := none, groupFingerprint := none, countdown := 0, pendingReplies := 0 }
  let s₃ := (s₂.modTb fun tb => { tb with en := 0 }).enterLocked
  ((((s₃.moveTo .member).modSc fun sc => { sc with tracked := none }).remode).adoptTarget).memberTests

/-! ### Step 3: silence, loss and divergence (R73, R74, R76) -/

/-- Whether silence is counted: in a member, and in a follower with a copy OWN or REPLY (R73). -/
def countsSilence (s : State) : Bool := s.isMember || (s.isFollower && s.hasCopy)

/-- The silence of one entry at the end of an epoch (R73). -/
def silenceOf (limit : Nat) (e : RosterEntry) : RosterEntry :=
  if !e.isPresent then e
  else if e.heard then { e with silent := 0 }
  else { e with silent := min limit (e.silent + 1) }

/-- Whether an ADMIT due at this boundary makes a station ACTIVE (R73, R109). -/
def admittedNow (s : State) (i : StationId) : Bool :=
  (s.entry i).state ≠ .active && s.cq.entries.any fun e => e.f = s.tb.en && e.target = i && match e.content with
    | .admission _ _ => true
    | _ => false

/-- The silence update of every entry but the own one and those admitted at this boundary, whose first count is taken at
the end of the first epoch in which they could have beaten (R73). -/
def updateSilence (admitted : StationId → Bool) (s : State) : State :=
  s.modRt fun rt => { rt with
    entries := allStations.map fun i =>
      if i = s.ownId || admitted i then s.entry i else silenceOf s.lossEpochs (s.entry i) }

/-- The loss test of one peer (R74). -/
def proposeLoss (s : State) (i : StationId) : State :=
  if i ≠ s.ownId && (s.entry i).isPresent && (s.entry i).silent = s.lossEpochs && !s.removePending i
      && !s.hasQueued (·.isRemoveOf i) then
    orKeep (s.offerPropose (.remove i .lost)) s
  else s

/-- Loss proposals, in ascending station ID (R74). -/
def proposeLosses (s : State) : State := allStations.foldl proposeLoss s

/-- The peers whose BEATs are counted in the vote (R76). -/
def voters (s : State) : List StationId :=
  allStations.filter fun i => i ≠ s.ownId && (s.entry i).isPresent && (s.entry i).heard
    && ((s.entry i).lastBeat.elim false fun b => !b.resync)

/-- Whether a peer's BEAT agrees with the epoch that has ended: its EN and its digest (R76). -/
def agrees (s : State) (i : StationId) : Bool :=
  (s.entry i).lastBeat.elim false fun b => b.en = s.tb.en - 1 && b.digest = s.rt.epochDigest

/-- The lowest ID of an ascending list, 16 for an empty one. -/
def lowestOf (l : List StationId) : Nat := (l.head?.map (·.val)).getD 16

/-- Whether the station loses the divergence vote: A < D, or A = D with the lowest ID on the other side
(R76). -/
def losesVote (s : State) : Bool :=
  let agreeing := s.voters.filter s.agrees
  let disagreeing := s.voters.filter fun i => !s.agrees i
  let a := agreeing.length + 1
  let d := disagreeing.length
  a < d || (a = d && lowestOf disagreeing < min s.ownId.val (lowestOf agreeing))

/-- The heard flag of every entry is cleared (R73). -/
def clearHeard (s : State) : State :=
  s.modRt fun rt => { rt with entries := rt.entries.map fun e => { e with heard := false } }

/-- Step 3 (R22, R73, R74, R76). -/
def stepThree (admitted : StationId → Bool) (s : State) : State :=
  if !s.countsSilence then s
  else
    let s₁ := (s.updateSilence admitted).doIf s.isMember proposeLosses
    let lost := s₁.isMember && s₁.losesVote
    s₁.clearHeard.doIf lost (enterResync none)

/-! ### The digest and the BEAT (R70, R71) -/

/-- The epoch digest of the state that step 2 left, armed in a member and in a follower with a copy OWN or
REPLY (R70). -/
def takeDigest (s : State) : State :=
  s.modRt fun rt => { rt with epochDigest := s.digest, armed := s.isMember || s.hasCopy }

/-- The BEAT of this boundary; `depth` is the number of entries that step 2 left in the Commit Queue (R71, R94, R155). -/
def beatNow (depth : Nat) (s : State) : BeatFields where
  en := s.tb.en
  resync := s.sc.station = .resync
  tripHeld := s.fu.tripSet ≠ 0
  depth := BitVec.ofNat 4 depth
  localLatched := s.classLatched .localClass
  shedLatched := s.classLatched .shed
  tripLatched := s.classLatched .trip
  lowestActive := BitVec.ofNat 8 (lowestActive s.rt.entries)
  activeCount := BitVec.ofNat 8 (activeCount s.rt.entries)
  digest := s.rt.epochDigest
  lead := s.tb.lastLead

/-- MEMBER, LEAVING and RESYNC build and enqueue their BEAT (R71). -/
def buildBeat (depth : Nat) (s : State) : State := s.doIf s.drivesMarks (enqueueBeat (s.beatNow depth))

/-! ### The heard group (R80) -/

/-- The reference ID a heard group ID is compared with (R80). -/
def referenceId (s : State) : Option Nat :=
  match s.rt.expectedKey with
  | some k => some k
  | none => if s.rt.copySource = .none then none else some (lowestActive s.rt.entries)

/-- The heard group ID where it is below the reference ID (R80). -/
def lowerGroup (s : State) : Option Nat :=
  match s.rt.heardGroup, s.referenceId with
  | some h, some r => if h < r then some h else none
  | _, _ => none

/-- What a follower does about a lower group (R80, R10). -/
def yieldToGroup (h : Nat) (s : State) : State :=
  match s.sc.station with
  | .resync => (s.modRt fun rt => { rt with expectedKey := some h }).doIf (s.rt.copySource = .reply) discardCopy
  | .listen => s.doIf s.hasCopy discardCopy
  | .joining => s.joinMissed
  | _ => s

/-- The heard-group test of a follower, after which the heard group ID is absent (R80). -/
def heardGroupTest (s : State) : State :=
  let s' := s.modRt fun rt => { rt with heardGroup := none }
  if s.isFollower then s.lowerGroup.elim s' fun h => s'.yieldToGroup h else s'

/-! ### The Time Base and the mark drive (R24, R32, R36 to R38) -/

/-- HOLDOVER at a boundary: it is left after a release, else an epoch more is counted, to ISOLATED at
LOSS_EPOCHS (R36 to R38). -/
def holdoverAtBoundary (s : State) : State :=
  if s.tb.state ≠ .holdover then s
  else if !s.tb.levelLow then s.leaveHoldover
  else
    let n := min s.lossEpochs (s.tb.holdoverEpochs + 1)
    (s.modTb fun tb => { tb with holdoverEpochs := n }).doIf (n = s.lossEpochs) (isolate .markStuck)

/-- ACQUIRING at a natural boundary with no mark seen returns to FREE; the mark-seen flag is cleared at
every boundary (R32). -/
def markSeenAtBoundary (natural : Bool) (s : State) : State :=
  (s.doIf (natural && s.tb.state = .acquiring && !s.tb.markSeen) (modTb fun tb =>
    { tb with state := .free, inWindow := 0 })).modTb fun tb => { tb with markSeen := false }

/-- A mark drive of 16 counts begins in MEMBER, LEAVING and RESYNC while LOCKED (R24, R25). -/
def startDrive (s : State) : State :=
  s.doIf (s.drivesMarks && s.tb.state = .locked) (modTb fun tb => { tb with driveLeft := 16, driveReadLow := false })

/-! ### Bus counts at a boundary (R46, R50) -/

/-- The clash window advances and passes 16 to absent (R50). -/
def advanceClashWindow (s : State) : State :=
  s.modBi fun bi => { bi with clashWindow := bi.clashWindow.bind fun n => if n < 16 then some (n + 1) else none }

/-- The stuck-epochs count, to ISOLATED at LOSS_EPOCHS; it is kept 0 where the station cannot isolate
(R46). -/
def countStuck (s : State) : State :=
  if s.bi.line = .stuck && s.canIsolate then
    let n := s.bi.stuckEpochs + 1
    (s.modBi fun bi => { bi with stuckEpochs := n }).doIf (s.lossEpochs ≤ n) (isolate .dataStuck)
  else s.modBi fun bi => { bi with stuckEpochs := 0 }

/-! ### The Station Controller's counts and tests (R4, R5, R7, R12, R15, R16, R18) -/

/-- The join holdoff of a station that was in LISTEN before the boundary (R4). -/
def countHoldoff (wasListen : Bool) (s : State) : State :=
  s.doIf (wasListen && s.sc.station = .listen) (modSc fun sc => { sc with joinHoldoff := sc.joinHoldoff - 1 })

/-- The quiet count: in LISTEN 0 on a line it cannot read, else one more; in RESYNC one more (R5, R15). -/
def countQuiet (unreadable : Bool) (s : State) : State :=
  match s.sc.station with
  | .listen => s.modSc fun sc => { sc with quiet := if unreadable then 0 else sc.quiet + 1 }
  | .resync => s.modSc fun sc => { sc with quiet := sc.quiet + 1 }
  | _ => s

/-- The unlocked count, to ISOLATED at 4 × LISTEN_EPOCHS (R18). -/
def countUnlocked (s : State) : State :=
  if s.sc.station = .listen && s.tb.state ≠ .locked && s.sc.frameSinceListen then
    let n := s.sc.unlocked + 1
    (s.modSc fun sc => { sc with unlocked := n }).doIf (4 * s.listenEpochs ≤ n) (isolate .markAbsent)
  else s

/-- RESYNC ends in LISTEN when no group is heard for LISTEN_EPOCHS + ID boundaries (R15). -/
def resyncTimeout (s : State) : State :=
  s.doIf (s.sc.station = .resync && s.quietLimit ≤ s.sc.quiet) listenUnheard

/-! ### Roster queries and replies (R81, R82) -/

/-- Whether the station needs the group's state (R81). -/
def needsRoster (s : State) : Bool :=
  s.tb.state = .locked && ((s.sc.station = .listen && s.rt.copySource = .none)
    || (s.sc.station = .resync && (s.rt.copySource = .none || s.rt.copySource = .old)))

/-- The query countdown, and a ROSTER_QUERY when it has run out; without the need no query stays queued (R81). -/
def queryAtBoundary (s : State) : State :=
  let setCountdown := fun n => modRt fun rt => { rt with countdown := n }
  if !s.needsRoster then (setCountdown 0 s).doIf (s.isFollower && s.hasQueued (·.isQuery)) (dropBodies (·.isQuery))
  else
    let n := s.rt.countdown - 1
    if n = 0 && !s.hasQueued (·.isQuery) then
      match s.offer .query with
      | some s' => setCountdown s.listenEpochs s'
      | none => setCountdown 0 s
    else setCountdown n s

/-- A reply owed to one pending asker is offered. The spec leaves open when an asker whose reply is queued already, to a
later query, leaves the pending set: here, at the boundary, if that reply is still queued, else a reply is offered to it
again (R82); DESIGN CHOICE, log 5. -/
def offerReply (s : State) (i : StationId) : State :=
  if s.isMember && s.rt.pendingReplies.getLsbD i.val then
    let paid := modRt fun rt => { rt with pendingReplies := rt.pendingReplies &&& ~~~stationBit i }
    if s.hasQueued (·.repliesTo i) then paid s else ((s.offer (.reply i)).map paid).getD s
  else s

/-! ### The boundary as a whole -/

/-- Step 1: EN advances (R22). -/
def stepOne (s : State) : State := s.modTb fun tb => { tb with en := tb.en + 1 }

/-- Step 2: due entries are applied, and those one epoch ahead become FIRM (R22, R100, R101). -/
def stepTwo (s : State) : State := s.applyDue.makeFirm.settle

/-- Steps 1 and 2, or founding in place of all three (R5, R22). -/
def stepsOneAndTwo (s : State) : State :=
  if s.foundsNow then s.found else s.stepOne.doIf s.actsAtBoundary stepTwo

/-- Steps 1 to 3 (R22). -/
def stepsOneToThree (s : State) : State :=
  s.stepsOneAndTwo.doIf (s.actsAtBoundary && !s.foundsNow) fun t => (t.stepThree s.stepOne.admittedNow).settle

/-- The other work of the Roster Table and the Commit Queue that does not read the time base. -/
def groupWork (depth : Nat) (s : State) : State :=
  s.doIf s.actsAtBoundary fun s => (s.takeDigest.buildBeat depth).heardGroupTest.offerAtBoundary

/-- The other work of the Time Base and the Bus Interface. -/
def lineWork (natural : Bool) (s : State) : State :=
  (((s.holdoverAtBoundary).markSeenAtBoundary natural).startDrive).advanceClashWindow.countStuck

/-- The other work of the Station Controller. -/
def controllerWork (wasListen unreadable : Bool) (s : State) : State :=
  ((((((s.countHoldoff wasListen).countQuiet unreadable).countUnlocked).resyncTimeout).joinTest).resyncTest).leaveIfPending

/-- The offers that come last: queries, the Fault Unit's tests, pending replies. -/
def lateOffers (s : State) : State :=
  allStations.foldl offerReply (s.queryAtBoundary.shedTest.readmissionTest.withdrawalTest)

/-- A boundary, natural or mark-induced (R22). -/
def boundary (natural : Bool) (s : State) : State :=
  let wasListen := s.sc.station = .listen
  let unreadable := s.tb.state = .holdover || s.bi.line = .stuck
  let depth := s.stepsOneAndTwo.cq.entries.length
  (((((s.stepsOneToThree.groupWork depth).lineWork natural).controllerWork wasListen unreadable).settle).lateOffers).settle

/-- The natural boundary at the present instant: B and K have wrapped to 0 (R21). -/
def naturalBoundary (s : State) : State :=
  if s.sc.station = .setup then s
  else (s.modTb fun tb => { tb with b := 0, k := 0 }).boundary true

end State

/-! ### The commands -/

/-- NATURAL_BOUNDARY (R22). -/
def execNaturalBoundary (s : State) : Host.Outcome State Fault Refusal := .next s.naturalBoundary

end Sys2Proof.Machine
end

