-- ==== Sys2Proof/Machine/Mark.lean ====
section
/-! DEFINITION. The mark line (02): recognised edges, alignments with what they do to the local cycle
(R131, R132, R146), releases, HOLDOVER and the end of a mark drive. -/

namespace Sys2Proof.Machine
namespace State

/-! ### Distances of an edge (R28) -/

/-- pos at the edge count: two counts before the recognition (R27, R28, log 9). -/
def edgePos (s : State) : Nat := (s.pos + s.epochCounts - 2) % s.epochCounts

/-- The lead of an edge whose edge count stood at `posE`: 0 at the boundary itself (R28). -/
def leadOf (s : State) (posE : Nat) : Nat := if posE = 0 then 0 else s.epochCounts - posE

/-! ### The local cycle under a forward alignment (R131, R146, R148) -/

/-- The half-cycle point of the cycle in progress, if a jump of P from `p` to `q` passes it (R148). -/
def pointIfPassed (p q : Nat) (s : State) : State :=
  s.doIf (p < s.pu.length / 2 && s.pu.length / 2 ≤ q) halfPoint

/-- P moves to `p` within the cycle, and the half-cycle point it passes is given (R131, R148). -/
def passTo (p : Nat) (s : State) : State := (s.modOs fun os => { os with p := p }).pointIfPassed s.os.p p

/-- Whether a move of P to `p` within the cycle crosses the compare, changing the requested output (R146). -/
def compareCrossed (p : Nat) (s : State) : Bool := s.requestChanged (s.modOs fun os => { os with p := p })

/-- Both gates are released in this count where a crossed point changed the requested output (R146). -/
def releaseIf (crossed : Bool) (s : State) : State := s.doIf crossed (modOs .release)

/-- The jump stays within the cycle: P moves by `j`, and a crossed compare releases the gates (R131, R146). -/
def jumpWithin (j : Nat) (s : State) : State := (s.passTo (s.os.p + j)).releaseIf (s.compareCrossed (s.os.p + j))

/-- The jump passes the end of the cycle: the points of the old cycle, a local cycle start at recognition, and the points
of the new cycle up to its P; each of the three crossings may change the requested output (R131, R146, R148). For RUN entered
from OFF at that start R144 has the output active in the count of entry and R146 both inactive in it: the release of R146
holds, and the output follows one count later; DESIGN CHOICE, log 10. -/
def jumpAcrossEnd (j : Nat) (endsBlanking : Bool) (s : State) : State :=
  let last := s.pu.length - 1
  let rest := s.os.p + j - s.pu.length
  let start := (s.passTo last).crossStart endsBlanking
  (start.2.passTo rest).releaseIf (s.compareCrossed last || start.1 || start.2.compareCrossed rest)

/-- The local cycle under a forward alignment by `j` counts: the three cases of R131. A time step's own
start at recognition does not end its blanking (R131, R149). -/
def alignCycle (j : Nat) (timeStep : Bool) (s : State) : State :=
  if s.os.p + j < s.pu.length then s.jumpWithin j
  else if s.os.p + j - s.pu.length < s.period - s.slewStep then s.jumpAcrossEnd j (!timeStep)
  else s.reanchor

/-! ### Alignments (R29, R30) -/

/-- The counters put the own boundary at the edge count (R29, R30). -/
def alignCounters (s : State) : State := s.modTb fun tb => { tb with b := 2, k := 0 }

/-- A forward alignment by the lead, and a mark-induced boundary when the own one has not come (R29). A local cycle start
that the alignment takes at recognition comes before the boundary, which the spec leaves open for this pair (R138): the
boundary is performed in the aligned base; DESIGN CHOICE, log 10. -/
def alignForward (lead : Nat) (timeStep : Bool) (s : State) : State :=
  let s₁ := s.alignCounters.alignCycle lead timeStep
  s₁.doIf (3 ≤ lead) (boundary false)

/-- A backward alignment: the local cycle is re-anchored and no boundary is performed (R30, R132). -/
def alignBackward (s : State) : State := s.alignCounters.reanchor

/-- A time step: event TIME_STEP, and both gates held inactive until the next local cycle start (R33, R34,
R149). -/
def timeStep (s : State) : State := ((s.modOs fun os => { os with blanking := true }).regate).raise .timeStep

/-! ### The edge in each time-base state -/

/-- Whether a lead is at most half an epoch (R29, R33). -/
def leadIsForward (s : State) (lead : Nat) : Bool := 2 * lead ≤ s.epochCounts

/-- Alignment by the lead or by the trail, none at lead 0 (R31, R32, R34). -/
def alignEitherWay (lead : Nat) (s : State) : State :=
  if lead = 0 then s else if s.leadIsForward lead then s.alignForward lead false else s.alignBackward

/-- The first edge in FREE (R31). -/
def edgeInFree (lead : Nat) (s : State) : State :=
  let s₁ := s.alignEitherWay lead
  s₁.doIf s₁.canIsolate (modTb fun tb => { tb with state := .acquiring, inWindow := 1 })

/-- Whether an edge is in the window: its lead or its trail is at most LOCK_WINDOW (R32). -/
def inWindow (s : State) (lead trail : Nat) : Bool := lead ≤ s.lockWindow || trail ≤ s.lockWindow

/-- An edge in ACQUIRING; the count and the entry to LOCKED come after any boundary it induces (R32). -/
def edgeInAcquiring (lead trail : Nat) (s : State) : State :=
  let hit := s.inWindow lead trail
  let s₁ := s.alignEitherWay lead
  if !s₁.canIsolate then s₁
  else if !hit then s₁.modTb fun tb => { tb with inWindow := 1 }
  else if 3 ≤ s₁.tb.inWindow + 1 then s₁.enterLocked
  else s₁.modTb fun tb => { tb with inWindow := tb.inWindow + 1 }

/-- An edge in LOCKED at a station that drives the mark: the four bands (R33). -/
def edgeWhileDriving (lead : Nat) (s : State) : State :=
  if lead = 0 then s
  else if lead ≤ s.lockWindow then s.alignForward lead false
  else if s.leadIsForward lead then s.timeStep.alignForward lead true
  else s.raise .strayMark

/-- An edge in LOCKED at a station that does not drive the mark (R34). -/
def edgeWhileFollowing (lead trail : Nat) (s : State) : State :=
  if lead = 0 then s
  else if s.leadIsForward lead then
    if lead ≤ s.lockWindow then s.alignForward lead false else s.timeStep.alignForward lead true
  else if trail ≤ s.lockWindow then s.alignBackward
  else s.timeStep.alignBackward

/-- The edge as the time-base state requires (R28); in ISOLATED and HALTED it neither aligns nor changes the
state (R39). -/
def treatEdge (lead trail : Nat) (s : State) : State :=
  if !s.canIsolate then s
  else match s.tb.state with
    | .free => s.edgeInFree lead
    | .acquiring => s.edgeInAcquiring lead trail
    | .locked => if s.drivesMarks then s.edgeWhileDriving lead else s.edgeWhileFollowing lead trail
    | .holdover => s

/-- In LISTEN the quiet count returns to 0 (R5). -/
def breakQuiet (s : State) : State := s.doIf (s.sc.station = .listen) (modSc fun sc => { sc with quiet := 0 })

/-- A recognised falling edge of SBM (R27, R28, R37). While HOLDOVER has seen no release the line is low and no
edge arises. -/
def markEdge (s : State) : State :=
  if s.sc.station = .setup || (s.tb.state = .holdover && s.tb.levelLow) then s
  else
    let trail := s.edgePos
    let lead := s.leadOf trail
    let s₁ := (s.modTb fun tb => { tb with
      lastLead := BitVec.ofNat 16 (min 65535 lead), levelLow := true, lowRun := 3, filterRun := 0 }).breakQuiet
    let s₂ := s₁.doIf (s₁.tb.state = .holdover) leaveHoldover
    (((s₂.treatEdge lead trail).modTb fun tb => { tb with markSeen := true }).breakQuiet).settle

/-- A release of SBM (R27). -/
def markRelease (s : State) : State :=
  if s.sc.station = .setup then s else s.modTb fun tb => { tb with levelLow := false, lowRun := 0, filterRun := 0 }

/-- The low run exceeds 64 counts (R36). -/
def holdoverEntry (s : State) : State :=
  if s.sc.station = .setup then s
  else (s.modTb fun tb => { tb with levelLow := true, lowRun := max 65 tb.lowRun, filterRun := 0 }).enterHoldover

/-- A mark drive completes: it failed when all its samples read high (R26). -/
def markDriveEnd (allHigh : Bool) (s : State) : State :=
  if s.sc.station = .setup || s.tb.driveLeft = 0 then s
  else if allHigh then
    let n := s.tb.failedDrives + 1
    ((s.stopDrive.modTb fun tb => { tb with failedDrives := n }).raise .line).doIf (s.lossEpochs ≤ n)
      (isolate .markDrive)
  else s.stopDrive.modTb fun tb => { tb with failedDrives := 0 }

end State

/-! ### The commands -/

/-- MARK_EDGE (R28). -/
def execMarkEdge (s : State) : Host.Outcome State Fault Refusal := .next s.markEdge

/-- MARK_RELEASE (R27). -/
def execMarkRelease (s : State) : Host.Outcome State Fault Refusal := .next s.markRelease

/-- HOLDOVER_ENTRY (R36). -/
def execHoldoverEntry (s : State) : Host.Outcome State Fault Refusal := .next s.holdoverEntry

/-- MARK_DRIVE_END (R26). -/
def execMarkDriveEnd (allHigh : Bool) (s : State) : Host.Outcome State Fault Refusal :=
  .next (s.markDriveEnd allHigh)

end Sys2Proof.Machine
end

