-- ==== Sys2Proof/Machine/Bus.lean ====
section
/-! DEFINITION. The Bus Interface (03): the choice and building of a frame, attempts and the five ways they
end, clashes, votes and error flags, and the line states. -/

namespace Sys2Proof.Machine
namespace State

/-! ### Choice of a frame (R56) -/

/-- The frame of a queue entry as an attempt that begins now would send it: F of a PROPOSE and the contents of
a ROSTER_REPLY are those of this instant (R58, R83, R95). -/
def frameOf (s : State) : QueuedBody → Instr
  | .beat f => .beatAccepted s.ownId f
  | .object id r => .objectAccepted s.ownId (objectFieldsOf id r)
  | .propose seq c => .proposeAccepted s.ownId (proposeFieldsOf seq (s.tb.en + s.commitLead) c)
  | .reply asker => .rosterReplyAccepted s.ownId
      { asker := nibbleOfStation asker, en := s.tb.en, roster := rosterCode s.rt.entries, duty := s.cq.duty,
        tripSet := s.fu.tripSet, digest := s.digest, fingerprint := s.sp.fingerprint }
  | .query => .rosterQueryAccepted s.ownId

/-- Whether a queued frame may be sent in the present station state (R56). -/
def eligible (s : State) (b : QueuedBody) : Bool :=
  match b with
  | .beat _ => s.drivesMarks
  | .object id .withdrawn => s.isMember || (s.sc.station = .joining && s.tracks id)
  | .object _ _ => s.isMember
  | .propose seq (.admission _ _) =>
    s.isMember || (s.sc.station = .joining && s.tracks { origin := s.ownId, seq := seq })
  | .propose _ _ => s.isMember
  | .reply _ => s.isMember
  | .query => s.sc.station = .listen || s.sc.station = .resync

/-- Whether the TRIP slot is served: it holds a TRIP and the station is MEMBER or LEAVING (R56). -/
def tripReady (s : State) : Bool := s.isMember && s.bi.tripSlot.isSome

/-- The queue entry an attempt would take: the first eligible one (R56). -/
def firstEligible (s : State) : Option QueuedFrame := s.bi.queue.find? fun x => s.eligible x.body

/-- The frame an attempt that begins now sends: the TRIP first (R56). -/
def nextFrame (s : State) : Option Instr :=
  if s.tripReady then s.bi.tripSlot.map fun t => .tripAccepted s.ownId t.fields
  else s.firstEligible.map fun x => s.frameOf x.body

end State

/-- The payload length of a frame of this station (R190). -/
def frameLength (frame : Instr) : Nat := (encodeFrame frame).elim 0 fun f => f.2.1.length.toNat

/-- The bits of a frame of this station (R47). -/
def frameBitsOf (frame : Instr) : List Bool := (encodeFrame frame).elim [] fun f => frameBits f.1 f.2.1 f.2.2

/-- The first frame that `test` picks is marked as in flight. -/
def markFirst (test : QueuedFrame → Bool) : List QueuedFrame → List QueuedFrame
  | [] => []
  | x :: xs => if test x then { x with inFlight := true } :: xs else x :: markFirst test xs

/-- The receive context at a start bit (R51). -/
def RxContext.fresh : RxContext where
  bits := []
  taken := 0
  dominant := 0
  error := false
  mismatch := false
  lost := false
  sawFlag := false
  sawEdge := false
  rejecting := false
  slotAge := none
  accepted := none
  sent := false

namespace State

/-! ### The beginning of an attempt (R48) -/

/-- The states in which a station begins attempts (R48). -/
def transmits (s : State) : Bool := s.isMember || s.isFollower

/-- Whether an attempt for a frame may begin now; `joining` takes the place of the idle line by another
station's start bit (R48). -/
def mayBegin (s : State) (joining : Bool) (frame : Instr) : Bool :=
  s.transmits && s.bi.attempt.isNone && (s.bi.line = .idle || (joining && s.bi.line = .busy))
    && s.frameFits (frameLength frame)

/-- A start bit at the present instant: the line is BUSY, and its frame is followed from here (R45, R51). -/
def startBit (s : State) : State :=
  s.modBi fun bi => { bi with
    line := .busy, recessiveRun := 0, edgeAge := 0, rx := if s.followsFrames then some .fresh else none }

/-- The attempt begins: the frame is in flight with the contents of this instant (R48, R58). Its own start bit makes the line
BUSY only when it falls on SBD (R45). -/
def beginAttempt (frame : Instr) (s : State) : State :=
  s.modBi fun bi => { bi with
    attempt := some { frame := frame, bits := frameBitsOf frame, beatReplaced := false, age := 0 }
    tripSlot := if s.tripReady then bi.tripSlot.map fun t => { t with inFlight := true } else bi.tripSlot
    queue := if s.tripReady then bi.queue else markFirst (fun x => s.eligible x.body) bi.queue }

/-- A transmission attempt, where the conditions of R48 hold; one that joins falls on the start bit of another station. -/
def transmissionAttempt (joining : Bool) (s : State) : State :=
  match s.nextFrame with
  | some frame => if s.mayBegin joining frame then (s.doIf joining startBit).beginAttempt frame else s
  | none => s

/-! ### The end of an attempt without acceptance (R61) -/

/-- The queue entry in flight. -/
def inFlightFrame (s : State) : Option QueuedFrame := s.bi.queue.find? (·.inFlight)

/-- The attempt is over: nothing is in flight; the entry that was has `n` attempts. -/
def landAttempt (n : Nat) (s : State) : State :=
  s.modBi fun bi => { bi with
    attempt := none
    tripSlot := bi.tripSlot.map fun t => { t with inFlight := false }
    queue := bi.queue.map fun x => if x.inFlight then { x with attempts := n, inFlight := false } else x }

/-- What waited for the end of an attempt of a PROPOSE: a STOP taken in flight (R11), or a withdraw request
(R179). -/
def actOnEnd (body : QueuedBody) (s : State) : State :=
  match body with
  | .propose seq c =>
    let id : ProposalId := { origin := s.ownId, seq := seq }
    let withdrawn := s.sp.tickets.any fun t => t.unfinished && t.number = seq && t.kind.fits c && t.withdrawRequest
    if s.sc.station = .joining && s.tracks id && s.sc.leavePending then s.enterDormant
    else if withdrawn then
      ((s.dropBodies (·.isPropose seq c)).reportTicket seq c (Ticket.finish .abandoned)).doIf
        (s.sc.station = .leaving && s.tracks id) returnToMember
    else s
  | _ => s

/-- A frame at its attempt limit is dropped: TX_ABANDONED, its ticket ABANDONED, and transmit confinement at
the third in a row; else its owner is told (R61, R63, R8, R13). -/
def abandonFrame (body : QueuedBody) (s : State) : State :=
  let n := s.bi.abandonCount + 1
  let s₁ := ((s.dropFrames (·.inFlight)).raise .txAbandoned).modBi fun bi =>
    { bi with attempt := none, abandonCount := n }
  match body with
  | .propose seq c =>
    let s₂ := s₁.reportTicket seq c (Ticket.finish .abandoned)
    if 3 ≤ n then s₂.isolate .txConfined
    else s₂.doIf (s.tracks { origin := s.ownId, seq := seq }) trackedLost
  | _ => s₁.doIf (3 ≤ n) (isolate .txConfined)

/-- The attempt of a queue entry is rejected or clashed: one attempt more, to the limit of 4. Contents that
replaced a BEAT in flight have had no attempt (R57, R61, log 15). -/
def rejectQueued (x : QueuedFrame) (replaced : Bool) (s : State) : State :=
  let n := if replaced then 0 else x.attempts + 1
  if n < 4 then (s.landAttempt n).actOnEnd x.body else s.abandonFrame x.body

/-- A TRIP has no attempt limit (R62). -/
def rejectTrip (s : State) : State :=
  s.modBi fun bi => { bi with
    attempt := none
    tripSlot := bi.tripSlot.map fun t => { t with attempts := min 4 (t.attempts + 1), inFlight := false } }

/-- The attempt in flight, if there is one, is rejected or clashed (R61). -/
def rejectAttempt (s : State) : State :=
  match s.bi.attempt with
  | none => s
  | some a =>
    match s.inFlightFrame with
    | some x => s.rejectQueued x a.beatReplaced
    | none => s.rejectTrip

/-- The attempt in flight, if there is one, ends without acceptance and without a rejection: the frame stays
queued with its count (R49, R61). -/
def loseAttempt (s : State) : State :=
  match s.bi.attempt with
  | none => s
  | some _ =>
    match s.inFlightFrame with
    | some x => (s.landAttempt x.attempts).actOnEnd x.body
    | none => s.landAttempt 0

/-- Arbitration is lost; in SETUP nothing is sent (R3, R49). -/
def arbitrationLost (s : State) : State := if s.sc.station = .setup then s else s.loseAttempt

/-- A bit mismatch after arbitration: BODY_CLASH; the second within 16 epochs halts the station (R19, R50,
log 16). -/
def bodyClash (s : State) : State :=
  if s.sc.station = .setup || s.bi.attempt.isNone then s
  else
    let s₁ := s.raise .bodyClash
    if s.bi.clashWindow.isSome then s₁.enterHalted .idConflict
    else (s₁.modBi fun bi => { bi with clashWindow := some 0 }).rejectAttempt

/-- The own drive does not reach the line: LINE, and the attempt is rejected (R43). -/
def driveReadbackFail (s : State) : State :=
  if s.sc.station = .setup || s.bi.attempt.isNone then s else (s.raise .line).rejectAttempt

/-! ### Votes and error flags (R44, R52, R64) -/

/-- A reject vote or an error flag of this station: the reject count, and receive confinement at 8 (R52,
R64). -/
def countReject (s : State) : State :=
  let n := s.bi.rejectCount + 1
  (s.modBi fun bi => { bi with rejectCount := n }).doIf (8 ≤ n) (isolate .rxConfined)

/-- The receive context after a format error: a follower waits for the idle line, any other stops (R44,
R51). -/
def stopFollowing (s : State) : State :=
  s.modBi fun bi => { bi with
    rx := if s.isFollower then bi.rx.map fun rx => { rx with lost := true } else none }

/-- A format error, or a length above 20: a voting station drives an error flag of 1.5 bit times, counted when it has been
driven; an own attempt is rejected (R44, R52, log 22). -/
def formatError (s : State) : State :=
  if !s.followsFrames then s
  else
    ((s.doIf s.isMember (modBi fun bi => { bi with errorFlagLeft := 3 * s.bitTime / 2 })).rejectAttempt).stopFollowing

/-- The error flag has been driven to its end and counts (R44, R52, R64, log 22). -/
def errorFlagEnd (s : State) : State :=
  if s.sc.station = .setup || s.bi.errorFlagLeft = 0 then s
  else (s.modBi fun bi => { bi with errorFlagLeft := 0 }).doIf s.isMember countReject

/-- Whether the reject vote of the frame being followed has been driven to its end and so has been counted (R52, R64,
log 22). -/
def voteCounted (s : State) : Bool :=
  s.bi.rx.elim false fun rx => rx.rejecting && rx.slotAge.elim false fun n => 3 * s.bitTime / 4 < n

/-- A frame ends discarded; `votes` says that a reject vote of this station is still to be counted (R52, R54, R61). -/
def discardFrame (votes : Bool) (s : State) : State :=
  if !s.followsFrames then s
  else ((s.doIf (votes && s.isMember) countReject).rejectAttempt).modBi fun bi => { bi with rx := none }

/-- A discarded frame at the present instant: a voting station that followed it to the vote slot rejected it for
a check-word mismatch or for its guard (R52, R53). -/
def frameDiscarded (reachedSlot mismatch : Bool) (s : State) : State :=
  s.discardFrame (reachedSlot && (mismatch || s.slotInGuard) && !s.voteCounted)

/-- A frame has been seen accepted in LISTEN (R5, R18). -/
def noteAcceptance (s : State) : State :=
  s.doIf (s.sc.station = .listen) (modSc fun sc => { sc with quiet := 0, frameSinceListen := true })

/-- A follower has missed an accepted frame; `slotSeen` says that it saw the acceptance in the vote slot (R5,
R6, R54). -/
def frameMissed (slotSeen : Bool) (s : State) : State :=
  if !s.isFollower then s
  else ((s.doIf slotSeen noteAcceptance).modBi fun bi => { bi with rx := none }).missedFrame

/-! ### The line (R45, R46) -/

/-- The line becomes IDLE (R45). -/
def lineIdle (s : State) : State :=
  if s.sc.station = .setup then s else s.modBi fun bi => { bi with line := .idle, rx := none }

/-- The line becomes STUCK: event LINE (R46). -/
def lineStuck (s : State) : State :=
  if s.sc.station = .setup || s.bi.line = .stuck then s
  else (s.modBi fun bi => { bi with line := .stuck, rx := none }).raise .line

/-- The line leaves STUCK at a recessive sample, the first of the idle count, and is BUSY (R45, R46). -/
def lineStuckRelease (s : State) : State :=
  if s.sc.station = .setup || s.bi.line ≠ .stuck then s
  else s.modBi fun bi => { bi with line := .busy, dominantRun := 0, recessiveRun := 1 }

end State

/-! ### The commands -/

/-- LINE_IDLE (R45). -/
def execLineIdle (s : State) : Host.Outcome State Fault Refusal := .next s.lineIdle

/-- LINE_STUCK (R46). -/
def execLineStuck (s : State) : Host.Outcome State Fault Refusal := .next s.lineStuck

/-- LINE_STUCK_RELEASE (R46). -/
def execLineStuckRelease (s : State) : Host.Outcome State Fault Refusal := .next s.lineStuckRelease

/-- TRANSMISSION_ATTEMPT (R48). -/
def execTransmissionAttempt (joining : Bool) (s : State) : Host.Outcome State Fault Refusal :=
  .next (s.transmissionAttempt joining)

/-- ARBITRATION_LOST (R49). -/
def execArbitrationLost (s : State) : Host.Outcome State Fault Refusal := .next s.arbitrationLost

/-- BODY_CLASH (R50). -/
def execBodyClash (s : State) : Host.Outcome State Fault Refusal := .next s.bodyClash

/-- DRIVE_READBACK_FAIL (R43). -/
def execDriveReadbackFail (s : State) : Host.Outcome State Fault Refusal := .next s.driveReadbackFail

/-- FORMAT_ERROR (R44). -/
def execFormatError (s : State) : Host.Outcome State Fault Refusal := .next s.formatError

/-- ERROR_FLAG_END (R44). -/
def execErrorFlagEnd (s : State) : Host.Outcome State Fault Refusal := .next s.errorFlagEnd

/-- FRAME_DISCARDED (R54). -/
def execFrameDiscarded (reachedSlot mismatch : Bool) (s : State) : Host.Outcome State Fault Refusal :=
  .next (s.frameDiscarded reachedSlot mismatch)

/-- FRAME_MISSED (R6). -/
def execFrameMissed (slotSeen : Bool) (s : State) : Host.Outcome State Fault Refusal :=
  .next (s.frameMissed slotSeen)

end Sys2Proof.Machine
end

