-- ==== Sys2Proof/Machine/Frames.lean ====
section
/-! DEFINITION. The acceptance of a frame (R54) and what the owning block does with it (02 R23, 04, 05, 08). -/

namespace Sys2Proof.Machine

/-- Whether two frames are of one kind. -/
def sameKind : Instr → Instr → Bool
  | .beatAccepted _ _, .beatAccepted _ _ => true
  | .proposeAccepted _ _, .proposeAccepted _ _ => true
  | .objectAccepted _ _, .objectAccepted _ _ => true
  | .tripAccepted _ _, .tripAccepted _ _ => true
  | .rosterQueryAccepted _, .rosterQueryAccepted _ => true
  | .rosterReplyAccepted _ _, .rosterReplyAccepted _ _ => true
  | _, _ => false

namespace State

/-! ### The own attempt at an acceptance (R57, R61) -/

/-- Whether an accepted frame is the one this station is sending, or one whose attempt a change of station state ended
after its reject bit had begun (R61, log 12). -/
def isOwnFrame (s : State) (sender : StationId) (frame : Instr) : Bool :=
  sender = s.ownId && (s.bi.attempt.elim false (fun a => sameKind a.frame frame) || s.bi.rx.elim false (·.sent))

/-- The own frame is accepted: it leaves the queue or the TRIP slot, but a BEAT whose contents were replaced in
flight stays with no attempt; the abandon count returns to 0 (R57, R61, R63). -/
def ownAccepted (s : State) : State :=
  let replaced := s.bi.attempt.elim false (·.beatReplaced)
  let s₁ := if replaced then s.landAttempt 0 else s.setQueue (s.bi.queue.filter fun x => !x.inFlight)
  s₁.modBi fun bi => { bi with
    attempt := none, abandonCount := 0, tripSlot := bi.tripSlot.filter fun t => !t.inFlight }

/-- What an acceptance is to every station that followed the frame: the receive context ends, the reject count
returns to 0, LISTEN hears the bus, and an own attempt ends (R5, R18, R54, R61, R64). -/
def seeAcceptance (own : Bool) (s : State) : State :=
  let s₁ := (s.modBi fun bi => { bi with rx := none, rejectCount := 0 }).noteAcceptance
  if own then s₁.ownAccepted else s₁.loseAttempt

/-- A frame accepted at the present instant. A frame of the own ID that was not sent here halts a station in
LISTEN or JOINING (R19); DORMANT hands it to no block (R17); SETUP, ISOLATED and HALTED do not follow frames
(R2, R54). -/
def acceptFrame (sender : StationId) (frame : Instr) (handle : State → State) (s : State) : State :=
  if !s.followsFrames then s
  else
    let own := s.isOwnFrame sender frame
    let s₁ := s.seeAcceptance own
    if sender = s.ownId && !own && (s.sc.station = .listen || s.sc.station = .joining) then
      (s₁.enterHalted .idConflict).settle
    else if s₁.sc.station = .dormant then s₁.settle
    else (handle s₁).settle

/-! ### BEAT (R23, R72, R78 to R80, R86, R87, R119) -/

/-- Whether a BEAT is handed to the Roster Table (R191). -/
def beatInRange (f : BeatFields) : Bool :=
  f.depth.toNat ≤ 8 && f.lowestActive.toNat ≤ 16 && f.activeCount.toNat ≤ 16

/-- Adoption of an EN from the first BEAT flagged MEMBER in LISTEN or RESYNC; a differing EN empties the
queue (R23, R119). -/
def adoptEpoch (f : BeatFields) (s : State) : State :=
  if (s.sc.station = .listen || s.sc.station = .resync) && !f.resync && !s.tb.enAdopted then
    (s.doIf (f.en ≠ s.tb.en) (emptyQueue .resync)).modTb fun tb => { tb with en := f.en, enAdopted := true }
  else s

/-- A RESYNC station hears a group (R15). -/
def hearGroup (f : BeatFields) (s : State) : State :=
  s.doIf (s.sc.station = .resync && !f.resync) (modSc fun sc => { sc with quiet := 0 })

/-- A follower notes the lowest ACTIVE ID of a BEAT flagged MEMBER (R80). -/
def noteGroup (f : BeatFields) (s : State) : State :=
  s.doIf (s.isFollower && !f.resync) (modRt fun rt =>
    { rt with heardGroup := some (rt.heardGroup.elim f.lowestActive.toNat (min f.lowestActive.toNat)) })

/-- The last beat record a BEAT makes (R66). -/
def recordOfBeat (f : BeatFields) : BeatRecord where
  en := f.en
  resync := f.resync
  digest := f.digest
  depth := f.depth.toNat
  localLatched := f.localLatched
  shedLatched := f.shedLatched
  tripLatched := f.tripLatched
  tripHeld := f.tripHeld
  lead := f.lead

/-- The sender's entry is heard and holds the BEAT (R72). -/
def recordBeat (sender : StationId) (f : BeatFields) (s : State) : State :=
  s.modRt fun rt => { rt with
    entries := rt.entries.set sender.val { s.entry sender with heard := true, lastBeat := some (recordOfBeat f) } }

/-- The copy is confirmed, and the join or resync step is tested at once (R6, R7, R16, R86). -/
def confirmCopy (s : State) : State :=
  if s.sc.standing = .held then (s.modSc fun sc => { sc with standing := .confirmed }).joinTest.resyncTest else s

/-- A follower compares a BEAT with its copy (R86, R87). -/
def compareBeat (f : BeatFields) (s : State) : State :=
  if !(s.isFollower && s.hasCopy && s.rt.armed && !f.resync) then s
  else if f.en ≠ s.tb.en then s.missedFrame
  else if f.digest = s.rt.epochDigest then if f.depth = 0 then s.confirmCopy else s
  else if f.depth = 0 then s.missedFrame
  else s

/-- Whether a stranger's group ranks before the own one (R78). -/
def strangerRanksFirst (s : State) (f : BeatFields) : Bool :=
  let low := lowestActive s.rt.entries
  let count := activeCount s.rt.entries
  f.lowestActive.toNat < low
    || (f.lowestActive.toNat = low && count < f.activeCount.toNat)
    || (f.lowestActive.toNat = low && f.activeCount.toNat = count && f.digest < s.rt.epochDigest)

/-- The stranger rule: a member yields to a group that ranks before its own (R78, R79). -/
def strangerRule (sender : StationId) (f : BeatFields) (s : State) : State :=
  s.doIf (s.isMember && !f.resync && !s.admitPending sender && s.strangerRanksFirst f)
    (enterResync (some f.lowestActive.toNat))

/-- A BEAT handed to the Roster Table (R72). The spec leaves open which comes first at one acceptance, the adoption of EN
(R23) or the comparison with the copy (R86, R87): EN is adopted first, so that a kept copy is then judged by its digest. A
BEAT out of range is handed to no block (R191), and leaves the quiet count of RESYNC too, which R15 resets at each accepted
BEAT flagged MEMBER; DESIGN CHOICE, log 13. -/
def handleBeat (sender : StationId) (f : BeatFields) (s : State) : State :=
  if !beatInRange f then s
  else
    let s₁ := ((s.adoptEpoch f).hearGroup f).noteGroup f
    if (s₁.entry sender).isPresent then (s₁.recordBeat sender f).compareBeat f else s₁.strangerRule sender f

/-! ### PROPOSE, OBJECT and TRIP (R59, R96, R162) -/

/-- The queued frames an accepted PROPOSE makes redundant (R59). -/
def withdrawForPropose (sender : StationId) (p : ProposeFields) (s : State) : State :=
  match p.kindCode.toNat with
  | 1 => s.doIf (sender = s.ownId) (dropBodies (·.isAdmit))
  | 2 => s.dropBodies (·.isLossOf (stationOfNibble p.target))
  | _ => s

/-- A PROPOSE handed to the Commit Queue (R59, R96). -/
def handlePropose (sender : StationId) (p : ProposeFields) (s : State) : State :=
  (s.withdrawForPropose sender p).doIf s.processesShared (processPropose sender p)

/-- An OBJECT handed to the Commit Queue (R59, R96). -/
def handleObject (sender : StationId) (o : ObjectFields) (s : State) : State :=
  (s.dropBodies (·.objectsTo { origin := stationOfNibble o.origin, seq := o.seq })).doIf s.processesShared
    (processObject sender o)

/-- A TRIP handed to the Fault Unit (R162). -/
def handleTrip (sender : StationId) (t : TripFields) (s : State) : State :=
  s.doIf s.processesShared (processTrip sender t)

/-! ### ROSTER_QUERY and ROSTER_REPLY (R82, R84) -/

/-- A member owes the asker a reply: queued, already queued, or pending (R57, R82). -/
def handleQuery (asker : StationId) (s : State) : State :=
  if !s.isMember || asker = s.ownId || s.hasQueued (·.repliesTo asker) then s
  else (s.offer (.reply asker)).getD
    (s.modRt fun rt => { rt with pendingReplies := rt.pendingReplies ||| stationBit asker })

/-- The entries a coded roster carries, admitted at the carried EN; none where a nibble is undefined (R84,
R191, R192). -/
def entriesOfCode (roster : BitVec 64) (en : Word) : Option (List RosterEntry) :=
  allStations.mapM fun i => (nibbleEntry (codedNibble roster i)).map fun (state, kind) =>
    { state := state, kind := kind, admittedAt := if state = .absent then none else some en, silent := 0,
      heard := false, lastBeat := none }

/-- Whether the station is asking: in LISTEN without a copy, or in RESYNC before a reply (R84). -/
def asksForRoster (s : State) : Bool :=
  (s.sc.station = .listen && s.rt.copySource = .none)
    || (s.sc.station = .resync && (s.rt.copySource = .none || s.rt.copySource = .old))

/-- Adoption of a reply (R6, R23, R67, R84, R93, R122, R160). -/
def adoptReply (r : ReplyFields) (entries : List RosterEntry) (s : State) : State :=
  let s₁ := ((s.setRoster entries).emptyQueue .resync).modCq fun cq => { cq with duty := r.duty }
  let s₂ := (s₁.setTripSet r.tripSet).modTb fun tb => { tb with en := r.en }
  let s₃ := s₂.modRt fun rt => { rt with
    groupFingerprint := some r.fingerprint, copySource := .reply, armed := false, countdown := 0 }
  (((s₃.modSc fun sc => { sc with standing := .held }).dropBodies (·.isQuery)).remode).adoptTarget

/-- The conditions under which a reply is adopted, beside a defined roster (R84). -/
def qualifies (s : State) (r : ReplyFields) (entries : List RosterEntry) : Bool :=
  stationOfNibble r.asker = s.ownId && s.asksForRoster
    && (s.rt.expectedKey.elim true fun k => k = lowestActive entries)
    && r.digest = digestOfCode r.roster r.duty r.tripSet

/-- A ROSTER_REPLY handed to the Roster Table: other replies to the asker are withdrawn, and a qualifying one is
adopted (R59, R82, R84). -/
def handleReply (r : ReplyFields) (s : State) : State :=
  let asker := stationOfNibble r.asker
  let s₁ := (s.dropBodies (·.repliesTo asker)).modRt fun rt =>
    { rt with pendingReplies := rt.pendingReplies &&& ~~~stationBit asker }
  match entriesOfCode r.roster r.en with
  | some entries => if s₁.qualifies r entries then s₁.adoptReply r entries else s₁
  | none => s₁

end State

/-! ### The commands -/

/-- BEAT_ACCEPTED (R72). -/
def execBeatAccepted (sender : StationId) (f : BeatFields) (s : State) : Host.Outcome State Fault Refusal :=
  .next (s.acceptFrame sender (.beatAccepted sender f) (State.handleBeat sender f))

/-- PROPOSE_ACCEPTED (R97). -/
def execProposeAccepted (sender : StationId) (p : ProposeFields) (s : State) : Host.Outcome State Fault Refusal :=
  .next (s.acceptFrame sender (.proposeAccepted sender p) (State.handlePropose sender p))

/-- OBJECT_ACCEPTED (R102). -/
def execObjectAccepted (sender : StationId) (o : ObjectFields) (s : State) : Host.Outcome State Fault Refusal :=
  .next (s.acceptFrame sender (.objectAccepted sender o) (State.handleObject sender o))

/-- TRIP_ACCEPTED (R162). -/
def execTripAccepted (sender : StationId) (t : TripFields) (s : State) : Host.Outcome State Fault Refusal :=
  .next (s.acceptFrame sender (.tripAccepted sender t) (State.handleTrip sender t))

/-- ROSTER_QUERY_ACCEPTED (R82). -/
def execRosterQueryAccepted (sender : StationId) (s : State) : Host.Outcome State Fault Refusal :=
  .next (s.acceptFrame sender (.rosterQueryAccepted sender) (State.handleQuery sender))

/-- ROSTER_REPLY_ACCEPTED (R84). -/
def execRosterReplyAccepted (sender : StationId) (r : ReplyFields) (s : State) :
    Host.Outcome State Fault Refusal :=
  .next (s.acceptFrame sender (.rosterReplyAccepted sender r) (State.handleReply r))

/-- UNOWNED_FRAME_ACCEPTED: accepted, and handed to no block (R47, R190). -/
def execUnownedFrameAccepted (sender : StationId) (h : FrameHeader) (s : State) :
    Host.Outcome State Fault Refusal :=
  .next (s.acceptFrame sender (.unownedFrameAccepted sender h) id)

end Sys2Proof.Machine
end

