-- ==== Sys2Proof/Machine/Port.lean ====
section
/-! DEFINITION. The Setup Port (09): its commands, the summaries and records they return (10 R196, R197), and
the commands that change the station state (01 R3, R11, R12, R17, R18). -/

namespace Sys2Proof.Machine

/-! ### Code values (R197) -/

def StationState.code : StationState → Byte
  | .setup => 0
  | .listen => 1
  | .joining => 2
  | .member => 3
  | .leaving => 4
  | .dormant => 5
  | .resync => 6
  | .isolated => 7
  | .halted => 8

def Reason.code : Reason → Byte
  | .none => 0
  | .markAbsent => 1
  | .markStuck => 2
  | .markDrive => 3
  | .dataStuck => 4
  | .rxConfined => 5
  | .txConfined => 6
  | .idConflict => 7
  | .fingerprint => 8

def TbState.code : TbState → Byte
  | .free => 0
  | .acquiring => 1
  | .locked => 2
  | .holdover => 3

def OutputMode.code : OutputMode → Byte
  | .off => 0
  | .lowClamp => 1
  | .run => 2

def EntryState.code : EntryState → BitVec 2
  | .absent => 0
  | .active => 1
  | .shed => 2

def ArrivalRefusal.code : ArrivalRefusal → Byte
  | .late => 1
  | .notMember => 2
  | .notAllowed => 3
  | .fingerprint => 4
  | .notTripped => 5
  | .duplicate => 6
  | .full => 7

def VoidReason.code : VoidReason → Byte
  | .resync => 1
  | .isolated => 2
  | .retripped => 3
  | .restart => 4

/-- The bit of a kind: 0 PHASE, 1 OBSERVER. -/
def kindBit : StationKind → BitVec 1
  | .phase => 0
  | .observer => 1

/-- Three bytes of a number, most significant first. -/
def threeBytes (n : Nat) : List Byte := [BitVec.ofNat 8 (n / 65536), BitVec.ofNat 8 (n / 256), BitVec.ofNat 8 n]

/-- Two bytes of a number, most significant first. -/
def twoBytes (n : Nat) : List Byte := [BitVec.ofNat 8 (n / 256), BitVec.ofNat 8 n]

/-! ### The status summary (R184, R197) -/

/-- Byte 9 of the summary: clamp flag, blanking flag, placement state, T present. -/
def summaryFlags (v : Snapshot) : Byte :=
  BitVec.ofBool v.os.clampFlag ++ BitVec.ofBool v.os.blanking ++ BitVec.ofBool v.pu.slewing
    ++ BitVec.ofBool v.pu.target.isSome ++ 0#4

/-- The 24 bytes of READ_STATUS, from the snapshot (R197). -/
def statusSummary (v : Snapshot) : List Byte :=
  [v.sc.station.code, v.sc.reason.code, v.tb.state.code] ++ wordBytes v.tb.en ++ [v.os.mode.code]
    ++ threeBytes v.os.cmp ++ [summaryFlags v] ++ twoBytes v.pu.offset ++ twoBytes (v.pu.target.getD 0)
    ++ [BitVec.ofNat 8 (phaseCount v.rt.entries)] ++ wordBytes v.cq.duty ++ wordBytes v.fu.tripSet
    ++ wordBytes v.fingerprint ++ threeBytes v.events.toNat

/-! ### READ_ROSTER (R90, R197) -/

/-- Bytes 3 to 5 of a roster record. -/
def beatRecordBytes (silent : Nat) : Option BeatRecord → List Byte
  | none => [BitVec.ofNat 4 silent ++ 0#4, 0, 0]
  | some b =>
    let lead : BitVec 10 := BitVec.ofNat 10 (min 1023 b.lead.toNat)
    [BitVec.ofNat 4 silent ++ 1#1 ++ BitVec.ofBool b.resync ++ lead.extractLsb' 8 2, lead.extractLsb' 0 8,
     BitVec.ofNat 4 b.depth ++ BitVec.ofBool b.localLatched ++ BitVec.ofBool b.shedLatched
       ++ BitVec.ofBool b.tripLatched ++ BitVec.ofBool b.tripHeld]

/-- The 6 bytes of one roster record (R197). Where the entry holds no slot the spec gives bits 3 to 0 of byte 0 no value: they
read 0; DESIGN CHOICE, log 36. -/
def rosterRecord (entries : List RosterEntry) (i : StationId) : List Byte :=
  let e := entries.getD i.val .absentEntry
  let slot := slotOf entries i
  (e.state.code ++ kindBit e.kind ++ BitVec.ofBool slot.isSome ++ BitVec.ofNat 4 (slot.getD 0) : Byte)
    :: wordBytes (e.admittedAt.getD 0) ++ beatRecordBytes e.silent e.lastBeat

/-- The stale byte (R196). -/
def staleByte (v : Snapshot) : Byte := if v.stale then 1 else 0

/-- The 97 bytes of READ_ROSTER. -/
def rosterData (v : Snapshot) : List Byte := staleByte v :: allStations.flatMap (rosterRecord v.rt.entries)

/-! ### READ_QUEUE (R121, R197) -/

/-- The target nibble of a queue record: the origin for ADMIT and SHED, 0 for DEMAND (R197). -/
def recordTarget (e : QueueEntry) : BitVec 4 :=
  match e.content with
  | .demand _ => 0
  | _ => nibbleOfStation e.target

/-- The 8 bytes of one queue record (R197). -/
def queueRecord (e : QueueEntry) : List Byte :=
  (BitVec.ofBool (e.phase = .firm) ++ BitVec.ofBool e.isLocal ++ 0#2 ++ nibbleOfStation e.id.origin : Byte)
    :: encodePropose { proposeFieldsOf e.id.seq e.f e.content with target := recordTarget e }

/-- The reference epoch of a snapshot (R92). -/
def snapshotRef (v : Snapshot) : Word := v.cq.frozenRef.getD v.tb.en

/-- The 68 bytes of READ_QUEUE: the records, 0 beyond the count, the count and the reference epoch (R185). -/
def queueData (v : Snapshot) : List Byte :=
  let records := v.cq.entries.flatMap queueRecord
  staleByte v :: (records ++ List.replicate (64 - records.length) 0)
    ++ [BitVec.ofNat 8 v.cq.entries.length] ++ wordBytes (snapshotRef v)

/-! ### READ_FAULTS (R169, R197) -/

/-- The two bytes of one input record. Class, action and clear mode are the written record's in every state, SETUP
included, a class byte above 03h cut to its low two bits; DESIGN CHOICE, log 24. -/
def inputData (r : SetupRecord) (i : InputNo) (x : InputRecord) : List Byte :=
  let mode := recordByte r (inputBase i + 2)
  [BitVec.ofBool x.active ++ BitVec.ofBool x.latched ++ BitVec.ofBool x.ackArmed ++ mode.extractLsb' 6 1
     ++ mode.extractLsb' 0 2 ++ (recordByte r (inputBase i + 1)).extractLsb' 0 2,
   BitVec.ofNat 8 x.activations]

/-- Bytes 8 to 13 of the fault data. -/
def lastTripData : Option LastTrip → List Byte
  | none => List.replicate 6 0
  | some t => [1#1 ++ 0#3 ++ nibbleOfStation t.sender, t.input] ++ wordBytes t.enCarried ++ wordBytes t.enAccepted

/-- The 15 bytes of READ_FAULTS. -/
def faultData (v : Snapshot) : List Byte :=
  staleByte v :: inputData v.record .flt0 v.fu.flt0 ++ inputData v.record .flt1 v.fu.flt1
    ++ inputData v.record .flt2 v.fu.flt2 ++ wordBytes v.fu.tripSet ++ lastTripData v.fu.lastTrip

/-! ### READ_TICKET (R183, R197) -/

/-- Bytes 1 to 3 of a ticket record: kind, and value or target. -/
def ticketValue (own : StationId) : TicketKind → List Byte
  | .demand d => 0x04 :: wordBytes d
  | .clearTrip t => [0x05, 0, BitVec.ofNat 8 t.val]
  | .remove => [0x02, 0x01, BitVec.ofNat 8 own.val]

def TicketState.code : TicketState → Byte
  | .waiting => 0
  | .openState => 1
  | .firm => 2
  | .applied _ => 3
  | .refused _ => 4
  | .objected _ _ => 5
  | .abandoned => 6
  | .voided _ => 7

/-- The reason byte, where there is one (R197). -/
def TicketState.reasonCode : TicketState → Option Byte
  | .refused r => some r.code
  | .objected r _ => some r.code
  | .voided r => some r.code
  | .waiting | .openState | .firm | .applied _ | .abandoned => none

/-- The objector, where there is one (R180). -/
def TicketState.objector : TicketState → Option StationId
  | .objected _ o => some o
  | .waiting | .openState | .firm | .applied _ | .refused _ | .abandoned | .voided _ => none

/-- The no-effect flag (R180). -/
def TicketState.noEffect : TicketState → Bool
  | .applied n => n
  | .waiting | .openState | .firm | .refused _ | .objected _ _ | .abandoned | .voided _ => false

/-- Byte 5 of a ticket record. Where there is no objector the spec gives bits 3 to 0 no value: they read 0; DESIGN CHOICE,
log 36. -/
def ticketFlags (t : Ticket) : Byte :=
  BitVec.ofBool t.state.noEffect ++ BitVec.ofBool t.state.reasonCode.isSome
    ++ BitVec.ofBool t.state.objector.isSome ++ BitVec.ofBool t.f.isSome
    ++ nibbleOfStation (t.state.objector.getD 0)

/-- The 9 bytes of a ticket record (R197). Where there is no reason the spec gives byte 6 no value: it reads 0; DESIGN CHOICE,
log 36. -/
def ticketRecord (own : StationId) (t : Ticket) : List Byte :=
  t.number :: ticketValue own t.kind ++ [t.state.code, ticketFlags t, t.state.reasonCode.getD 0]
    ++ wordBytes (t.f.getD 0)

namespace State

/-! ### The record (R174 to R176) -/

/-- WRITE_SETUP: while unlocked the record is replaced and the fingerprint computed over it (R174, R176). -/
def writeSetup (r : SetupRecord) (s : State) : State :=
  if s.sp.locked then s.respond .refusedLocked []
  else (s.modSp fun p => { p with record := r, fingerprint := fingerprintOf r }).respond .accepted []

/-- READ_SETUP (R174). -/
def readSetup (s : State) : State := s.respond .accepted (recordBytes s.sp.record)

/-! ### START, STOP, RESTART (R177) -/

/-- START (R3, R17, R175, R177). -/
def startCommand (s : State) : State :=
  match s.sc.station with
  | .setup =>
    match validateSetup s.sp.record with
    | some detail => s.respond .refusedInvalid [BitVec.ofNat 8 detail]
    | none => s.startFromSetup.respond .accepted []
  | .dormant => s.startFromDormant.respond .accepted []
  | _ => s.respond .refusedState []

/-- The queue entry that holds the tracked ADMIT while it waits to be accepted (R11). -/
def waitingAdmit (s : State) : Option QueuedFrame :=
  s.bi.queue.find? fun x => x.body.isAdmit && match s.sc.tracked with
    | some id => x.body.isProposeSeq id.seq
    | none => false

/-- The leave-pending flag is set. -/
def setLeavePending (s : State) : State := s.modSc fun sc => { sc with leavePending := true }

/-- STOP with the tracked ADMIT OPEN (R11, R177). A full transmit queue refuses it. The spec leaves open a withdrawal
that is queued already, by the Fault Unit or an earlier STOP: with room it stands for the one asked for and no second is
queued; DESIGN CHOICE, log 17. -/
def stopOpen (e : QueueEntry) (s : State) : State :=
  match s.offer (.object e.id .withdrawn) with
  | some s' =>
    (((if s.withdrawalQueued e.id then s else s').modSc fun sc => { sc with withdrawOwed := false }).setLeavePending).respond
      .accepted []
  | none => s.respond .refusedQueueFull []

/-- STOP with the tracked ADMIT FIRM: a ticket is reserved; a second STOP finds it reserved (R11, log 17). A number that
an unfinished ticket still holds is refused like a full table; DESIGN CHOICE, log 17. -/
def stopFirm (s : State) : State :=
  match s.reservedTicket with
  | some t => s.respond .acceptedTicket [t.number]
  | none =>
    if s.canIssueTicket then
      let n := s.cq.nextSeq
      (((s.issueTicket n .remove true).modCq fun cq => { cq with nextSeq := cq.nextSeq + 1 }).setLeavePending).respond
        .acceptedTicket [n]
    else s.respond .refusedTickets []

/-- STOP in JOINING, by the phase the tracked ADMIT has reached (R11). -/
def stopJoining (s : State) : State :=
  match s.waitingAdmit, s.ownAdmit with
  | some x, _ => if x.inFlight then s.setLeavePending.respond .accepted [] else s.enterDormant.respond .accepted []
  | none, some e => if e.phase = .openPhase then s.stopOpen e else s.stopFirm
  | none, none => s.setLeavePending.respond .accepted []

/-- STOP in MEMBER: the leave by the own REMOVE(LEFT) (R12, R177, R178). A leave that already waits for room has
its reserved ticket (log 17). -/
def stopMember (s : State) : State :=
  let content := ProposalContent.remove s.ownId .left
  match s.reservedTicket with
  | some t =>
    match s.offer (.propose t.number content) with
    | some s' =>
      ((s'.updateTickets (fun u => u.number = t.number) fun u => { u with reserved := false }).becomeLeaving
        t.number).respond .acceptedTicket [t.number]
    | none => s.respond .refusedQueueFull []
  | none =>
    let n := s.cq.nextSeq
    match s.offerPropose content with
    | none => s.respond .refusedQueueFull []
    | some s' =>
      if s.canIssueTicket then ((s'.issueTicket n .remove false).becomeLeaving n).respond .acceptedTicket [n]
      else s.respond .refusedTickets []

/-- STOP (R11, R177). -/
def stopCommand (s : State) : State :=
  match s.sc.station with
  | .listen | .resync => s.enterDormant.respond .accepted []
  | .joining => s.stopJoining
  | .member => s.stopMember
  | _ => s.respond .refusedState []

/-- RESTART (R18, R177). -/
def restartCommand (s : State) : State :=
  if s.sc.station = .isolated then s.restartFromIsolated.respond .accepted [] else s.respond .refusedState []

/-! ### Snapshots (R184, R185) -/

/-- The snapshot of this instant (R184). -/
def takeSnapshot (s : State) : Snapshot where
  stale := false
  sc := s.sc
  tb := s.tb
  bi := s.bi
  rt := s.rt
  cq := s.cq
  pu := s.pu
  os := s.os
  fu := s.fu
  record := s.sp.record
  locked := s.sp.locked
  fingerprint := s.sp.fingerprint
  tickets := s.sp.tickets
  events := s.sp.events
  mask := s.sp.mask

/-- READ_STATUS (R184). -/
def readStatus (s : State) : State :=
  (s.modSp fun p => { p with snapshot := s.takeSnapshot }).respond .accepted (statusSummary s.takeSnapshot)

/-- READ_ROSTER (R185). -/
def readRoster (s : State) : State := s.respond .accepted (rosterData s.sp.snapshot)

/-- READ_QUEUE (R185). -/
def readQueue (s : State) : State := s.respond .accepted (queueData s.sp.snapshot)

/-- READ_FAULTS (R185). -/
def readFaults (s : State) : State := s.respond .accepted (faultData s.sp.snapshot)

/-! ### Proposals and tickets (R178, R179, R183) -/

/-- Conditions 2 to 5 of a SUBMIT, and its effect (R178). -/
def submit (kind : TicketKind) (content : ProposalContent) (s : State) : State :=
  let n := s.cq.nextSeq
  if s.sc.station ≠ .member then s.respond .refusedState []
  else match s.offerPropose content with
    | none => s.respond .refusedQueueFull []
    | some s' =>
      if s.canIssueTicket then (s'.issueTicket n kind false).respond .acceptedTicket [n]
      else s.respond .refusedTickets []

/-- SUBMIT_DEMAND (R178). -/
def submitDemand (duty : Word) (s : State) : State := s.submit (.demand duty) (.demand duty)

/-- SUBMIT_CLEAR_TRIP (R178). -/
def submitClearTrip (target : Byte) (s : State) : State :=
  if 15 < target.toNat then s.respond .refusedArgument []
  else
    let t : StationId := Fin.ofNat 16 target.toNat
    s.submit (.clearTrip t) (.clearTrip t)

/-- The queued PROPOSE of a ticket (R179). -/
def ticketFrame (s : State) (t : Ticket) : Option QueuedFrame :=
  s.bi.queue.find? fun x => match x.body with
    | .propose seq c => seq = t.number && t.kind.fits c
    | _ => false

/-- WITHDRAW of a WAITING ticket (R179, conditions 4 and 5). A reserved ticket of a leave that still waits for
room takes the leave with it (log 17). -/
def withdrawWaiting (t : Ticket) (s : State) : State :=
  match s.ticketFrame t with
  | some x =>
    if x.inFlight then
      s.updateTickets (fun u => u.number = t.number) fun u => { u with withdrawRequest := true }
    else
      (((s.dropBodies fun b => b = x.body).updateTickets (fun u => u.number = t.number) (Ticket.finish .abandoned)).doIf
        (s.sc.station = .leaving && s.tracks { origin := s.ownId, seq := t.number }) returnToMember)
  | none =>
    (s.updateTickets (fun u => u.number = t.number) (Ticket.finish .abandoned)).doIf t.reserved
      (modSc fun sc => { sc with leavePending := false })

/-- WITHDRAW, by the first condition that applies (R179). -/
def withdrawTicket (number : Byte) (s : State) : State :=
  match s.sp.tickets.find? (·.number = number) with
  | none => s.respond .noTicket []
  | some t =>
    if t.state = .firm || !t.unfinished then s.respond .tooLate []
    else if !s.isMember then s.respond .refusedState []
    else if t.state = .waiting then (s.withdrawWaiting t).respond .accepted []
    else
      let id : ProposalId := { origin := s.ownId, seq := number }
      if s.withdrawalQueued id then s.respond .accepted []
      else match s.offer (.object id .withdrawn) with
        | some s' =>
          (s'.updateTickets (fun u => u.number = number) fun u => { u with withdrawQueued := true }).respond .accepted []
        | none => s.respond .refusedQueueFull []

/-- READ_TICKET: a finished ticket is freed by its reading (R183). -/
def readTicket (number : Byte) (s : State) : State :=
  match s.sp.tickets.find? (·.number = number) with
  | none => s.respond .noTicket []
  | some t =>
    (s.doIf (!t.unfinished) (modSp fun p => { p with tickets := p.tickets.filter fun u => u.number ≠ number })).respond
      .accepted (ticketRecord s.ownId t)

/-! ### Faults, events and identification (R157, R172, R187, R188) -/

/-- The input an input byte names; none above 2 (R157). -/
def inputOfByte (b : Byte) : Option InputNo :=
  match b.toNat with
  | 0 => some .flt0
  | 1 => some .flt1
  | 2 => some .flt2
  | _ => none

/-- FAULT_ACK, by the first condition that applies (R157). -/
def faultAck (b : Byte) (s : State) : State :=
  if s.sc.station = .setup then s.respond .refusedState []
  else match inputOfByte b with
    | none => s.respond .noInput []
    | some i =>
      if !(s.inputRecord i).latched then s.respond .notLatched []
      else if !(s.input i).manual then s.respond .notManual []
      else if (s.inputRecord i).active then s.respond .stillActive []
      else (s.modInput i fun r => { r with ackArmed := true }).respond .accepted []

/-- READ_EVENTS (R187). -/
def readEvents (s : State) : State := s.respond .accepted (threeBytes s.sp.events.toNat)

/-- CLEAR_EVENTS (R187). -/
def clearEvents (mask : BitVec 24) (s : State) : State :=
  (s.modSp fun p => { p with events := p.events &&& ~~~mask.setWidth 17 }).respond .accepted []

/-- SET_EVENT_MASK: bits that name no event are ignored (R187). -/
def setEventMask (mask : BitVec 24) (s : State) : State :=
  (s.modSp fun p => { p with mask := mask.setWidth 17 }).respond .accepted []

/-- READ_ID: vendor, part and revision (R188, R196). -/
def readId (s : State) : State := s.respond .accepted [0x0F, 0x3A, 0x04, 0x16, 0x01]

/-- A transaction ended before its arguments were complete (R172). -/
def portAbort (s : State) : State := (s.modSp fun p => { p with transaction := none }).raise .portAbort

/-- Device reset: every block at its device-reset values. The levels of the input pins, the commands that wait
and the count of free values are not the part's own (R1, log 4). -/
def deviceReset (s : State) : State :=
  { State.reset with pins := s.pins, pending := s.pending, freeCount := s.freeCount }

end State

/-! ### The commands -/

/-- DEVICE_RESET (R1). -/
def execDeviceReset (s : State) : Host.Outcome State Fault Refusal := .next s.deviceReset

/-- WRITE_SETUP (R174). -/
def execWriteSetup (r : SetupRecord) (s : State) : Host.Outcome State Fault Refusal := .next (s.writeSetup r)

/-- READ_SETUP (R174). -/
def execReadSetup (s : State) : Host.Outcome State Fault Refusal := .next s.readSetup

/-- START (R3). -/
def execStart (s : State) : Host.Outcome State Fault Refusal := .next s.startCommand

/-- STOP (R11). -/
def execStop (s : State) : Host.Outcome State Fault Refusal := .next s.stopCommand

/-- RESTART (R18). -/
def execRestart (s : State) : Host.Outcome State Fault Refusal := .next s.restartCommand

/-- READ_STATUS (R184). -/
def execReadStatus (s : State) : Host.Outcome State Fault Refusal := .next s.readStatus

/-- READ_ROSTER (R185). -/
def execReadRoster (s : State) : Host.Outcome State Fault Refusal := .next s.readRoster

/-- READ_QUEUE (R185). -/
def execReadQueue (s : State) : Host.Outcome State Fault Refusal := .next s.readQueue

/-- READ_FAULTS (R185). -/
def execReadFaults (s : State) : Host.Outcome State Fault Refusal := .next s.readFaults

/-- SUBMIT_DEMAND (R178). -/
def execSubmitDemand (duty : Word) (s : State) : Host.Outcome State Fault Refusal := .next (s.submitDemand duty)

/-- SUBMIT_CLEAR_TRIP (R178). -/
def execSubmitClearTrip (target : Byte) (s : State) : Host.Outcome State Fault Refusal :=
  .next (s.submitClearTrip target)

/-- WITHDRAW (R179). -/
def execWithdraw (ticket : Byte) (s : State) : Host.Outcome State Fault Refusal :=
  .next (s.withdrawTicket ticket)

/-- READ_TICKET (R183). -/
def execReadTicket (ticket : Byte) (s : State) : Host.Outcome State Fault Refusal := .next (s.readTicket ticket)

/-- FAULT_ACK (R157). -/
def execFaultAck (input : Byte) (s : State) : Host.Outcome State Fault Refusal := .next (s.faultAck input)

/-- READ_EVENTS (R187). -/
def execReadEvents (s : State) : Host.Outcome State Fault Refusal := .next s.readEvents

/-- CLEAR_EVENTS (R187). -/
def execClearEvents (mask : BitVec 24) (s : State) : Host.Outcome State Fault Refusal := .next (s.clearEvents mask)

/-- SET_EVENT_MASK (R187). -/
def execSetEventMask (mask : BitVec 24) (s : State) : Host.Outcome State Fault Refusal := .next (s.setEventMask mask)

/-- READ_ID (R188). -/
def execReadId (s : State) : Host.Outcome State Fault Refusal := .next s.readId

/-- UNKNOWN_COMMAND (R172). -/
def execUnknownCommand (_code : Byte) (s : State) : Host.Outcome State Fault Refusal :=
  .next (s.respond .unknownCommand [])

/-- PORT_ABORT (R172). -/
def execPortAbort (s : State) : Host.Outcome State Fault Refusal := .next s.portAbort

end Sys2Proof.Machine
end

