-- ==== Sys2Proof/Machine/Dispatch.lean ====
section
/-! DEFINITION. The meaning of each command: one arm per constructor of `Instr`. -/

namespace Sys2Proof.Machine

def exec (i : Instr) (s : State) : Host.Outcome State Fault Refusal :=
  match i with
  | .deviceReset => Sys2Proof.Machine.execDeviceReset s
  | .writeSetup record => Sys2Proof.Machine.execWriteSetup record s
  | .readSetup => Sys2Proof.Machine.execReadSetup s
  | .start => Sys2Proof.Machine.execStart s
  | .stop => Sys2Proof.Machine.execStop s
  | .restart => Sys2Proof.Machine.execRestart s
  | .readStatus => Sys2Proof.Machine.execReadStatus s
  | .readRoster => Sys2Proof.Machine.execReadRoster s
  | .readQueue => Sys2Proof.Machine.execReadQueue s
  | .readFaults => Sys2Proof.Machine.execReadFaults s
  | .submitDemand duty => Sys2Proof.Machine.execSubmitDemand duty s
  | .submitClearTrip target => Sys2Proof.Machine.execSubmitClearTrip target s
  | .withdraw ticket => Sys2Proof.Machine.execWithdraw ticket s
  | .readTicket ticket => Sys2Proof.Machine.execReadTicket ticket s
  | .faultAck input => Sys2Proof.Machine.execFaultAck input s
  | .readEvents => Sys2Proof.Machine.execReadEvents s
  | .clearEvents mask => Sys2Proof.Machine.execClearEvents mask s
  | .setEventMask mask => Sys2Proof.Machine.execSetEventMask mask s
  | .readId => Sys2Proof.Machine.execReadId s
  | .unknownCommand code => Sys2Proof.Machine.execUnknownCommand code s
  | .portAbort => Sys2Proof.Machine.execPortAbort s
  | .naturalBoundary => Sys2Proof.Machine.execNaturalBoundary s
  | .markEdge => Sys2Proof.Machine.execMarkEdge s
  | .markRelease => Sys2Proof.Machine.execMarkRelease s
  | .holdoverEntry => Sys2Proof.Machine.execHoldoverEntry s
  | .markDriveEnd allHigh => Sys2Proof.Machine.execMarkDriveEnd allHigh s
  | .localCycleStart => Sys2Proof.Machine.execLocalCycleStart s
  | .compareMatch => Sys2Proof.Machine.execCompareMatch s
  | .deadtimeExpiry => Sys2Proof.Machine.execDeadtimeExpiry s
  | .halfCyclePoint => Sys2Proof.Machine.execHalfCyclePoint s
  | .faultActivation input => Sys2Proof.Machine.execFaultActivation input s
  | .faultRelease input => Sys2Proof.Machine.execFaultRelease input s
  | .lineIdle => Sys2Proof.Machine.execLineIdle s
  | .lineStuck => Sys2Proof.Machine.execLineStuck s
  | .lineStuckRelease => Sys2Proof.Machine.execLineStuckRelease s
  | .transmissionAttempt joining => Sys2Proof.Machine.execTransmissionAttempt joining s
  | .arbitrationLost => Sys2Proof.Machine.execArbitrationLost s
  | .bodyClash => Sys2Proof.Machine.execBodyClash s
  | .driveReadbackFail => Sys2Proof.Machine.execDriveReadbackFail s
  | .formatError => Sys2Proof.Machine.execFormatError s
  | .errorFlagEnd => Sys2Proof.Machine.execErrorFlagEnd s
  | .frameDiscarded reachedSlot mismatch => Sys2Proof.Machine.execFrameDiscarded reachedSlot mismatch s
  | .frameMissed slotSeen => Sys2Proof.Machine.execFrameMissed slotSeen s
  | .beatAccepted sender beat => Sys2Proof.Machine.execBeatAccepted sender beat s
  | .proposeAccepted sender propose => Sys2Proof.Machine.execProposeAccepted sender propose s
  | .objectAccepted sender object => Sys2Proof.Machine.execObjectAccepted sender object s
  | .tripAccepted sender trip => Sys2Proof.Machine.execTripAccepted sender trip s
  | .rosterQueryAccepted sender => Sys2Proof.Machine.execRosterQueryAccepted sender s
  | .rosterReplyAccepted sender reply => Sys2Proof.Machine.execRosterReplyAccepted sender reply s
  | .unownedFrameAccepted sender header => Sys2Proof.Machine.execUnownedFrameAccepted sender header s

end Sys2Proof.Machine
end

