-- ==== Sys2Proof/Machine/Tick.lean ====
section
/-! DEFINITION. One station clock with no command waiting: the edges of the Setup Port, the bits of SBD, and the
count of the PWM clock with everything that falls due at it (log 2). -/

namespace Sys2Proof.Machine

/-- The state an outcome goes on from; every command of this block goes on. -/
def nextOf (o : Host.Outcome State Fault Refusal) (s : State) : State :=
  match o with
  | .next t => t
  | .fault _ => s
  | .refused _ => s

namespace State

/-! ### The Setup Port (R171, R172, log 23) -/

/-- The command byte and argument bytes of a transaction when they are complete (R171). -/
def completeCommand (t : Transaction) : Option (Byte × List Byte) :=
  match bitsBytes 1 t.received with
  | [code] =>
    let n := (commandArgs code).getD 0
    if t.received.length = 8 + 8 * n then some (code, bitsBytes n (t.received.drop 8)) else none
  | _ => none

/-- The evaluation, at the station clock after the last bit: the command runs and its response is fixed (R171). -/
def evaluatePort (s : State) : State :=
  match s.sp.transaction with
  | some t =>
    match t.evaluated, completeCommand t with
    | false, some (code, args) =>
      let s' := nextOf (exec (decodeCommand code args) s) s
      s'.modSp fun p => { p with transaction := some { t with evaluated := true, toSend := bytesBits p.response } }
    | _, _ => s
  | none => s

/-- SCS falls: a transaction begins; SCS rises: it ends, with PORT_ABORT if a command had begun and was not
complete (R171, R172). The last sample of SCS is high after a device reset, so that an SCS held low through the reset begins a
new transaction at the first station clock after it, where R170 and R171 say neither; DESIGN CHOICE, log 23. -/
def portSelect (s : State) : State :=
  if s.sp.scsWas && !s.pins.scs then
    s.modSp fun p => { p with
      transaction := some { received := [], evaluated := false, toSend := [], sdo := false } }
  else if !s.sp.scsWas && s.pins.scs then
    match s.sp.transaction with
    | some t =>
      if !t.evaluated && !t.received.isEmpty then s.portAbort else s.modSp fun p => { p with transaction := none }
    | none => s
  else s

/-- SCK rises: SDI is sampled; SCK falls: SDO changes (R171). -/
def portClock (s : State) : State :=
  if s.pins.scs then s
  else if !s.sp.sckWas && s.pins.sck then
    s.modSp fun p => { p with transaction := p.transaction.map fun t =>
      if t.evaluated then t else { t with received := t.received ++ [s.pins.sdi] } }
  else if s.sp.sckWas && !s.pins.sck then
    s.modSp fun p => { p with transaction := p.transaction.map fun t =>
      { t with sdo := t.toSend.headD false, toSend := t.toSend.tail } }
  else s

/-- The Setup Port at one station clock (R171). Of an edge of SCS and one of SCK sampled at the same station clock the spec
gives no order: the edge of SCS is taken first, so that a rise of SCK sampled with the rise of SCS is no bit, and one sampled
with the fall of SCS is the first; DESIGN CHOICE, log 23. -/
def tickPort (s : State) : State :=
  (s.evaluatePort.portSelect.portClock).modSp fun p => { p with scsWas := s.pins.scs, sckWas := s.pins.sck }

/-! ### SBD (R43 to R46, R51 to R54, log 22) -/

end State

/-- The payload length of a frame whose header has been read (R47). -/
def heardLength (bits : List Bool) : Nat := bitsNat ((bits.drop 12).take 5)

/-- The header has just been read (R47, R190). -/
def headerRead (bits : List Bool) : Bool := bits.length = 17

/-- Every bit before the reject bit has been read (R47). -/
def bodyRead (bits : List Bool) : Bool := 17 ≤ bits.length && bits.length = 33 + 8 * heardLength bits

/-- Whether the received check word is the one computed over the received bits (R51, R189). -/
def checkHolds (bits : List Bool) : Bool :=
  let n := heardLength bits
  (checkWord (bitsBytes (2 + n) (bits.drop 1))).toNat = bitsNat ((bits.drop (17 + 8 * n)).take 16)

/-- The accepted frame that received bits spell (R54, R190). -/
def heardFrame (bits : List Bool) : Instr :=
  match bitsBytes 2 (bits.drop 1) with
  | [b0, b1] =>
    let (sender, h) := headerOfBytes b0 b1
    decodeFrame sender h (bitsBytes (heardLength bits) (bits.drop 17))
  | _ => .unownedFrameAccepted 0 { cls := 0, kind := 0, length := 0 }

namespace State

/-- The receive context changes. -/
def modRx (f : RxContext → RxContext) (s : State) : State := s.modBi fun bi => { bi with rx := bi.rx.map f }

/-- The timers of the line: the runs of equal samples and the clocks since the falling edge, each stopped where no
rule looks further. -/
def lineTimers (dominant : Bool) (s : State) : State :=
  s.modBi fun bi => { bi with
    wasDominant := dominant
    dominantRun := if dominant then min (3 * s.bitTime + 1) (bi.dominantRun + 1) else 0
    recessiveRun := if dominant then 0 else min (12 * s.bitTime) (bi.recessiveRun + 1)
    edgeAge := if dominant && !bi.wasDominant then 0 else min (2 * s.bitTime) (bi.edgeAge + 1) }

/-- The falling edge of a start bit on an idle line: a receive context opens, and a station with a frame joins within
the first quarter bit (R45, R48, R51). R48 does not say which station clock ends that quarter bit: an edge is in it up to
BT/4 + 1 clocks after the one that made the line IDLE; DESIGN CHOICE, log 22. -/
def startBitEdge (idleFor : Nat) (s : State) : State :=
  let s' := s.startBit
  if idleFor ≤ 11 * s.bitTime + s.bitTime / 4 then nextOf (exec (.transmissionAttempt true) s') s' else s'

/-- The falling edge of the reject bit: a voting station decides its vote (R52, R53). -/
def slotEdge (rx : RxContext) (s : State) : State :=
  s.modRx fun _ => { rx with
    taken := 0, dominant := 0, slotAge := some 0, rejecting := s.isMember && (rx.error || s.slotInGuard) }

/-- A falling edge of SBD (R43, R45). -/
def busEdge (idleFor : Nat) (s : State) : State :=
  if s.bi.line = .idle then s.startBitEdge idleFor
  else match s.bi.rx with
    | some rx =>
      if rx.lost then s.modRx fun rx => { rx with sawEdge := true }
      else if rx.slotAge.isSome then s
      else if bodyRead rx.bits then s.slotEdge rx
      else s.modRx fun rx => { rx with taken := 0, dominant := 0 }
    | none => s

/-- The station clocks since the present bit began: a transmitter's own, else since the falling edge (R43). -/
def bitAge (s : State) : Nat := s.bi.attempt.elim s.bi.edgeAge fun a => a.age % s.bitTime

/-- The three sample points of a bit: 7/16, 8/16 and 9/16 (R43). -/
def isSamplePoint (s : State) (age : Nat) : Bool :=
  age = 7 * s.bitTime / 16 || age = 8 * s.bitTime / 16 || age = 9 * s.bitTime / 16

/-- What a transmitter makes of a bit: arbitration over the start bit, class and sender ID, then a readback
(R43, R49, R50). -/
def readBack (index : Nat) (read : Bool) (s : State) : State :=
  match s.bi.attempt.bind fun a => a.bits[index]? with
  | some sent =>
    if sent = read then s
    else if !sent then nextOf (exec .driveReadbackFail s) s
    else if index < 8 then nextOf (exec .arbitrationLost s) s
    else s.modRx fun rx => { rx with mismatch := true }
  | none => s

/-- A bit is decided: it joins the bits read; a length above 20 is a format error; the check word is compared at its
end (R43, R44, R51). -/
def decideBit (rx : RxContext) (read : Bool) (s : State) : State :=
  let bits := rx.bits ++ [read]
  let s₁ := (s.modRx fun _ => { rx with
    bits := bits, taken := 0, dominant := 0, error := bodyRead bits && !checkHolds bits }).readBack rx.bits.length read
  if headerRead bits && 20 < heardLength bits then nextOf (exec .formatError s₁) s₁ else s₁

/-- An own attempt with no receive context at its third sample: its start bit has not fallen on SBD, so that it reads 1 and
the drive has not reached the line, which stays IDLE (R43, R45). -/
def startUnread (s : State) : State :=
  if s.bi.attempt.elim false fun a => 9 * s.bitTime / 16 ≤ a.age then nextOf (exec .driveReadbackFail s) s else s

/-- The samples of a bit of the frame, and of the reject bit (R43, R54). -/
def busSample (dominant : Bool) (s : State) : State :=
  match s.bi.rx with
  | some rx =>
    let age := rx.slotAge.getD s.bitAge
    if rx.lost || !s.isSamplePoint age then s
    else
      let rx := { rx with taken := rx.taken + 1, dominant := rx.dominant + dominant.toNat }
      if rx.taken < 3 then s.modRx fun _ => rx
      else if rx.slotAge.isSome then s.modRx fun _ => { rx with accepted := some (rx.dominant < 2) }
      else if bodyRead rx.bits then s
      else s.decideBit rx (rx.dominant < 2)
  | none => s.startUnread

/-- Format errors while a frame is followed, a clash once the shape of the mismatched bit is seen, and what a follower
that lost the frame sees since (R44, R50, R51). -/
def busErrors (dominant : Bool) (s : State) : State :=
  match s.bi.rx with
  | some rx =>
    let overlong := s.bitTime < s.bi.dominantRun
    if rx.lost then s.modRx fun rx => { rx with sawFlag := rx.sawFlag || overlong }
    else if rx.slotAge.isSome then s
    else if overlong || 3 * s.bitTime / 2 < s.bi.edgeAge then
      (nextOf (exec .formatError s) s).modRx fun rx => { rx with sawFlag := overlong }
    else if rx.mismatch && !dominant then
      nextOf (exec .bodyClash (s.modRx fun rx => { rx with mismatch := false })) s
    else s
  | none => s

/-- The end of the delimiter: the frame is accepted, missed or discarded; a reject vote was counted when it had been
driven (R54, R64). -/
def slotOutcome (rx : RxContext) (s : State) : State :=
  if rx.accepted = some true then
    if !rx.error then nextOf (exec (heardFrame rx.bits) s) s
    else if s.isFollower then nextOf (exec (.frameMissed true) s) s
    else s.seeAcceptance false
  else s.discardFrame false

/-- The vote slot: a reject vote counts when its three quarters of a bit have been driven, the idle count begins with the
first station clock of the delimiter, the outcome falls at the end of the delimiter (R45, R52, R54, R64, log 22). -/
def busSlot (s : State) : State :=
  match s.bi.rx with
  | some rx =>
    match rx.slotAge with
    | some n =>
      if 2 * s.bitTime ≤ n then s.slotOutcome rx
      else
        ((s.doIf (n = s.bitTime) (modBi fun bi => { bi with recessiveRun := min 1 bi.recessiveRun })).modRx fun rx =>
          { rx with slotAge := some (n + 1) }).doIf (rx.rejecting && s.isMember && n = 3 * s.bitTime / 4) countReject
    | none => s
  | none => s

/-- The line becomes IDLE: a follower that had lost a frame learns what became of it (R45, R51). -/
def becomeIdle (s : State) : State :=
  let missed := s.bi.rx.elim false fun rx => rx.lost && !rx.sawFlag && rx.sawEdge
  let s' := nextOf (exec .lineIdle s) s
  if missed then nextOf (exec (.frameMissed false) s') s' else s'

/-- The line states (R45, R46). -/
def busLine (s : State) : State :=
  if s.bi.line = .stuck then if s.bi.wasDominant then s else nextOf (exec .lineStuckRelease s) s
  else if 3 * s.bitTime < s.bi.dominantRun then nextOf (exec .lineStuck s) s
  else if s.bi.line = .busy && s.bi.attempt.isNone && 11 * s.bitTime ≤ s.bi.recessiveRun then s.becomeIdle
  else s

/-- The own attempt goes on by one station clock (R43). -/
def ageAttempt (s : State) : State :=
  s.modBi fun bi => { bi with attempt := bi.attempt.map fun a => { a with age := a.age + 1 } }

/-- An error flag in progress has been driven for one station clock more; the first is the one after the detection
(R44). -/
def driveFlag (s : State) : State :=
  if s.bi.errorFlagLeft = 1 then nextOf (exec .errorFlagEnd s) s
  else s.modBi fun bi => { bi with errorFlagLeft := bi.errorFlagLeft - 1 }

/-- SBD at one station clock, from START on (R42). -/
def tickBus (s : State) : State :=
  let dominant := s.sbdDominant
  let edge := dominant && !s.bi.wasDominant
  let s₁ := (s.driveFlag.lineTimers dominant).doIf edge (busEdge s.bi.recessiveRun)
  let s₂ := ((((s₁.busSample dominant).busErrors dominant).busSlot).busLine).ageAttempt
  if s₂.bi.line = .idle then nextOf (exec (.transmissionAttempt false) s₂) s₂ else s₂

/-! ### One count (log 3) -/

/-- Two events of one count whose order the spec leaves open: where the orders differ, a free value chooses (log 3). -/
def eitherOrder (choice : Nat → Bool) (a b : State → State) (s : State) : State :=
  let ab := b (a s)
  let ba := a (b s)
  if ab = ba then ab else if choice s.freeCount then ab.nextFree else ba.nextFree

/-- B, K and P one count on; P equal to L is a local cycle start that is due (R21, R124). -/
def advanceCounters (s : State) : State :=
  let wraps := s.period ≤ s.tb.b + 1
  (s.modTb fun tb => { tb with
    b := if wraps then 0 else tb.b + 1
    k := if wraps then (if s.epochLen ≤ tb.k + 1 then 0 else tb.k + 1) else tb.k }).modOs fun os =>
    { (OutputStage.nextCount s.deadtime os) with p := os.p + 1 }

/-- Whether P reaches floor(L / 2) at this count; a cycle re-anchored in it was put there and has no such point (R148). -/
def halfDue (s : State) : Bool := s.os.p = s.pu.length / 2 && !s.os.anchored

/-- The local cycle at this count: a start that is due, or the half-cycle point (R124, R148). -/
def cycleAtCount (s : State) : State :=
  if s.pu.length ≤ s.os.p then s.startWithPoint true else s.doIf s.halfDue halfPoint

/-- Whether the local cycle has a point at this count. -/
def pointDue (s : State) : Bool := s.pu.length ≤ s.os.p || s.halfDue

/-- The samples of the three fault inputs (R153). Of two class TRIP inputs that activate on one count the spec gives no
order: FLT0, FLT1 and FLT2 are taken in turn, so that the TRIP slot keeps the highest of their numbers; DESIGN CHOICE,
log 14. -/
def sampleInputs (s : State) : State := allInputs.foldl sampleInput s

/-- The local cycle and the fault samples of this count. -/
def cycleAndSamples (s : State) : State :=
  if s.pointDue then s.eitherOrder Config.samplesBeforeCycle sampleInputs cycleAtCount else s.sampleInputs

/-- The boundary, the local cycle and the fault samples of this count (R21, R138). Where all three fall on one count the
spec leaves the order open (R138, R156, R158): the boundary comes before or after the other two, and never between them;
DESIGN CHOICE, log 3. -/
def countEvents (s : State) : State :=
  if s.pos = 0 then s.eitherOrder Config.boundaryBeforeStart (boundary true) cycleAndSamples else s.cycleAndSamples

/-- The edge filter of SBM, the low run, which only counts sampled low make longer, and the entry to HOLDOVER (R27,
R36, log 20). -/
def filterMark (low : Bool) (s : State) : State :=
  let s₁ :=
    if low = s.tb.levelLow then s.modTb fun tb => { tb with filterRun := 0 }
    else if s.tb.filterRun < 2 then s.modTb fun tb => { tb with filterRun := tb.filterRun + 1 }
    else if low then s.markEdge
    else s.markRelease
  let s₂ := s₁.doIf (low && s.tb.levelLow) (modTb fun tb => { tb with lowRun := min 65 (tb.lowRun + 1) })
  s₂.doIf (64 < s₂.tb.lowRun && s₂.tb.state ≠ .holdover) holdoverEntry

/-- The sample of the own mark drive in this count (R26). -/
def sampleDrive (low : Bool) (s : State) : State :=
  s.doIf (s.tb.driveLeft ≠ 0) (modTb fun tb => { tb with driveReadLow := tb.driveReadLow || low })

/-- A count of the own mark drive is over: it completes when its sixteenth is (R24, R26). -/
def driveCount (s : State) : State :=
  if s.tb.driveLeft = 1 then nextOf (exec (.markDriveEnd (!s.tb.driveReadLow)) s) s
  else s.modTb fun tb => { tb with driveLeft := tb.driveLeft - 1 }

/-- SBM at one count: sampled after the boundary of the count, so that the own mark has its edge there (R24,
R28). -/
def markAtCount (s : State) : State := (s.filterMark s.sbmLow).sampleDrive s.sbmLow

/-- One count of the PWM clock. SBM is sampled last, so that what falls due in this count by counting comes before what an
edge recognised in it brings about: the fault samples before a half-cycle point that its alignment crosses (R156, R158), and
a local cycle start before the boundary that it induces (R138), orders that the spec leaves open; DESIGN CHOICE, log 10. -/
def tickCount (s : State) : State := (s.driveCount.advanceCounters.countEvents.regate).markAtCount

/-- The prescaler: a count every PRESCALE station clocks (00_scope, Clocks and counts). -/
def tickPrescale (s : State) : State :=
  if s.phase + 1 < s.prescale then { s with phase := s.phase + 1 } else ({ s with phase := 0 }).tickCount

/-- One station clock. NRST low is a device reset; in SETUP the Setup Port alone is clocked (R1, R3). -/
def tick (s : State) : State :=
  if !s.pins.nrst then s.deviceReset
  else if s.sc.station = .setup then s.tickPort
  else (s.tickPort.tickBus.tickPrescale).settle

end State
end Sys2Proof.Machine
end

