-- ==== Sys2Proof/Safety.lean ====
section
/-! DEFINITION. What a safe run is: no step of this block stops, its gates are never driven where the rules forbid
it, its tables never outgrow their places, and the state a step leaves is the one the rules derive. -/

namespace Sys2Proof.Machine

/-- A step goes on. -/
def Continues (s : State) : Prop := ∃ t, step s = .next t

/-- GH and GL are not active together (R143), and while the station is no member or a trip is held both are inactive
and GEN is deasserted (R136). -/
def State.OutputsSafe (s : State) : Prop :=
  ¬(s.os.gh = true ∧ s.os.gl = true)
    ∧ ((s.isMember = false ∨ s.fu.tripSet ≠ 0#16) →
        s.os.gh = false ∧ s.os.gl = false ∧ s.genAsserted = false)

/-- GH and GL are not active together (R143), and in OFF neither is active (R137, R139). -/
def OutputStage.GatesOk (os : OutputStage) : Prop :=
  ¬(os.gh = true ∧ os.gl = true) ∧ (os.mode = .off → os.gh = false ∧ os.gl = false)

/-- The output mode is the chosen one unless that is RUN (R137, R138), and the target is the one the roster gives
(R123). -/
def State.Settled (s : State) : Prop :=
  (s.chosenMode ≠ .run → s.os.mode = s.chosenMode) ∧ s.targetNow = s.pu.target

/-- The record is unlocked in SETUP only (R174). -/
def State.LockOk (s : State) : Prop := s.sp.locked = false → s.sc.station = .setup

/-- The sizes of the tables: transmit queue (R56), Commit Queue (R94), ticket table (R180), roster (R66). -/
structure State.Capacities (s : State) : Prop where
  frames : s.bi.queue.length ≤ 6
  entries : s.cq.entries.length ≤ 8
  tickets : s.sp.tickets.length ≤ 4
  roster : s.rt.entries.length = 16

/-! ### Words of the statements -/

/-- The state with another response and nothing else changed. -/
def State.withResponse (s : State) (bytes : List Byte) : State := { s with sp := { s.sp with response := bytes } }

/-- Check `n` of START passes, field by field as R175 and R195 give it. -/
def startCheck (r : SetupRecord) : Nat → Prop
  | 1 => recordNat r 0 ≤ 15
  | 2 => recordNat r 1 ≤ 1
  | 3 => recordNat r 2 = 1 ∨ recordNat r 2 = 2 ∨ recordNat r 2 = 4 ∨ recordNat r 2 = 8
  | 4 => 64 ≤ recordNat2 r 4
  | 5 => 4 ≤ recordNat2 r 6 ∧ recordNat2 r 6 ≤ 255
  | 6 => 32 ≤ recordNat2 r 8 ∧ recordNat2 r 8 ≤ 4095
  | 7 => 2 ≤ recordNat r 3 ∧ recordNat r 3 ≤ 15
  | 8 => 2 ≤ recordNat r 20 ∧ recordNat r 20 ≤ 8
  | 9 => 2 ≤ recordNat r 21 ∧ recordNat r 21 ≤ 15
  | 10 => ∀ b ∈ [23, 26, 29], 1 ≤ recordNat r b ∧ recordNat r b ≤ 15 ∧ recordNat r (b + 1) ≤ 3
            ∧ recordNat r (b + 2) % 4 ≤ 1
  | 11 => 4096 * recordNat2 r 8 ≤ recordNat2 r 6 * recordNat2 r 4 * recordNat r 2
  | 12 => recordNat2 r 10 ≤ 1023 ∧ recordNat2 r 12 ≤ 1023
            ∧ 2 * (recordNat2 r 10 + recordNat2 r 12) < recordNat2 r 4 ∧ 2 * recordNat2 r 10 ≤ recordNat2 r 12
  | 13 => 1 ≤ recordNat2 r 16 ∧ recordNat2 r 16 ≤ recordNat2 r 4 / 8
  | 14 => 1 ≤ recordNat2 r 18 ∧ recordNat2 r 18 ≤ recordNat2 r 4 / 4
  | 15 => recordNat r 1 = 1 → ∀ b ∈ [23, 26, 29], recordNat r (b + 1) ≠ 2 ∧ recordNat r (b + 2) % 4 ≠ 1
  | _ => True

/-- A valid record passes every check (R175). -/
def startValid (r : SetupRecord) : Prop := ∀ n, startCheck r n

/-- The roster, the queue, the committed duty and the trip set, the state the group shares, are kept. -/
structure State.SameShared (s t : State) : Prop where
  entries : t.rt.entries = s.rt.entries
  queue : t.cq.entries = s.cq.entries
  duty : t.cq.duty = s.cq.duty
  tripSet : t.fu.tripSet = s.fu.tripSet

/-- A copy of the group state as a discard, a START or a RESTART leaves it (R4, R6, R87). -/
structure State.NoCopy (t : State) : Prop where
  entries : t.rt.entries = List.replicate 16 .absentEntry
  queue : t.cq.entries = []
  duty : t.cq.duty = 0
  tripSet : t.fu.tripSet = 0
  source : t.rt.copySource = .none
  armed : t.rt.armed = false
  standing : t.sc.standing = .none

/-- The outputs are OFF: neither gate active, GEN deasserted (R137). -/
structure State.OutputsOff (t : State) : Prop where
  mode : t.os.mode = .off
  gh : t.os.gh = false
  gl : t.os.gl = false
  gen : t.genAsserted = false

/-- The counters and EN stand as they stood. -/
structure State.SameCounters (s t : State) : Prop where
  b : t.tb.b = s.tb.b
  k : t.tb.k = s.tb.k
  en : t.tb.en = s.tb.en

/-- No attempt of this station's own is in flight, and the frame it follows is none of its own, so that an acceptance ends
none. -/
def State.NotSending (s : State) : Prop := s.bi.attempt = none ∧ ∀ rx, s.bi.rx = some rx → rx.sent = false

/-- What the acceptance of a frame is to the Bus Interface of a member that sends nothing: the receive context ends
and the reject count is 0 (R54, R64). -/
def State.afterFrame (s : State) : State := { s with bi := { s.bi with rx := none, rejectCount := 0 } }

/-- The accepted frame is the one that this station has in flight (R61, log 12). -/
def State.InFlight (s : State) (sender : StationId) (frame : Instr) : Prop :=
  sender = s.ownId ∧ ∃ a, s.bi.attempt = some a ∧ sameKind a.frame frame = true

/-- What the acceptance of its own frame is to the Bus Interface: the frame leaves the transmit queue or the TRIP slot, a BEAT
replaced in flight stays with an attempt count of 0, and the abandon count is 0 beside what any acceptance does (R54, R57, R61,
R63, R64). -/
def State.busAfterOwn (s : State) : BusInterface :=
  let replaced := s.bi.attempt.elim false (·.beatReplaced)
  { s.bi with
    rx := none, rejectCount := 0, attempt := none, abandonCount := 0
    queue :=
      if replaced then s.bi.queue.map fun y => if y.inFlight then { y with attempts := 0, inFlight := false } else y
      else s.bi.queue.filter fun y => !y.inFlight
    tripSlot :=
      if replaced then s.bi.tripSlot.map fun y => { y with inFlight := false }
      else s.bi.tripSlot.filter fun y => !y.inFlight }

/-- An objection takes effect: the entry is OPEN and the reason fits the entry and the objector (R102). -/
def State.objectionHolds (s : State) (e : QueueEntry) (objector : StationId) (r : ObjectReason) : Prop :=
  e.phase = .openPhase
    ∧ ((r = .dutyLimit ∧ (s.entry objector).holdsSlot = true ∧ ∃ d, e.content = .demand d)
      ∨ (r = .withdrawn ∧ objector = e.id.origin)
      ∨ (r = .stillActive ∧ objector = e.target ∧ ∃ k, e.content = .clearTrip k)
      ∨ (r = .present ∧ objector = e.target ∧ ∃ k, e.content = .remove k .lost))

/-- Two events of one count have both been taken, in one of the two orders, which is open where they differ; a free value is
then used up (log 3). -/
def BothTaken (a b : State → State) (s t : State) : Prop :=
  (b (a s) = a (b s) → t = b (a s)) ∧ (b (a s) ≠ a (b s) → t = (b (a s)).nextFree ∨ t = (a (b s)).nextFree)

/-- The ticket table with every unfinished ticket VOIDED for a reason, and every finished one as it was (R180, R181). -/
def State.ticketsVoided (s : State) (r : VoidReason) : List Ticket :=
  s.sp.tickets.map fun x =>
    if x.unfinished then
      { x with state := .voided r, withdrawRequest := false, withdrawQueued := false, reserved := false }
    else x

/-- What every step keeps. -/
structure State.Inv (s : State) : Prop where
  gates : s.os.GatesOk
  settled : s.Settled
  lock : s.LockOk
  capacities : s.Capacities

end Sys2Proof.Machine
end

