-- ==== Sys2Proof/Certificates/Slice0/Obligations.lean ====
section
/-! DEFINITION. The statements for the provers: what each command does, what it leaves, and what every step keeps. -/

open Sys2Proof Sys2Proof.Machine

/-! ### The step -/

/-- A step takes the command at the front of the queue and runs it on the rest of the queue. On an empty queue it is
one station clock: the model's choice (log 2). No step stops. -/
def Obligations.StepRunsTheFrontCommand : Prop :=
  (∀ (c : Instr) (rest : List Instr) (s : State), s.pending = c :: rest →
    step s = exec c { s with pending := rest })
  ∧ (∀ s : State, s.pending = [] → step s = .next s.tick)
  ∧ ∀ s : State, Continues s

/-- DEVICE_RESET puts every block into its device-reset values (R1, R20, R42, R66, R67, R93, R122, R134, R152, R170,
R195). The input pins, the waiting commands and the count of free values are not the part's own: the model's choice
(logs 3, 4, 25). -/
def Obligations.DeviceResetValues : Prop :=
  ∀ s : State, ∃ t, exec .deviceReset s = .next t
    ∧ t.pins = s.pins ∧ t.pending = s.pending ∧ t.freeCount = s.freeCount
    ∧ t = { State.reset with pins := s.pins, pending := s.pending, freeCount := s.freeCount }
    ∧ t.sc.station = .setup ∧ t.sc.reason = .none ∧ t.sc.quiet = 0 ∧ t.sc.unlocked = 0 ∧ t.sc.joinHoldoff = 0
    ∧ t.sc.standing = .none ∧ t.sc.leavePending = false ∧ t.sc.tracked = none
    ∧ t.tb.b = 0 ∧ t.tb.k = 0 ∧ t.tb.en = 0 ∧ t.tb.state = .free ∧ t.tb.inWindow = 0 ∧ t.tb.lastLead = 0
    ∧ t.tb.markSeen = false ∧ t.tb.enAdopted = false ∧ t.tb.levelLow = false ∧ t.tb.lowRun = 0
    ∧ t.tb.resume = .free ∧ t.tb.holdoverEpochs = 0 ∧ t.tb.driveLeft = 0 ∧ t.tb.failedDrives = 0
    ∧ t.bi.line = .idle ∧ t.bi.rx = none ∧ t.bi.attempt = none ∧ t.bi.queue = [] ∧ t.bi.tripSlot = none
    ∧ t.bi.abandonCount = 0 ∧ t.bi.rejectCount = 0 ∧ t.bi.clashWindow = none ∧ t.bi.stuckEpochs = 0
    ∧ t.rt.entries = List.replicate 16 ⟨.absent, .phase, none, 0, false, none⟩ ∧ t.rt.copySource = .none
    ∧ t.rt.epochDigest = 0 ∧ t.rt.armed = false ∧ t.rt.expectedKey = none ∧ t.rt.groupFingerprint = none
    ∧ t.rt.countdown = 0 ∧ t.rt.pendingReplies = 0 ∧ t.rt.heardGroup = none
    ∧ t.cq.entries = [] ∧ t.cq.duty = 0 ∧ t.cq.nextSeq = 0 ∧ t.cq.pendingObjections = [] ∧ t.refEpoch = t.tb.en
    ∧ t.pu.target = none ∧ t.pu.offset = 0 ∧ t.pu.slewing = false ∧ t.pu.step = 0 ∧ t.pu.length = t.period
    ∧ t.os.p = 0 ∧ t.os.mode = .off ∧ t.os.cmp = 0 ∧ t.os.clampFlag = false ∧ t.os.clampRecord = none
    ∧ t.os.gh = false ∧ t.os.gl = false ∧ t.os.inactiveRun = t.deadtime ∧ t.os.blanking = false
    ∧ (∀ i, t.inputRecord i = ⟨false, 0, false, false, 0⟩) ∧ t.fu.tripSet = 0 ∧ t.fu.lastTrip = none
    ∧ t.fu.shedFrame = none ∧ t.fu.readmitFrame = none
    ∧ recordBytes t.sp.record =
        [0x00, 0x00, 0x01, 0x03, 0x07, 0xD0, 0x00, 0x50, 0x00, 0x20, 0x00, 0x14, 0x00, 0x28, 0xF3, 0x32,
         0x00, 0x10, 0x00, 0x08, 0x03, 0x04, 0x00, 0x03, 0x00, 0x00, 0x03, 0x00, 0x00, 0x03, 0x00, 0x00]
    ∧ t.sp.locked = false ∧ t.sp.fingerprint = fingerprintOf t.sp.record ∧ t.sp.transaction = none
    ∧ t.sp.snapshot.stale = true ∧ t.sp.tickets = [] ∧ t.sp.events = 0 ∧ t.sp.mask = 0
    ∧ (t.pins.nrst = false → t.ghPin = false ∧ t.glPin = false ∧ t.genPin = false ∧ t.attnPin = true)

/-! ### The Setup Port: records, reads, events -/

/-- WRITE_SETUP stores the record and its fingerprint while the record is unlocked and is refused with
REFUSED_LOCKED (11h) once it is locked; READ_SETUP returns the 32 bytes of the record (R174, R176). -/
def Obligations.SetupRecordCommands : Prop :=
  ∀ (r : SetupRecord) (s : State),
    (s.sp.locked = true → exec (.writeSetup r) s = .next (s.withResponse [0x11]))
    ∧ (s.sp.locked = false → exec (.writeSetup r) s
        = .next { s with sp := { s.sp with
            record := r
            fingerprint := checkWord [recordByte r 4, recordByte r 5, recordByte r 2, recordByte r 6, recordByte r 7,
              recordByte r 8, recordByte r 9, recordByte r 3, recordByte r 20, recordByte r 18, recordByte r 19]
            response := [0x00] } })
    ∧ exec .readSetup s = .next (s.withResponse (0x00 :: recordBytes s.sp.record))
    ∧ (recordBytes s.sp.record).length = 32

/-- READ_STATUS copies every block into the snapshot and answers with its summary of 24 bytes; READ_ROSTER, READ_QUEUE
and READ_FAULTS answer from the snapshot alone, the stale byte first, with every field at its position of R197 (R184,
R185, R194, R197). That class, action and clear mode are those of the record in force or as last written, a class byte by
its low two bits, is the model's choice (log 24), and so is the slot 0 of an entry that holds none (log 36). -/
def Obligations.SnapshotCommands : Prop :=
  (∀ s : State, ∃ v : Snapshot,
    v.stale = false ∧ v.sc = s.sc ∧ v.tb = s.tb ∧ v.bi = s.bi ∧ v.rt = s.rt ∧ v.cq = s.cq ∧ v.pu = s.pu ∧ v.os = s.os
    ∧ v.fu = s.fu ∧ v.record = s.sp.record ∧ v.locked = s.sp.locked ∧ v.fingerprint = s.sp.fingerprint
    ∧ v.tickets = s.sp.tickets ∧ v.events = s.sp.events ∧ v.mask = s.sp.mask
    ∧ exec .readStatus s = .next { s with sp := { s.sp with snapshot := v, response := 0x00 :: statusSummary v } })
  ∧ (∀ s : State,
      exec .readRoster s = .next (s.withResponse (0x00 :: rosterData s.sp.snapshot))
      ∧ exec .readQueue s = .next (s.withResponse (0x00 :: queueData s.sp.snapshot))
      ∧ exec .readFaults s = .next (s.withResponse (0x00 :: faultData s.sp.snapshot)))
  ∧ (∀ v : Snapshot, v.cq.entries.length ≤ 8 →
      (statusSummary v).length = 24 ∧ (rosterData v).length = 97 ∧ (queueData v).length = 68
      ∧ (faultData v).length = 15
      ∧ (rosterData v).head? = some (if v.stale then 0x01 else 0x00)
      ∧ (queueData v).head? = some (if v.stale then 0x01 else 0x00)
      ∧ (faultData v).head? = some (if v.stale then 0x01 else 0x00))
  ∧ (∀ v : Snapshot,
      (∀ p ∈ ([(.setup, 0), (.listen, 1), (.joining, 2), (.member, 3), (.leaving, 4), (.dormant, 5), (.resync, 6),
          (.isolated, 7), (.halted, 8)] : List (StationState × Byte)),
        v.sc.station = p.1 → (statusSummary v)[0]? = some p.2)
      ∧ (∀ p ∈ ([(.none, 0), (.markAbsent, 1), (.markStuck, 2), (.markDrive, 3), (.dataStuck, 4), (.rxConfined, 5),
          (.txConfined, 6), (.idConflict, 7), (.fingerprint, 8)] : List (Reason × Byte)),
        v.sc.reason = p.1 → (statusSummary v)[1]? = some p.2)
      ∧ (∀ p ∈ ([(.free, 0), (.acquiring, 1), (.locked, 2), (.holdover, 3)] : List (TbState × Byte)),
        v.tb.state = p.1 → (statusSummary v)[2]? = some p.2)
      ∧ ((statusSummary v).drop 3).take 2 = wordBytes v.tb.en
      ∧ (∀ p ∈ ([(.off, 0), (.lowClamp, 1), (.run, 2)] : List (OutputMode × Byte)),
        v.os.mode = p.1 → (statusSummary v)[5]? = some p.2)
      ∧ (∃ hi mid lo : Byte, ((statusSummary v).drop 6).take 3 = [hi, mid, lo]
          ∧ hi ++ mid ++ lo = BitVec.ofNat 24 v.os.cmp)
      ∧ (∃ b : Byte, (statusSummary v)[9]? = some b ∧ b.getLsbD 7 = v.os.clampFlag ∧ b.getLsbD 6 = v.os.blanking
          ∧ b.getLsbD 5 = v.pu.slewing ∧ b.getLsbD 4 = v.pu.target.isSome)
      ∧ ((statusSummary v).drop 10).take 2 = wordBytes (BitVec.ofNat 16 v.pu.offset)
      ∧ ((statusSummary v).drop 12).take 2 = wordBytes (BitVec.ofNat 16 (v.pu.target.getD 0))
      ∧ (statusSummary v)[14]? = some (BitVec.ofNat 8 (phaseCount v.rt.entries))
      ∧ ((statusSummary v).drop 15).take 2 = wordBytes v.cq.duty
      ∧ ((statusSummary v).drop 17).take 2 = wordBytes v.fu.tripSet
      ∧ ((statusSummary v).drop 19).take 2 = wordBytes v.fingerprint
      ∧ ∃ hi mid lo : Byte, (statusSummary v).drop 21 = [hi, mid, lo] ∧ hi ++ mid ++ lo = v.events.setWidth 24)
  ∧ (∀ (v : Snapshot) (i : StationId), let e := v.rt.entries.getD i.val RosterEntry.absentEntry
      ∃ b0 b3 b4 b5 : Byte,
        ((rosterData v).drop (1 + 6 * i.val)).take 6 = b0 :: wordBytes (e.admittedAt.getD 0) ++ [b3, b4, b5]
        ∧ b0.extractLsb' 6 2 = (match e.state with | .absent => 0#2 | .active => 1#2 | .shed => 2#2)
        ∧ b0.getLsbD 5 = decide (e.kind = .observer) ∧ b0.getLsbD 4 = (slotOf v.rt.entries i).isSome
        ∧ b0.extractLsb' 0 4 = BitVec.ofNat 4 ((slotOf v.rt.entries i).getD 0)
        ∧ b3.extractLsb' 4 4 = BitVec.ofNat 4 e.silent ∧ b3.getLsbD 3 = e.lastBeat.isSome
        ∧ (e.lastBeat = none → b3.extractLsb' 0 3 = 0#3 ∧ b4 = 0x00 ∧ b5 = 0x00)
        ∧ (∀ r, e.lastBeat = some r → b3.getLsbD 2 = r.resync
            ∧ b3.extractLsb' 0 2 ++ b4 = BitVec.ofNat 10 (min 1023 r.lead.toNat)
            ∧ b5.extractLsb' 4 4 = BitVec.ofNat 4 r.depth ∧ b5.getLsbD 3 = r.localLatched
            ∧ b5.getLsbD 2 = r.shedLatched ∧ b5.getLsbD 1 = r.tripLatched ∧ b5.getLsbD 0 = r.tripHeld))
  ∧ (∀ (v : Snapshot) (n : Nat) (e : QueueEntry), v.cq.entries.length ≤ 8 → v.cq.entries[n]? = some e →
      ∃ b0 b1 : Byte, ∃ value : List Byte,
        ((queueData v).drop (1 + 8 * n)).take 8 = b0 :: b1 :: e.id.seq :: wordBytes e.f ++ value
        ∧ b0.getLsbD 7 = decide (e.phase = .firm) ∧ b0.getLsbD 6 = e.isLocal
        ∧ b0.extractLsb' 0 4 = nibbleOfStation e.id.origin
        ∧ (∀ fp kind, e.content = .admission fp kind → b1 = 0x1#4 ++ nibbleOfStation e.id.origin
            ∧ value = wordBytes fp ++ [match kind with | .phase => 0x00 | .observer => 0x01])
        ∧ (∀ target reason, e.content = .remove target reason → b1 = 0x2#4 ++ nibbleOfStation target
            ∧ value = [match reason with | .left => 0x01 | .lost => 0x02, 0x00, 0x00])
        ∧ (e.content = .shed → b1 = 0x3#4 ++ nibbleOfStation e.id.origin ∧ value = [0x00, 0x00, 0x00])
        ∧ (∀ d, e.content = .demand d → b1 = 0x40 ∧ value = wordBytes d ++ [0x00])
        ∧ (∀ target, e.content = .clearTrip target →
            b1 = 0x5#4 ++ nibbleOfStation target ∧ value = [0x00, 0x00, 0x00]))
  ∧ (∀ v : Snapshot, v.cq.entries.length ≤ 8 →
      (queueData v)[65]? = some (BitVec.ofNat 8 v.cq.entries.length)
      ∧ (queueData v).drop 66 = wordBytes (v.cq.frozenRef.getD v.tb.en))
  ∧ (∀ v : Snapshot,
      (∀ row ∈ [(1, 24, v.fu.flt0), (3, 27, v.fu.flt1), (5, 30, v.fu.flt2)],
        let (at_, field, record) := row
        ∃ b : Byte, (faultData v)[at_]? = some b ∧ b.getLsbD 7 = record.active ∧ b.getLsbD 6 = record.latched
          ∧ b.getLsbD 5 = record.ackArmed ∧ b.getLsbD 4 = (recordByte v.record (field + 1)).getLsbD 6
          ∧ b.extractLsb' 2 2 = (recordByte v.record (field + 1)).extractLsb' 0 2
          ∧ b.extractLsb' 0 2 = (recordByte v.record field).extractLsb' 0 2
          ∧ (faultData v)[at_ + 1]? = some (BitVec.ofNat 8 record.activations))
      ∧ ((faultData v).drop 7).take 2 = wordBytes v.fu.tripSet
      ∧ (v.fu.lastTrip = none → (faultData v).drop 9 = List.replicate 6 0)
      ∧ ∀ l, v.fu.lastTrip = some l → (faultData v).drop 9
          = (0x80 ||| (nibbleOfStation l.sender).setWidth 8) :: l.input :: wordBytes l.enCarried ++ wordBytes l.enAccepted)
  ∧ State.reset.sp.snapshot.stale = true
  ∧ rosterData State.reset.sp.snapshot = 0x01 :: List.replicate 96 0x00
  ∧ queueData State.reset.sp.snapshot = 0x01 :: List.replicate 67 0x00
  ∧ faultData State.reset.sp.snapshot = 0x01 :: List.replicate 14 0x00

/-- READ_ID answers ACCEPTED and the five identification bytes in every state and changes nothing else (R188). -/
def Obligations.ReadIdentification : Prop :=
  ∀ s : State, exec .readId s = .next (s.withResponse [0x00, 0x0F, 0x3A, 0x04, 0x16, 0x01])

/-- READ_EVENTS, CLEAR_EVENTS and SET_EVENT_MASK act on the event set and the mask alone; ATTN follows both (R187). -/
def Obligations.EventCommands : Prop :=
  (∀ s : State, ∃ hi mid lo : Byte, hi ++ mid ++ lo = s.sp.events.setWidth 24
    ∧ exec .readEvents s = .next (s.withResponse [0x00, hi, mid, lo]))
  ∧ (∀ (m : BitVec 24) (s : State), ∃ ev : BitVec 17,
      (∀ i, i < 17 → ev.getLsbD i = (s.sp.events.getLsbD i && !m.getLsbD i))
      ∧ exec (.clearEvents m) s = .next { s with sp := { s.sp with events := ev, response := [0x00] } })
  ∧ (∀ (m : BitVec 24) (s : State), ∃ mask : BitVec 17, (∀ i, i < 17 → mask.getLsbD i = m.getLsbD i)
      ∧ exec (.setEventMask m) s = .next { s with sp := { s.sp with mask := mask, response := [0x00] } })
  ∧ (∀ (m : BitVec 24) (e : Event) (s : State),
      ((s.clearEvents m).raise e).hasEvent e = true
      ∧ (m.getLsbD e.index = true → ((s.raise e).clearEvents m).hasEvent e = false))
  ∧ (∀ s : State, s.attn = true ↔ ∃ e : Event, s.hasEvent e = true ∧ s.sp.mask.getLsbD e.index = true)
  ∧ (∀ s : State, (s.pins.nrst = true → s.attnPin = !s.attn) ∧ (s.pins.nrst = false → s.attnPin = true))
  ∧ State.reset.sp.mask = 0

/-- A transaction that ends before its arguments are complete is discarded with PORT_ABORT, one without a rising edge
of SCK ends without an event, and a byte that names no command answers UNKNOWN_COMMAND (7Fh) and changes nothing
(R172). -/
def Obligations.AbortedAndUnknownCommands : Prop :=
  (∀ s : State, exec .portAbort s
    = .next { s with sp := { s.sp with transaction := none, events := s.sp.events ||| Event.portAbort.bit } })
  ∧ (∀ (x : Transaction) (s : State), s.sp.scsWas = false → s.pins.scs = true → s.sp.transaction = some x →
      x.evaluated = false → x.received ≠ [] → exec .portAbort s = .next s.portSelect)
  ∧ (∀ (x : Transaction) (s : State), s.sp.scsWas = false → s.pins.scs = true → s.sp.transaction = some x →
      x.received = [] → s.portSelect = { s with sp := { s.sp with transaction := none } })
  ∧ (∀ (code : Byte) (s : State), exec (.unknownCommand code) s = .next (s.withResponse [0x7F]))
  ∧ ∀ code : Byte, commandArgs code = none →
      decodeCommand code [] = .unknownCommand code
      ∧ ∀ x : Transaction, x.received = byteBits code → State.completeCommand x = some (code, [])

/-! ### The Setup Port: START, STOP, RESTART -/

/-- START in SETUP is refused by the first check of R175 that fails, with its order number, and is accepted when every
check passes; the defaults pass, and a PERIOD of 1000 fails check 11 unless EPOCH_LEN is 132 (R175). -/
def Obligations.StartChecks : Prop :=
  (∀ (s : State) (n : Nat), s.sc.station = .setup → ¬ startCheck s.sp.record n → (∀ m < n, startCheck s.sp.record m) →
    exec .start s = .next (s.withResponse [0x12, BitVec.ofNat 8 n]))
  ∧ (∀ s : State, s.sc.station = .setup → startValid s.sp.record →
      ∃ t, exec .start s = .next t ∧ t.sc.station = .listen ∧ t.sp.locked = true ∧ t.sp.response = [0x00]
        ∧ t.sp.record = s.sp.record)
  ∧ startValid State.reset.sp.record
  ∧ (∀ s : State, s.sc.station = .setup →
      s.sp.record = 0x00000103_03E8_0050_0020_0014_0028_F332_0010_0008_03_04_00_030000_030000_030000#256 →
      exec .start s = .next (s.withResponse [0x12, 11]))
  ∧ startCheck 0x00000103_03E8_0084_0020_0014_0028_F332_0010_0008_03_04_00_030000_030000_030000#256 11

/-- What START does to each block in SETUP with a valid record (R3, R20, R42, R45, R67, R93, R122, R124, R134, R152,
R170, R176). That the SBD line is BUSY is the model's choice: R45 takes the state from the line and makes it IDLE after 11
recessive bits only (log 22). -/
def Obligations.StartFromSetup : Prop :=
  ∀ s : State, s.sc.station = .setup → startValid s.sp.record →
    ∃ t, exec .start s = .next t
      ∧ t.sc.station = .listen ∧ t.sc.reason = .none ∧ t.sc.quiet = 0 ∧ t.sc.unlocked = 0 ∧ t.sc.joinHoldoff = 0
      ∧ t.sc.standing = .none ∧ t.sc.leavePending = false ∧ t.sc.tracked = none
      ∧ t.tb = TimeBase.reset ∧ t.NoCopy ∧ t.OutputsOff
      ∧ t.bi.line = .busy ∧ t.bi.queue = [] ∧ t.bi.tripSlot = none ∧ t.bi.attempt = none
      ∧ t.cq.nextSeq = s.cq.nextSeq
      ∧ t.pu = ⟨none, 0, false, 0, s.period⟩
      ∧ t.os.p = 0 ∧ t.os.cmp = 0 ∧ t.os.inactiveRun = s.deadtime ∧ t.os.blanking = false
      ∧ t.fu = FaultUnit.reset
      ∧ t.sp.record = s.sp.record ∧ t.sp.locked = true ∧ t.sp.fingerprint = fingerprintOf s.sp.record
      ∧ (s.sp.tickets = [] → t.sp.tickets = []) ∧ t.sp.mask = s.sp.mask ∧ t.hasEvent .state = true

/-- START in DORMANT goes to LISTEN without a copy and voids what is unfinished; in any other state but SETUP it is
refused with REFUSED_STATE (10h) and changes nothing (R3, R4, R17, R177). -/
def Obligations.StartElsewhere : Prop :=
  (∀ s : State, s.sc.station = .dormant →
    ∃ t, exec .start s = .next t ∧ t.sc.station = .listen ∧ t.sp.response = [0x00] ∧ t.NoCopy ∧ (s.os.GatesOk → t.OutputsOff)
      ∧ t.sc.joinHoldoff = 0 ∧ t.sc.leavePending = false ∧ t.sc.tracked = none ∧ t.SameCounters s
      ∧ t.tb.state = s.tb.state ∧ t.tb.enAdopted = false ∧ t.sp.record = s.sp.record
      ∧ (∀ i, t.inputRecord i = s.inputRecord i) ∧ t.sp.tickets = s.ticketsVoided .restart
      ∧ ((∃ x ∈ s.sp.tickets, x.unfinished = true) → t.hasEvent .ticket = true))
  ∧ ∀ s : State, s.sc.station ≠ .setup → s.sc.station ≠ .dormant →
      exec .start s = .next (s.withResponse [0x10])

/-- STOP outside the group: REFUSED_STATE in SETUP, DORMANT, ISOLATED, HALTED and LEAVING; to DORMANT from LISTEN and
RESYNC, with the shared state frozen, the transmit queue and the TRIP slot empty and the outputs OFF (R11, R17,
R177). -/
def Obligations.StopOutsideTheGroup : Prop :=
  (∀ s : State, s.sc.station ∈ [.setup, .dormant, .isolated, .halted, .leaving] →
    exec .stop s = .next (s.withResponse [0x10]))
  ∧ ∀ s : State, s.sc.station ∈ [.listen, .resync] →
      ∃ t, exec .stop s = .next t ∧ t.sc.station = .dormant ∧ t.sp.response = [0x00] ∧ t.SameShared s ∧ (s.os.GatesOk → t.OutputsOff)
        ∧ t.bi.queue = [] ∧ t.bi.tripSlot = none ∧ t.bi.attempt = none ∧ t.SameCounters s ∧ t.tb.driveLeft = 0
        ∧ t.refEpoch = s.tb.en ∧ (∀ i, t.inputRecord i = s.inputRecord i) ∧ t.hasEvent .state = true

/-- STOP in MEMBER proposes the own removal and goes to LEAVING with a new ticket; without room it is refused with
REFUSED_QUEUE_FULL (13h), without a ticket with REFUSED_TICKETS (14h), and nothing changes. A MEMBER with the leave-pending
flag set does the same without a command, with the reserved ticket where there is one, and waits while there is no room
(R12, R177, R178). A ticket that a waiting leave has reserved, met by a STOP, is log 17's case, and so is a leave without a
ticket because an unfinished one holds its number. -/
def Obligations.StopInMember : Prop :=
  (∀ s : State, s.sc.station = .member → s.reservedTicket = none → 6 ≤ s.bi.queue.length →
    exec .stop s = .next (s.withResponse [0x13]))
  ∧ (∀ s : State, s.sc.station = .member → s.reservedTicket = none → s.bi.queue.length < 6 → s.canIssueTicket = false →
      exec .stop s = .next (s.withResponse [0x14]))
  ∧ (∀ s : State, s.sc.station = .member → s.reservedTicket = none → s.bi.queue.length < 6 → s.canIssueTicket = true →
      ∃ t, exec .stop s = .next t ∧ t.sc.station = .leaving ∧ t.sp.response = [0x01, s.cq.nextSeq]
        ∧ t.sc.tracked = some ⟨s.ownId, s.cq.nextSeq⟩ ∧ t.sc.leavePending = false
        ∧ ⟨.propose s.cq.nextSeq (.remove s.ownId .left), 0, false⟩ ∈ t.bi.queue
        ∧ t.cq.nextSeq = s.cq.nextSeq + 1
        ∧ ⟨s.cq.nextSeq, .remove, .waiting, none, false, false, false⟩ ∈ t.sp.tickets
        ∧ t.os = s.os ∧ t.pu = s.pu ∧ t.SameShared s ∧ t.SameCounters s ∧ t.tb.driveLeft = s.tb.driveLeft)
  ∧ (∀ s : State, (s.sc.station ≠ .member ∨ s.sc.leavePending = false ∨ 6 ≤ s.bi.queue.length) → s.leaveIfPending = s)
  ∧ ∀ s : State, s.sc.station = .member → s.sc.leavePending = true → s.bi.queue.length < 6 →
      let t := s.leaveIfPending
      t.sc.station = .leaving ∧ t.sc.leavePending = false ∧ t.hasEvent .state = true
      ∧ t.os = s.os ∧ t.pu = s.pu ∧ t.SameShared s ∧ t.SameCounters s ∧ t.tb.driveLeft = s.tb.driveLeft
      ∧ (s.reservedTicket = none →
          t.sc.tracked = some ⟨s.ownId, s.cq.nextSeq⟩ ∧ t.cq.nextSeq = s.cq.nextSeq + 1
          ∧ ⟨.propose s.cq.nextSeq (.remove s.ownId .left), 0, false⟩ ∈ t.bi.queue
          ∧ (s.canIssueTicket = true →
              ⟨s.cq.nextSeq, .remove, .waiting, none, false, false, false⟩ ∈ t.sp.tickets)
          ∧ (s.canIssueTicket = false → t.sp.tickets = s.sp.tickets))
      ∧ ∀ r, s.reservedTicket = some r →
          t.sc.tracked = some ⟨s.ownId, r.number⟩ ∧ t.cq.nextSeq = s.cq.nextSeq
          ∧ ⟨.propose r.number (.remove s.ownId .left), 0, false⟩ ∈ t.bi.queue
          ∧ { r with reserved := false } ∈ t.sp.tickets

/-- STOP in JOINING by the phase of the tracked ADMIT: waiting, in flight, OPEN or FIRM (R11, R177). With the ADMIT OPEN a
full transmit queue refuses it; that a withdrawal which is queued already stands for the one asked for is the model's
choice (log 17). With the ADMIT FIRM four unfinished tickets refuse it; that an unfinished ticket which holds the next
sequence number refuses it too is the model's choice (log 17). -/
def Obligations.StopInJoining : Prop :=
  (∀ (x : QueuedFrame) (s : State), s.sc.station = .joining → s.waitingAdmit = some x → x.inFlight = false →
    ∃ t, exec .stop s = .next t ∧ t.sc.station = .dormant ∧ t.sp.response = [0x00] ∧ t.bi.queue = [] ∧ t.SameShared s
      ∧ (s.os.GatesOk → t.OutputsOff))
  ∧ (∀ (x : QueuedFrame) (s : State), s.sc.station = .joining → s.waitingAdmit = some x → x.inFlight = true →
      exec .stop s = .next { s with
        sc := { s.sc with leavePending := true }, sp := { s.sp with response := [0x00] } })
  ∧ (∀ (e : QueueEntry) (s : State), s.sc.station = .joining → s.waitingAdmit = none → s.ownAdmit = some e →
      e.phase = .openPhase →
      (6 ≤ s.bi.queue.length → exec .stop s = .next (s.withResponse [0x13]))
      ∧ (s.bi.queue.length < 6 → s.withdrawalQueued e.id = true → exec .stop s = .next { s with
          sc := { s.sc with leavePending := true, withdrawOwed := false }, sp := { s.sp with response := [0x00] } })
      ∧ (s.bi.queue.length < 6 → s.withdrawalQueued e.id = false →
          ∃ t, exec .stop s = .next t ∧ t.sc.station = .joining ∧ t.sc.leavePending = true
          ∧ t.sp.response = [0x00] ∧ t.bi.queue = insertFrame ⟨.object e.id .withdrawn, 0, false⟩ s.bi.queue
          ∧ t.sp.tickets = s.sp.tickets ∧ t.SameShared s ∧ t.tb = s.tb ∧ t.os = s.os ∧ t.pu = s.pu))
  ∧ ∀ (e : QueueEntry) (s : State), s.sc.station = .joining → s.waitingAdmit = none → s.ownAdmit = some e →
      e.phase = .firm → s.reservedTicket = none →
      (s.canIssueTicket = false → exec .stop s = .next (s.withResponse [0x14]))
      ∧ (s.canIssueTicket = true → ∃ t, exec .stop s = .next t ∧ t.sc.station = .joining ∧ t.sc.leavePending = true
          ∧ t.sp.response = [0x01, s.cq.nextSeq] ∧ t.cq.nextSeq = s.cq.nextSeq + 1
          ∧ ⟨s.cq.nextSeq, .remove, .waiting, none, false, false, true⟩ ∈ t.sp.tickets
          ∧ t.bi = s.bi ∧ t.SameShared s ∧ t.tb = s.tb ∧ t.os = s.os ∧ t.pu = s.pu)

/-- RESTART in ISOLATED goes to LISTEN without a copy; in any other state it is refused with REFUSED_STATE (R18,
R177). -/
def Obligations.Restart : Prop :=
  (∀ s : State, s.sc.station = .isolated →
    ∃ t, exec .restart s = .next t ∧ t.sc.station = .listen ∧ t.sc.reason = .none ∧ t.sp.response = [0x00]
      ∧ t.NoCopy ∧ (s.os.GatesOk → t.OutputsOff) ∧ t.SameCounters s ∧ t.tb.lastLead = s.tb.lastLead
      ∧ ((s.tb.levelLow = false ∨ s.tb.lowRun ≤ 64) → t.tb.state = .free)
      ∧ ((s.tb.levelLow = true ∧ 64 < s.tb.lowRun) → t.tb.state = .holdover ∧ t.tb.resume = .free)
      ∧ t.fu = FaultUnit.reset ∧ t.bi.queue = [] ∧ t.pu.offset = s.pu.offset ∧ t.sp.record = s.sp.record
      ∧ s.sp.events &&& t.sp.events = s.sp.events ∧ t.sp.tickets = s.ticketsVoided .restart
      ∧ ((∃ x ∈ s.sp.tickets, x.unfinished = true) → t.hasEvent .ticket = true))
  ∧ ∀ s : State, s.sc.station ≠ .isolated → exec .restart s = .next (s.withResponse [0x10])

/-! ### The Setup Port: proposals, tickets, acknowledgements -/

/-- SUBMIT_DEMAND and SUBMIT_CLEAR_TRIP by the first condition that applies; accepted, they queue the PROPOSE, use the
next sequence number and issue its ticket. The ticket's place: a finished ticket of its number is freed first, then a free
record is taken, else that of the oldest finished ticket. A frame's place: behind every queued frame of its class or a lower
one (R47, R56, R178, R180). -/
def Obligations.Submit : Prop :=
  (∀ (b : Byte) (s : State), 15 < b.toNat → exec (.submitClearTrip b) s = .next (s.withResponse [0x15]))
  ∧ ∀ (s : State) (c : Instr) (k : TicketKind) (d : ProposalContent),
      ((∃ duty, c = .submitDemand duty ∧ k = .demand duty ∧ d = .demand duty)
        ∨ ∃ b : Byte, b.toNat ≤ 15 ∧ c = .submitClearTrip b ∧ k = .clearTrip (Fin.ofNat 16 b.toNat)
            ∧ d = .clearTrip (Fin.ofNat 16 b.toNat)) →
      (s.sc.station ≠ .member → exec c s = .next (s.withResponse [0x10]))
      ∧ (s.sc.station = .member → 6 ≤ s.bi.queue.length → exec c s = .next (s.withResponse [0x13]))
      ∧ (s.sc.station = .member → s.bi.queue.length < 6 →
          (4 ≤ (s.sp.tickets.filter (·.unfinished)).length
            ∨ ∃ x ∈ s.sp.tickets, x.unfinished = true ∧ x.number = s.cq.nextSeq) →
          exec c s = .next (s.withResponse [0x14]))
      ∧ (s.sc.station = .member → s.bi.queue.length < 6 → (s.sp.tickets.filter (·.unfinished)).length < 4 →
          (∀ x ∈ s.sp.tickets, x.unfinished = true → x.number ≠ s.cq.nextSeq) →
          ∃ t, exec c s = .next t ∧ t.sp.response = [0x01, s.cq.nextSeq]
            ∧ t.bi = { s.bi with queue := insertFrame ⟨.propose s.cq.nextSeq d, 0, false⟩ s.bi.queue }
            ∧ t.cq = { s.cq with nextSeq := s.cq.nextSeq + 1 }
            ∧ t.sp.tickets = issueInto ⟨s.cq.nextSeq, k, .waiting, none, false, false, false⟩ s.sp.tickets
            ∧ t.sp.events = s.sp.events ∧ t.sp.record = s.sp.record ∧ t.sp.snapshot = s.sp.snapshot
            ∧ t.sc = s.sc ∧ t.tb = s.tb ∧ t.rt = s.rt ∧ t.pu = s.pu ∧ t.os = s.os
            ∧ (∀ i, t.inputRecord i = s.inputRecord i) ∧ t.fu.tripSet = s.fu.tripSet ∧ t.fu.lastTrip = s.fu.lastTrip)
      ∧ (∀ (x : Ticket) (table : List Ticket),
          let kept := table.filter fun u => u.unfinished || u.number ≠ x.number
          (kept.length < 4 → issueInto x table = kept ++ [x])
          ∧ ∀ (before after : List Ticket) (u : Ticket), 4 ≤ kept.length → kept = before ++ u :: after →
              u.unfinished = false → (∀ y ∈ before, y.unfinished = true) → issueInto x table = before ++ after ++ [x])
      ∧ (∀ (x : QueuedFrame) (queue : List QueuedFrame),
          (∃ before after, queue = before ++ after ∧ insertFrame x queue = before ++ x :: after
            ∧ (∀ y ∈ before, y.body.cls ≤ x.body.cls) ∧ ∀ y, after.head? = some y → x.body.cls < y.body.cls)
          ∧ (queue.Pairwise (fun y z => y.body.cls ≤ z.body.cls) →
              (insertFrame x queue).Pairwise fun y z => y.body.cls ≤ z.body.cls))
      ∧ ∀ (f : BeatFields) (id : ProposalId) (r : ObjectReason) (seq : Byte) (content : ProposalContent) (i : StationId),
          (QueuedBody.beat f).cls = 1 ∧ (QueuedBody.object id r).cls = 2 ∧ (QueuedBody.propose seq content).cls = 3
          ∧ (QueuedBody.reply i).cls = 4 ∧ QueuedBody.query.cls = 5

/-- WITHDRAW by the eight conditions of R179, in MEMBER and LEAVING alike. The withdrawal of the REMOVE(LEFT) by which a
station is LEAVING takes it back to MEMBER (R13). A ticket reserved without a frame is log 17's case. -/
def Obligations.Withdraw : Prop :=
  ∀ (n : Byte) (s : State),
    ((∀ x ∈ s.sp.tickets, x.number ≠ n) → exec (.withdraw n) s = .next (s.withResponse [0x21]))
    ∧ ∀ x, s.sp.tickets.find? (·.number = n) = some x →
      ((x.state = .firm ∨ x.unfinished = false) → exec (.withdraw n) s = .next (s.withResponse [0x20]))
      ∧ ((x.state = .waiting ∨ x.state = .openState) → s.isMember = false →
          exec (.withdraw n) s = .next (s.withResponse [0x10]))
      ∧ (x.state = .waiting → s.isMember = true →
          (∀ q, s.ticketFrame x = some q → q.inFlight = false →
            ¬(s.sc.station = .leaving ∧ s.sc.tracked = some ⟨s.ownId, n⟩) →
            ∃ t, exec (.withdraw n) s = .next t ∧ t.sp.response = [0x00]
              ∧ t.bi.queue = s.bi.queue.filter (fun y => y.body ≠ q.body)
              ∧ (∀ y ∈ t.sp.tickets, y.number = n → y.unfinished = false)
              ∧ { x with state := .abandoned, withdrawRequest := false, withdrawQueued := false, reserved := false }
                  ∈ t.sp.tickets
              ∧ t.hasEvent .ticket = true ∧ t.sc = s.sc ∧ t.tb = s.tb ∧ t.SameShared s ∧ t.os = s.os ∧ t.pu = s.pu)
          ∧ (∀ q, s.ticketFrame x = some q → q.inFlight = false → s.sc.station = .leaving →
              s.sc.tracked = some ⟨s.ownId, n⟩ → s.sc.leavePending = false →
              ∃ t, exec (.withdraw n) s = .next t ∧ t.sp.response = [0x00]
                ∧ (∀ y ∈ t.bi.queue, y.body ≠ q.body)
                ∧ (∀ y ∈ t.sp.tickets, y.number = n → y.unfinished = false)
                ∧ { x with state := .abandoned, withdrawRequest := false, withdrawQueued := false, reserved := false }
                    ∈ t.sp.tickets
                ∧ t.hasEvent .ticket = true ∧ t.sc.station = .member ∧ t.sc.tracked = none ∧ t.hasEvent .state = true
                ∧ t.tb = s.tb ∧ t.SameShared s)
          ∧ (∀ q, s.ticketFrame x = some q → q.inFlight = true →
              ∃ t, exec (.withdraw n) s = .next t ∧ t.sp.response = [0x00] ∧ t.bi = s.bi
                ∧ (∀ y ∈ t.sp.tickets, y.number = n → y.unfinished = true → y.withdrawRequest = true)
                ∧ t.sc = s.sc ∧ t.tb = s.tb ∧ t.SameShared s ∧ t.os = s.os ∧ t.pu = s.pu))
      ∧ (x.state = .openState → s.isMember = true →
          (s.withdrawalQueued ⟨s.ownId, n⟩ = true → exec (.withdraw n) s = .next (s.withResponse [0x00]))
          ∧ (s.withdrawalQueued ⟨s.ownId, n⟩ = false → 6 ≤ s.bi.queue.length →
              exec (.withdraw n) s = .next (s.withResponse [0x13]))
          ∧ (s.withdrawalQueued ⟨s.ownId, n⟩ = false → s.bi.queue.length < 6 →
              ∃ t, exec (.withdraw n) s = .next t ∧ t.sp.response = [0x00]
                ∧ t.bi = { s.bi with queue := insertFrame ⟨.object ⟨s.ownId, n⟩ .withdrawn, 0, false⟩ s.bi.queue }
                ∧ t.sc = s.sc ∧ t.tb = s.tb ∧ t.rt = s.rt ∧ t.cq = s.cq ∧ t.os = s.os ∧ t.pu = s.pu))

/-- READ_TICKET answers NO_TICKET (21h) where no record holds the number, else the record, with the fields at the positions
of R197; reading a finished ticket frees it, so that a second reading finds none (R183, R197). That the reason byte and the
objector bits read 0 where they are absent is the model's choice (log 36). -/
def Obligations.ReadTicket : Prop :=
  ∀ (n : Byte) (s : State),
    ((∀ x ∈ s.sp.tickets, x.number ≠ n) → exec (.readTicket n) s = .next (s.withResponse [0x21]))
    ∧ ∀ x, s.sp.tickets.find? (·.number = n) = some x →
        (x.unfinished = true → exec (.readTicket n) s = .next (s.withResponse (0x00 :: ticketRecord s.ownId x)))
        ∧ (x.unfinished = false → ∃ t, exec (.readTicket n) s = .next t
            ∧ t = { s with sp := { s.sp with
                tickets := s.sp.tickets.filter (fun y => y.number ≠ n)
                response := 0x00 :: ticketRecord s.ownId x } }
            ∧ exec (.readTicket n) t = .next (t.withResponse [0x21]))
        ∧ (ticketRecord s.ownId x).length = 9 ∧ (ticketRecord s.ownId x).head? = some n
        ∧ (∀ d, x.kind = .demand d → ((ticketRecord s.ownId x).drop 1).take 3 = 0x04 :: wordBytes d)
        ∧ (∀ k, x.kind = .clearTrip k → ((ticketRecord s.ownId x).drop 1).take 3 = [0x05, 0x00, BitVec.ofNat 8 k.val])
        ∧ (x.kind = .remove → ((ticketRecord s.ownId x).drop 1).take 3 = [0x02, 0x01, BitVec.ofNat 8 s.ownId.val])
        ∧ (let fBit : Byte := if x.f.isSome then 0x10 else 0x00
           let f := wordBytes (x.f.getD 0)
           (x.state = .waiting → (ticketRecord s.ownId x).drop 4 = 0x00 :: fBit :: 0x00 :: f)
           ∧ (x.state = .openState → (ticketRecord s.ownId x).drop 4 = 0x01 :: fBit :: 0x00 :: f)
           ∧ (x.state = .firm → (ticketRecord s.ownId x).drop 4 = 0x02 :: fBit :: 0x00 :: f)
           ∧ (∀ noEffect, x.state = .applied noEffect →
               (ticketRecord s.ownId x).drop 4 = 0x03 :: ((if noEffect then 0x80 else 0x00) ||| fBit) :: 0x00 :: f)
           ∧ (∀ p ∈ ([(.late, 1), (.notMember, 2), (.notAllowed, 3), (.fingerprint, 4), (.notTripped, 5), (.duplicate, 6),
               (.full, 7)] : List (ArrivalRefusal × Byte)),
               x.state = .refused p.1 → (ticketRecord s.ownId x).drop 4 = 0x04 :: (0x40 ||| fBit) :: p.2 :: f)
           ∧ (∀ p ∈ ([(.dutyLimit, 1), (.withdrawn, 2), (.stillActive, 3), (.present, 4)] : List (ObjectReason × Byte)),
               ∀ o : StationId, x.state = .objected p.1 o →
                 (ticketRecord s.ownId x).drop 4 = 0x05 :: (0x60 ||| fBit ||| BitVec.ofNat 8 o.val) :: p.2 :: f)
           ∧ (x.state = .abandoned → (ticketRecord s.ownId x).drop 4 = 0x06 :: fBit :: 0x00 :: f)
           ∧ (∀ p ∈ ([(.resync, 1), (.isolated, 2), (.retripped, 3), (.restart, 4)] : List (VoidReason × Byte)),
               x.state = .voided p.1 → (ticketRecord s.ownId x).drop 4 = 0x07 :: (0x40 ||| fBit) :: p.2 :: f))

/-- FAULT_ACK by the first condition that applies; a refusal changes no state, an acceptance sets ack armed, and an
activation consumes it (R157). -/
def Obligations.FaultAcknowledge : Prop :=
  ∀ (b : Byte) (s : State),
    (s.sc.station = .setup → exec (.faultAck b) s = .next (s.withResponse [0x10]))
    ∧ (s.sc.station ≠ .setup → 2 < b.toNat → exec (.faultAck b) s = .next (s.withResponse [0x30]))
    ∧ ∀ i : InputNo, s.sc.station ≠ .setup → State.inputOfByte b = some i →
        ((s.inputRecord i).latched = false → exec (.faultAck b) s = .next (s.withResponse [0x31]))
        ∧ ((s.inputRecord i).latched = true → (s.input i).manual = false →
            exec (.faultAck b) s = .next (s.withResponse [0x32]))
        ∧ ((s.inputRecord i).latched = true → (s.input i).manual = true → (s.inputRecord i).active = true →
            exec (.faultAck b) s = .next (s.withResponse [0x33]))
        ∧ ((s.inputRecord i).latched = true → (s.input i).manual = true → (s.inputRecord i).active = false →
            ∃ t, exec (.faultAck b) s = .next t ∧ t.sp = { s.sp with response := [0x00] }
              ∧ t.inputRecord i = { s.inputRecord i with ackArmed := true }
              ∧ (∀ j, j ≠ i → t.inputRecord j = s.inputRecord j)
              ∧ t.fu.tripSet = s.fu.tripSet ∧ t.fu.lastTrip = s.fu.lastTrip
              ∧ t.fu.shedFrame = s.fu.shedFrame ∧ t.fu.readmitFrame = s.fu.readmitFrame
              ∧ t = { s with fu := t.fu, sp := t.sp })
        ∧ (s.evaluates i = true → (s.inputRecord i).active = false →
            ∃ t, exec (.faultActivation i) s = .next t ∧ (t.inputRecord i).ackArmed = false)

/-! ### The boundary -/

/-- A natural boundary: B and K are 0, EN advances by 1 or is 0 at founding, the mark-seen flag is clear; in ISOLATED
and HALTED the shared state is left as it was. Where the shared state is acted on and no group is founded, the entries due
are applied one at a time in queue order, those that then are one epoch ahead become FIRM, and step 3 follows; a station
that is then a member has the shared state of these steps. Then come the digest of the state that step 2 left, the BEAT with
the depth that step 2 left, the mark-seen test of ACQUIRING and the drive of the mark (R21, R22, R24, R32, R70, R71, R94,
R100, R101). The order of the work after step 3 is the model's choice (log 5); that step 2 is completed before the station's own
removal freezes the state (log 7), and that the boundary at which HOLDOVER ends is not quiet (log 8), are inferences; the statements of founding, the mark line, the
bus line, objections, roster queries and entry to the group say what its other parts do. -/
def Obligations.NaturalBoundaryCounts : Prop :=
  (∀ s : State, s.sc.station ≠ .setup →
    ∃ t, exec .naturalBoundary s = .next t ∧ t.tb.b = 0 ∧ t.tb.k = 0
      ∧ t.tb.en = (if s.foundsNow then 0 else s.tb.en + 1) ∧ t.tb.markSeen = false
      ∧ t.tb.lastLead = s.tb.lastLead ∧ t.sp.record = s.sp.record ∧ t.sp.mask = s.sp.mask ∧ t.pins = s.pins
      ∧ (s.sc.station ∈ [.isolated, .halted] → t.sc.station = s.sc.station ∧ t.SameShared s ∧ t.bi.queue = s.bi.queue)
      ∧ ((s.isMember = true ∨ s.isFollower = true) → s.foundsNow = false →
          let u : State := { s with tb := { s.tb with b := 0, k := 0, en := s.tb.en + 1 } }
          let applied := (u.cq.entries.filter fun e => e.f = s.tb.en + 1).foldl State.applyEntry u
          let firm := (applied.cq.entries.filter fun e => e.phase = .openPhase && (e.f - applied.tb.en).toNat = 1).foldl
            State.makeEntryFirm applied
          let decided := (firm.settle.stepThree u.admittedNow).settle
          t = (((((decided.groupWork firm.settle.cq.entries.length).lineWork true).controllerWork
                (s.sc.station = .listen) (s.tb.state = .holdover || s.bi.line = .stuck)).settle).lateOffers).settle
          ∧ (t.isMember = true → t.SameShared decided)))
  ∧ (∀ (n : Nat) (s : State), s.drivesMarks = true →
      (s.bi.queue.length < 6 ∨ ∃ y ∈ s.bi.queue, y.body.isBeat = true) →
      ∃ y ∈ (s.buildBeat n).bi.queue, y.attempts = 0 ∧ y.body = .beat
        { en := s.tb.en, resync := decide (s.sc.station = .resync), tripHeld := decide (s.fu.tripSet ≠ 0)
          depth := BitVec.ofNat 4 n
          localLatched := s.classLatched .localClass, shedLatched := s.classLatched .shed
          tripLatched := s.classLatched .trip
          lowestActive := BitVec.ofNat 8 (lowestActive s.rt.entries)
          activeCount := BitVec.ofNat 8 (activeCount s.rt.entries)
          digest := s.rt.epochDigest, lead := s.tb.lastLead })
  ∧ (∀ (n : Nat) (s : State),
      ((s.isMember = true ∨ s.isFollower = true) →
        s.groupWork n = ((s.takeDigest.buildBeat n).heardGroupTest).offerAtBoundary)
      ∧ (s.isMember = false → s.isFollower = false → s.groupWork n = s)
      ∧ (s.drivesMarks = false → s.buildBeat n = s))
  ∧ (∀ s : State, s.takeDigest = { s with rt := { s.rt with
      epochDigest := digestOfCode (rosterCode s.rt.entries) s.cq.duty s.fu.tripSet
      armed := decide (s.isMember = true ∨ s.rt.copySource = .own ∨ s.rt.copySource = .reply) } })
  ∧ (∀ s : State, s.lineWork true
      = (((s.holdoverAtBoundary).markSeenAtBoundary true).startDrive).advanceClashWindow.countStuck)
  ∧ (∀ s : State,
      (s.tb.state = .acquiring → s.tb.markSeen = false →
        s.markSeenAtBoundary true = { s with tb := { s.tb with state := .free, inWindow := 0, markSeen := false } })
      ∧ ((s.tb.state ≠ .acquiring ∨ s.tb.markSeen = true) →
          s.markSeenAtBoundary true = { s with tb := { s.tb with markSeen := false } }))
  ∧ (∀ s : State,
      (s.drivesMarks = true → s.tb.state = .locked →
        s.startDrive = { s with tb := { s.tb with driveLeft := 16, driveReadLow := false } })
      ∧ ((s.drivesMarks = false ∨ s.tb.state ≠ .locked) → s.startDrive = s))
  ∧ (∀ (wasListen unreadable : Bool) (s : State), s.controllerWork wasListen unreadable
      = (((((s.countHoldoff wasListen).countQuiet unreadable).countUnlocked).resyncTimeout).joinTest).resyncTest.leaveIfPending)
  ∧ ∀ s : State, s.lateOffers = [(0 : StationId), 1, 2, 3, 4, 5, 6, 7, 8, 9, 10, 11, 12, 13, 14, 15].foldl State.offerReply
      (s.queryAtBoundary.shedTest.readmissionTest.withdrawalTest)

/-- Founding, in place of steps 1 to 3 (an inference, log 6), O put on the target or kept (log 11), at the boundary at which the
quiet count reaches LISTEN_EPOCHS + ID on lines the station can read; and the
counts of the Station Controller at a boundary: the join holdoff of a station that was in LISTEN, the quiet count of LISTEN
and RESYNC, the unlocked count of LISTEN up to ISOLATED for MARK_ABSENT with its tickets VOIDED, and the end of RESYNC in LISTEN
where no group is heard (R4, R5, R15, R18). -/
def Obligations.Founding : Prop :=
  (∀ s : State, s.sc.station = .listen → s.sc.leavePending = false → s.tb.state ≠ .holdover → s.bi.line ≠ .stuck →
    s.listenEpochs + s.ownId.val ≤ s.sc.quiet + 1 →
    ∃ t, exec .naturalBoundary s = .next t ∧ t.sc.station = .member ∧ t.tb.en = 0 ∧ t.tb.state = .locked
      ∧ t.tb.driveLeft = 16 ∧ t.cq.entries = [] ∧ t.cq.duty = 0 ∧ t.fu.tripSet = 0 ∧ t.rt.copySource = .own
      ∧ t.ownEntry.state = .active ∧ t.ownEntry.kind = s.ownKind ∧ t.ownEntry.admittedAt = some 0
      ∧ (∀ i, i ≠ s.ownId → (t.entry i).state = .absent)
      ∧ (s.ownKind = .phase → t.pu.target = some 0 ∧ t.pu.offset = 0)
      ∧ (s.ownKind = .observer → t.pu.target = none ∧ t.pu.offset = s.pu.offset
          ∧ (s.pu.step = 0 → t.os.p = s.os.p ∧ t.pu.length = s.pu.length))
      ∧ t.rt.epochDigest = digestOfCode (rosterCode t.rt.entries) 0 0 ∧ t.rt.armed = true)
  ∧ (∀ s : State,
      (s.sc.station = .listen →
        s.countHoldoff true = { s with sc := { s.sc with joinHoldoff := s.sc.joinHoldoff - 1 } })
      ∧ (s.sc.station ≠ .listen → s.countHoldoff true = s) ∧ s.countHoldoff false = s)
  ∧ (∀ (unreadable : Bool) (s : State),
      (s.sc.station = .listen → s.countQuiet unreadable
        = { s with sc := { s.sc with quiet := if unreadable then 0 else s.sc.quiet + 1 } })
      ∧ (s.sc.station = .resync → s.countQuiet unreadable = { s with sc := { s.sc with quiet := s.sc.quiet + 1 } })
      ∧ (s.sc.station ≠ .listen → s.sc.station ≠ .resync → s.countQuiet unreadable = s))
  ∧ (∀ s : State,
      ((s.sc.station ≠ .listen ∨ s.tb.state = .locked ∨ s.sc.frameSinceListen = false) → s.countUnlocked = s)
      ∧ (s.sc.station = .listen → s.tb.state ≠ .locked → s.sc.frameSinceListen = true →
          (s.sc.unlocked + 1 < 4 * s.listenEpochs →
            s.countUnlocked = { s with sc := { s.sc with unlocked := s.sc.unlocked + 1 } })
          ∧ (4 * s.listenEpochs ≤ s.sc.unlocked + 1 → s.countUnlocked.sc.station = .isolated
              ∧ s.countUnlocked.sc.reason = .markAbsent ∧ s.countUnlocked.NoCopy
              ∧ s.countUnlocked.sp.tickets = s.ticketsVoided .isolated
              ∧ (s.os.GatesOk → s.countUnlocked.OutputsOff) ∧ s.countUnlocked.hasEvent .state = true)))
  ∧ ∀ s : State,
      ((s.sc.station ≠ .resync ∨ s.sc.quiet < s.listenEpochs + s.ownId.val) → s.resyncTimeout = s)
      ∧ (s.sc.station = .resync → s.listenEpochs + s.ownId.val ≤ s.sc.quiet →
          s.resyncTimeout.sc.station = .listen ∧ s.resyncTimeout.sc.quiet = 0 ∧ s.resyncTimeout.sc.joinHoldoff = 0
          ∧ s.resyncTimeout.NoCopy ∧ (s.os.GatesOk → s.resyncTimeout.OutputsOff) ∧ s.resyncTimeout.tb.driveLeft = 0
          ∧ (∀ y ∈ s.resyncTimeout.bi.queue, y.body = .query) ∧ s.resyncTimeout.rt.expectedKey = none
          ∧ s.resyncTimeout.hasEvent .state = true)

/-- The application of one entry: it leaves the queue, and the entry of its target, the committed duty or the trip set
changes by its kind, or nothing where it is a no-op; its ticket becomes APPLIED with the no-effect flag; and the station
that is its target changes state: JOINING to MEMBER, a member to DORMANT by its own REMOVE(LEFT), to LISTEN with a
CONFIRMED standing by a REMOVE(LOST). An entry that becomes FIRM loses its queued and pending objections, with
LATE_OBJECTION if there is one, and its ticket becomes FIRM (R13, R14, R60, R100, R101, R109 to R114). -/
def Obligations.ApplicationOfAnEntry : Prop :=
  (∀ (s : State) (e : QueueEntry), s.rt.entries.length = 16 →
    (s.applyEntry e).cq.entries = s.cq.entries.filter (fun x => x.id ≠ e.id)
    ∧ (∀ i, i ≠ e.target → (s.applyEntry e).entry i = s.entry i)
    ∧ (∀ fp kind, e.content = .admission fp kind →
        (s.applyEntry e).entry e.target
          = (if (s.entry e.target).state = .active then s.entry e.target
             else ⟨.active, kind, some s.tb.en, 0, false, none⟩)
        ∧ (s.applyEntry e).cq.duty = s.cq.duty ∧ (s.applyEntry e).fu.tripSet = s.fu.tripSet)
    ∧ (∀ i r, e.content = .remove i r →
        (s.applyEntry e).entry i
          = (if (s.entry i).state = .absent then s.entry i else ⟨.absent, .phase, none, 0, false, none⟩)
        ∧ (s.applyEntry e).cq.duty = s.cq.duty ∧ (s.applyEntry e).fu.tripSet = s.fu.tripSet)
    ∧ (e.content = .shed →
        (s.applyEntry e).entry e.target
          = (if (s.entry e.target).state = .active then { s.entry e.target with state := .shed } else s.entry e.target)
        ∧ (s.applyEntry e).cq.duty = s.cq.duty ∧ (s.applyEntry e).fu.tripSet = s.fu.tripSet)
    ∧ (∀ d, e.content = .demand d →
        (s.applyEntry e).cq.duty = d ∧ (s.applyEntry e).rt = s.rt ∧ (s.applyEntry e).fu.tripSet = s.fu.tripSet)
    ∧ (∀ i, e.content = .clearTrip i →
        (∀ j : StationId, (s.applyEntry e).fu.tripSet.getLsbD j.val = (s.fu.tripSet.getLsbD j.val && j ≠ i))
        ∧ (s.applyEntry e).cq.duty = s.cq.duty ∧ (s.applyEntry e).rt = s.rt))
  ∧ (∀ (s : State) (e : QueueEntry) (noEffect : Bool),
      (noEffect = true ↔
        ((∃ fp kind, e.content = .admission fp kind) ∧ (s.entry e.target).state = .active)
        ∨ ((∃ i r, e.content = .remove i r) ∧ (s.entry e.target).state = .absent)
        ∨ (e.content = .shed ∧ (s.entry e.target).state ≠ .active)
        ∨ ∃ i : StationId, e.content = .clearTrip i ∧ s.fu.tripSet.getLsbD i.val = false) →
      (e.isLocal = true → ∀ x ∈ s.sp.tickets, x.unfinished = true → x.number = e.id.seq → x.kind.fits e.content = true →
        x.reserved = false →
        { x with state := .applied noEffect, withdrawRequest := false, withdrawQueued := false } ∈ (s.applyEntry e).sp.tickets
        ∧ (s.applyEntry e).hasEvent .ticket = true)
      ∧ ((e.target ≠ s.ownId ∨ e.content = .shed ∨ (∃ d, e.content = .demand d) ∨ ∃ i, e.content = .clearTrip i) →
          (s.applyEntry e).sc = s.sc)
      ∧ ((∃ fp kind, e.content = .admission fp kind) → e.target = s.ownId → s.sc.station = .joining →
          s.sc.leavePending = false →
          (s.applyEntry e).sc.station = .member ∧ (s.applyEntry e).sc.tracked = none
          ∧ (s.applyEntry e).rt.copySource = .own ∧ (s.applyEntry e).hasEvent .state = true)
      ∧ (e.content = .remove s.ownId .left → s.isMember = true → s.os.GatesOk →
          (s.applyEntry e).sc.station = .dormant ∧ (s.applyEntry e).OutputsOff ∧ (s.applyEntry e).bi.queue = []
          ∧ (s.applyEntry e).refEpoch = s.tb.en ∧ (s.applyEntry e).tb.driveLeft = 0
          ∧ (s.applyEntry e).hasEvent .state = true)
      ∧ (e.content = .remove s.ownId .lost → s.isMember = true → s.os.GatesOk →
          (s.applyEntry e).sc.station = .listen ∧ (s.applyEntry e).sc.standing = .confirmed
          ∧ (s.applyEntry e).sc.joinHoldoff = s.listenEpochs ∧ (s.applyEntry e).rt.copySource = .own
          ∧ (s.applyEntry e).OutputsOff ∧ (s.applyEntry e).tb.driveLeft = 0
          ∧ (∀ y ∈ (s.applyEntry e).bi.queue, y.body = .query) ∧ (s.applyEntry e).hasEvent .state = true))
  ∧ ∀ (s : State) (e : QueueEntry),
      let t := s.makeEntryFirm e
      t.cq.entries = s.cq.entries.map (fun x => if x.id = e.id then { x with phase := .firm } else x)
      ∧ t.cq.pendingObjections = s.cq.pendingObjections.filter (fun o => o.1 ≠ e.id)
      ∧ t.bi.queue = s.bi.queue.filter (fun y => !y.body.objectsTo e.id)
      ∧ t.hasEvent .lateObjection = (s.hasEvent .lateObjection
          || (s.bi.queue.any fun y => y.body.objectsTo e.id) || (s.cq.pendingObjections.any fun o => o.1 = e.id)
          || (e.isLocal && s.sp.tickets.any fun x => x.unfinished && x.number = e.id.seq && x.kind.fits e.content
                && x.withdrawRequest && !x.withdrawQueued))
      ∧ (e.isLocal = true → ∀ x ∈ s.sp.tickets, x.unfinished = true → x.number = e.id.seq → x.kind.fits e.content = true →
          x.reserved = false → { x with state := .firm, withdrawRequest := false, withdrawQueued := false } ∈ t.sp.tickets)
      ∧ t.rt = s.rt ∧ t.cq.duty = s.cq.duty ∧ t.fu.tripSet = s.fu.tripSet ∧ t.sc = s.sc ∧ t.tb = s.tb ∧ t.os = s.os
      ∧ t.pu = s.pu

/-- Step 3 of a boundary. Silence: the entry of a peer that was heard counts 0, one that was not counts one more up to
LOSS_EPOCHS, the own entry, an ABSENT one and one admitted at this boundary keep theirs. A peer at LOSS_EPOCHS that no
REMOVE names is proposed for removal. The vote: the voters are the peers, ACTIVE or SHED, that were heard and whose last beat
is flagged MEMBER; one agrees whose record carries the EN of the epoch that has ended and the epoch digest. A member that has
fewer agreeing than disagreeing peers, itself counted as agreeing, or as many and the lowest ID on the other side, goes to
RESYNC with its outputs OFF, its queue empty and its tickets VOIDED; any other stays. The heard flags are cleared, where silence
is counted alone, which is an inference (log 34) (R15, R73, R74, R76). -/
def Obligations.DivergenceVote : Prop :=
  (∀ s : State, s.losesVote = true ↔
    let agreeing := s.voters.filter s.agrees
    let disagreeing := s.voters.filter fun i => !s.agrees i
    agreeing.length + 1 < disagreeing.length
      ∨ (agreeing.length + 1 = disagreeing.length
          ∧ State.lowestOf disagreeing < min s.ownId.val (State.lowestOf agreeing)))
  ∧ (∀ s : State, s.voters.Pairwise (· < ·) ∧ ∀ i, i ∈ s.voters ↔ i ≠ s.ownId ∧ (s.entry i).state ≠ .absent
      ∧ (s.entry i).heard = true ∧ ∃ r, (s.entry i).lastBeat = some r ∧ r.resync = false)
  ∧ (∀ (s : State) (i : StationId), s.agrees i = true ↔
      ∃ r, (s.entry i).lastBeat = some r ∧ r.en = s.tb.en - 1 ∧ r.digest = s.rt.epochDigest)
  ∧ (State.lowestOf [] = 16 ∧ ∀ (i : StationId) (l : List StationId), State.lowestOf (i :: l) = i.val)
  ∧ (∀ (admitted : StationId → Bool) (s : State) (i : StationId),
      (s.updateSilence admitted).entry i
        = (if i = s.ownId ∨ admitted i = true ∨ (s.entry i).state = .absent then s.entry i
           else if (s.entry i).heard then { s.entry i with silent := 0 }
           else { s.entry i with silent := min s.lossEpochs ((s.entry i).silent + 1) }))
  ∧ (∀ s : State, s.proposeLosses = [(0 : StationId), 1, 2, 3, 4, 5, 6, 7, 8, 9, 10, 11, 12, 13, 14, 15].foldl
      State.proposeLoss s)
  ∧ (∀ (s : State) (i : StationId),
      (i ≠ s.ownId ∧ (s.entry i).state ≠ .absent ∧ (s.entry i).silent = s.lossEpochs ∧ s.removePending i = false
          ∧ (∀ y ∈ s.bi.queue, y.body.isRemoveOf i = false) ∧ s.bi.queue.length < 6 →
        (s.proposeLoss i).bi.queue = insertFrame ⟨.propose s.cq.nextSeq (.remove i .lost), 0, false⟩ s.bi.queue
        ∧ (s.proposeLoss i).cq = { s.cq with nextSeq := s.cq.nextSeq + 1 })
      ∧ ((i = s.ownId ∨ (s.entry i).state = .absent ∨ (s.entry i).silent ≠ s.lossEpochs ∨ s.removePending i = true
          ∨ (∃ y ∈ s.bi.queue, y.body.isRemoveOf i = true) ∨ 6 ≤ s.bi.queue.length) → s.proposeLoss i = s))
  ∧ (∀ (admitted : StationId → Bool) (s : State), s.isMember = true →
      (((s.updateSilence admitted).proposeLosses).losesVote = true →
        (s.stepThree admitted).sc.station = .resync ∧ (s.stepThree admitted).cq.entries = []
        ∧ (s.stepThree admitted).rt.copySource = .old ∧ (s.os.GatesOk → (s.stepThree admitted).OutputsOff)
        ∧ (s.stepThree admitted).fu.tripSet = s.fu.tripSet ∧ (s.stepThree admitted).cq.duty = s.cq.duty
        ∧ (s.stepThree admitted).sp.tickets = s.ticketsVoided .resync)
      ∧ (((s.updateSilence admitted).proposeLosses).losesVote = false →
          s.stepThree admitted = ((s.updateSilence admitted).proposeLosses).clearHeard
          ∧ (s.stepThree admitted).sc = s.sc))
  ∧ (∀ (admitted : StationId → Bool) (s : State), s.isFollower = true →
      (s.hasCopy = true → s.stepThree admitted = (s.updateSilence admitted).clearHeard)
      ∧ (s.hasCopy = false → s.stepThree admitted = s))
  ∧ ∀ (s : State) (i : StationId), s.clearHeard.entry i = { s.entry i with heard := false }

/-! ### The mark line -/

/-- A recognised mark edge records its lead and sets the mark-seen flag in every state but SETUP and HOLDOVER without a
release; in ISOLATED and HALTED outside HOLDOVER it does nothing more to the counters or the time base. That the edge count
lies two counts before the recognition is an inference (log 9), and so is what HOLDOVER is in ISOLATED and HALTED (log 29);
that the quiet count is 0 after a boundary which the edge induces is one too (log 8); the order inside one recognised edge is
the model's choice (log 10) (R27, R28, R37, R39). -/
def Obligations.MarkEdgeIsRecorded : Prop :=
  (∀ s : State, s.sc.station ≠ .setup → (s.tb.state = .holdover → s.tb.levelLow = false) →
    ∃ t, exec .markEdge s = .next t ∧ t.tb.markSeen = true ∧ t.tb.levelLow = true
      ∧ t.tb.lastLead.toNat = min 65535 (s.leadOf ((s.pos + s.epochCounts - 2) % s.epochCounts))
      ∧ (t.sc.station = .listen → t.sc.quiet = 0)
      ∧ t.sp.record = s.sp.record
      ∧ (s.sc.station ∈ [.isolated, .halted] → s.tb.state ≠ .holdover →
          t.SameCounters s ∧ t.tb.state = s.tb.state ∧ t.sc = s.sc ∧ t.rt = s.rt ∧ t.cq = s.cq ∧ t.bi = s.bi))
  ∧ ∀ s : State, s.leadOf 0 = 0 ∧ ∀ posE, posE ≠ 0 → s.leadOf posE = s.epochCounts - posE

/-- An edge at a LOCKED station. One that drives the mark: the four bands of R33; one that does not: alignment forward by
the lead or backward by the trail, a time step beyond LOCK_WINDOW either way. A forward alignment of 3 counts or more
performs a boundary. A time step holds both gates inactive until a later local cycle start. The local cycle: a forward
alignment moves P on by the lead within the cycle, over its end by a local cycle start at recognition, or re-anchors it; a
backward one re-anchors it; a crossed compare that changes the requested output releases both gates (R29, R30, R33, R34, R131,
R132, R146, R149). LISTEN_EPOCHS is at least 2 in every valid record. That a local cycle was re-anchored in this count is a
field that the rules imply (log 21); the order of the points that a jump crosses is the model's choice (log 10). -/
def Obligations.MarkEdgeWhileDriving : Prop :=
  (∀ (s : State) (lead : Nat), s.drivesMarks = true → s.tb.state = .locked → lead = s.leadOf s.edgePos →
    ∃ t, exec .markEdge s = .next t
      ∧ (lead = 0 → t.SameCounters s ∧ t.sc = s.sc)
      ∧ (lead ≠ 0 → 2 * lead ≤ s.epochCounts →
          t.tb.b = 2 ∧ t.tb.k = 0 ∧ t.tb.en = (if 3 ≤ lead then s.tb.en + 1 else s.tb.en))
      ∧ (lead ≠ 0 → lead < 3 → lead ≤ s.lockWindow → 2 * lead ≤ s.epochCounts → s.Settled →
          (s.os.p + lead < s.pu.length → t.os.p = s.os.p + lead ∧ t.pu = s.pu)
          ∧ (s.pu.length ≤ s.os.p + lead → s.os.p + lead - s.pu.length < s.period - s.slewStep →
              t.os.p = s.os.p + lead - s.pu.length ∧ t.pu.offset = s.endOffset ∧ t.pu.target = s.pu.target))
      ∧ (lead ≠ 0 → s.lockWindow < lead → 2 * lead ≤ s.epochCounts →
          t.hasEvent .timeStep = true ∧ t.os.gh = false ∧ t.os.gl = false
          ∧ (t.sc.station = s.sc.station → t.os.blanking = true))
      ∧ (lead ≠ 0 → s.lockWindow < lead → s.epochCounts < 2 * lead →
          t.SameCounters s ∧ t.sc = s.sc ∧ t.hasEvent .strayMark = true))
  ∧ (∀ (s : State) (lead : Nat), s.canIsolate = true → s.drivesMarks = false → s.tb.state = .locked →
      2 ≤ s.listenEpochs → lead = s.leadOf s.edgePos →
      ∃ t, exec .markEdge s = .next t
        ∧ (lead = 0 → t.SameCounters s ∧ t.sc.station = s.sc.station)
        ∧ (lead ≠ 0 → t.tb.b = 2 ∧ t.tb.k = 0
            ∧ t.tb.en = (if 3 ≤ lead ∧ 2 * lead ≤ s.epochCounts then s.tb.en + 1 else s.tb.en))
        ∧ (lead ≠ 0 → s.lockWindow < lead → (2 * lead ≤ s.epochCounts ∨ s.lockWindow < s.edgePos) →
            t.hasEvent .timeStep = true ∧ t.os.gh = false ∧ t.os.gl = false
            ∧ (t.sc.station = s.sc.station → t.os.blanking = true))
        ∧ (s.epochCounts < 2 * lead → t.sc.station = s.sc.station)
        ∧ (s.epochCounts < 2 * lead → s.Settled →
            t.pu.offset = s.endOffset ∧ t.pu.step = 0 ∧ t.pu.length = s.period
            ∧ t.os.p = (2 + s.period - s.endOffset) % s.period)
        ∧ ((2 * lead ≤ s.epochCounts ∧ lead ≤ s.lockWindow) ∨ (s.epochCounts < 2 * lead ∧ s.edgePos ≤ s.lockWindow) →
            t.hasEvent .timeStep = s.hasEvent .timeStep))
  ∧ (∀ (j : Nat) (timeStep : Bool) (s : State),
      (s.os.p + j < s.pu.length →
        (s.Settled → (s.alignCycle j timeStep).os.p = s.os.p + j ∧ (s.alignCycle j timeStep).pu = s.pu)
        ∧ (s.os.mode = .run → s.os.p < s.os.cmp → s.os.cmp ≤ s.os.p + j →
            (s.alignCycle j timeStep).os.gh = false ∧ (s.alignCycle j timeStep).os.gl = false)
        ∧ ((s.os.mode ≠ .run ∨ s.os.cmp ≤ s.os.p ∨ s.os.p + j < s.os.cmp) → s.Settled → s.someClears = false →
            s.alignCycle j timeStep = { s with os := { s.os with p := s.os.p + j } }))
      ∧ (s.pu.length ≤ s.os.p + j → s.os.p + j - s.pu.length < s.period - s.slewStep →
          (s.Settled → (s.alignCycle j timeStep).os.p = s.os.p + j - s.pu.length
              ∧ (s.alignCycle j timeStep).pu.offset = s.endOffset
              ∧ (s.alignCycle j timeStep).pu.target = s.pu.target)
          ∧ (timeStep = true → (s.alignCycle j timeStep).os.blanking = s.os.blanking)
          ∧ (timeStep = false → (s.alignCycle j timeStep).os.blanking = false)
          ∧ (s.os.mode = .run → s.os.p < s.os.cmp → s.os.cmp < s.pu.length →
              (s.alignCycle j timeStep).os.gh = false ∧ (s.alignCycle j timeStep).os.gl = false))
      ∧ (s.pu.length ≤ s.os.p + j → s.period - s.slewStep ≤ s.os.p + j - s.pu.length →
          s.alignCycle j timeStep = s.reanchor))
  ∧ ∀ s : State, s.endOffset = (((s.pu.offset : Int) + s.pu.step) % (s.period : Int)).toNat

/-- Acquisition: every edge in FREE aligns and leads to ACQUIRING with an in-window count of 1; in ACQUIRING an edge out of
the window sets the count back to 1, one in the window adds 1, and the third leads to LOCKED with event LOCK. An edge with
a lead of 3 counts or more, up to half an epoch, performs a boundary, after which the state is changed unless the boundary
took the station to ISOLATED. One with a lead above half an epoch moves the counters back and re-anchors the local cycle (R29,
R30, R31, R32, R35, R127, R132). LISTEN_EPOCHS is at least 2 in every valid record. -/
def Obligations.MarkEdgeWhileAcquiring : Prop :=
  ∀ (s : State) (lead : Nat), s.canIsolate = true → 2 ≤ s.listenEpochs → lead = s.leadOf s.edgePos →
    (s.tb.state = .free →
      ∃ t, exec .markEdge s = .next t
        ∧ t.tb.en = (if 3 ≤ lead ∧ 2 * lead ≤ s.epochCounts then s.tb.en + 1 else s.tb.en)
        ∧ (lead = 0 → t.SameCounters s) ∧ (lead ≠ 0 → t.tb.b = 2 ∧ t.tb.k = 0)
        ∧ (t.canIsolate = true → t.tb.state = .acquiring ∧ t.tb.inWindow = 1)
        ∧ ((lead < 3 ∨ s.epochCounts < 2 * lead) → t.canIsolate = true)
        ∧ (s.epochCounts < 2 * lead → s.Settled →
            t.pu.offset = s.endOffset ∧ t.pu.step = 0 ∧ t.pu.length = s.period
            ∧ t.os.p = (2 + s.period - s.endOffset) % s.period))
    ∧ (s.tb.state = .acquiring →
      ∃ t, exec .markEdge s = .next t
        ∧ t.tb.en = (if 3 ≤ lead ∧ 2 * lead ≤ s.epochCounts then s.tb.en + 1 else s.tb.en)
        ∧ (lead = 0 → t.SameCounters s) ∧ (lead ≠ 0 → t.tb.b = 2 ∧ t.tb.k = 0)
        ∧ ((lead < 3 ∨ s.epochCounts < 2 * lead) → t.canIsolate = true)
        ∧ (s.lockWindow < lead → s.lockWindow < s.edgePos → t.canIsolate = true →
            t.tb.state = .acquiring ∧ t.tb.inWindow = 1)
        ∧ ((lead ≤ s.lockWindow ∨ s.edgePos ≤ s.lockWindow) → s.tb.inWindow < 2 → t.canIsolate = true →
            t.tb.state = .acquiring ∧ t.tb.inWindow = s.tb.inWindow + 1)
        ∧ ((lead ≤ s.lockWindow ∨ s.edgePos ≤ s.lockWindow) → 2 ≤ s.tb.inWindow → t.canIsolate = true →
            t.tb.state = .locked ∧ t.tb.inWindow = 3 ∧ t.sc.unlocked = 0 ∧ t.hasEvent .lock = true)
        ∧ (s.epochCounts < 2 * lead → s.Settled →
            t.pu.offset = s.endOffset ∧ t.pu.step = 0 ∧ t.pu.length = s.period
            ∧ t.os.p = (2 + s.period - s.endOffset) % s.period))

/-- The other events of SBM: a release, the entry to HOLDOVER with its resume state, and the end of a mark drive, failed
or not, with ISOLATED for MARK_DRIVE at LOSS_EPOCHS failures (R18, R26, R27, R36). HOLDOVER at a boundary: after a release it
is left for the resume state, with event LOCK into LOCKED; on a line still low an epoch more is counted, to ISOLATED for
MARK_STUCK at LOSS_EPOCHS (R35, R37, R38). That HOLDOVER_ENTRY as a command makes the filtered level low and the low run at
least 65 whatever they were is the model's choice (log 1), on fields of the edge filter that the rules imply (log 20). That the
epochs count stops at LOSS_EPOCHS (log 8), and what HOLDOVER is in ISOLATED and HALTED (log 29), are inferences. With LOCKED the
need for the roster ends and a queued query goes (R81). -/
def Obligations.MarkLineEvents : Prop :=
  (∀ s : State, s.sc.station ≠ .setup → exec .markRelease s
    = .next { s with tb := { s.tb with levelLow := false, lowRun := 0, filterRun := 0 } })
  ∧ (∀ s : State, s.sc.station ≠ .setup → s.tb.state ≠ .holdover → (∀ y ∈ s.bi.queue, y.body ≠ .query) →
      exec .holdoverEntry s
      = .next { s with
          tb := { s.tb with
            levelLow := true, lowRun := max 65 s.tb.lowRun, filterRun := 0, state := .holdover
            resume := if s.tb.state = .locked then .locked else .free
            inWindow := if s.tb.state = .locked then 3 else 0
            holdoverEpochs := 0, driveLeft := 0, driveReadLow := false, failedDrives := 0 }
          sp := { s.sp with events := s.sp.events ||| Event.line.bit } })
  ∧ (∀ s : State, s.sc.station ≠ .setup → s.tb.state ≠ .holdover → ∃ t, exec .holdoverEntry s = .next t
      ∧ t.tb.state = .holdover ∧ t.tb.resume = (if s.tb.state = .locked then .locked else .free)
      ∧ t.tb.inWindow = (if s.tb.state = .locked then 3 else 0) ∧ t.tb.holdoverEpochs = 0 ∧ t.tb.driveLeft = 0
      ∧ t.tb.failedDrives = 0 ∧ t.hasEvent .line = true ∧ t.SameCounters s
      ∧ t.bi.queue = s.bi.queue.filter (fun y => !y.body.isQuery)
      ∧ t.sc = s.sc ∧ t.rt = s.rt ∧ t.cq = s.cq ∧ t.os = s.os ∧ t.pu = s.pu)
  ∧ (∀ s : State, s.sc.station ≠ .setup → s.tb.driveLeft ≠ 0 → exec (.markDriveEnd false) s
      = .next { s with tb := { s.tb with driveLeft := 0, driveReadLow := false, failedDrives := 0 } })
  ∧ (∀ s : State, s.sc.station ≠ .setup → s.tb.driveLeft ≠ 0 → s.tb.failedDrives + 1 < s.lossEpochs →
      exec (.markDriveEnd true) s = .next { s with
        tb := { s.tb with driveLeft := 0, driveReadLow := false, failedDrives := s.tb.failedDrives + 1 }
        sp := { s.sp with events := s.sp.events ||| Event.line.bit } })
  ∧ (∀ s : State, s.canIsolate = true → s.tb.driveLeft ≠ 0 → s.lossEpochs ≤ s.tb.failedDrives + 1 →
      ∃ t, exec (.markDriveEnd true) s = .next t ∧ t.sc.station = .isolated ∧ t.sc.reason = .markDrive
        ∧ t.hasEvent .line = true ∧ t.NoCopy ∧ (s.os.GatesOk → t.OutputsOff) ∧ t.bi.queue = [] ∧ t.SameCounters s
        ∧ t.sp.tickets = s.ticketsVoided .isolated
        ∧ ((∃ x ∈ s.sp.tickets, x.unfinished = true) → t.hasEvent .ticket = true))
  ∧ ∀ s : State,
      (s.tb.state ≠ .holdover → s.holdoverAtBoundary = s)
      ∧ (s.tb.state = .holdover → s.tb.levelLow = false → s.tb.resume = .free → s.holdoverAtBoundary
          = { s with tb := { s.tb with state := .free, holdoverEpochs := 0, resume := .free } })
      ∧ (s.tb.state = .holdover → s.tb.levelLow = false → s.tb.resume = .locked → s.holdoverAtBoundary
          = { s with
              tb := { s.tb with state := .locked, inWindow := 3, holdoverEpochs := 0, resume := .free }
              sc := { s.sc with unlocked := 0 }, sp := { s.sp with events := s.sp.events ||| Event.lock.bit } })
      ∧ (s.tb.state = .holdover → s.tb.levelLow = true → s.tb.holdoverEpochs + 1 < s.lossEpochs →
          s.holdoverAtBoundary = { s with tb := { s.tb with holdoverEpochs := s.tb.holdoverEpochs + 1 } })
      ∧ (s.tb.state = .holdover → s.tb.levelLow = true → s.lossEpochs ≤ s.tb.holdoverEpochs + 1 →
          (s.canIsolate = true → s.holdoverAtBoundary.sc.station = .isolated
            ∧ s.holdoverAtBoundary.sc.reason = .markStuck ∧ s.holdoverAtBoundary.NoCopy
            ∧ s.holdoverAtBoundary.sp.tickets = s.ticketsVoided .isolated
            ∧ (s.os.GatesOk → s.holdoverAtBoundary.OutputsOff) ∧ s.holdoverAtBoundary.hasEvent .state = true)
          ∧ (s.canIsolate = false →
              s.holdoverAtBoundary = { s with tb := { s.tb with holdoverEpochs := s.lossEpochs } }))

/-! ### The local cycle and the gates -/

/-- A local cycle start: O moves by the step of the cycle that ended, the new step and length, the latched compare, the
entry to RUN, CLAMP with its record in RUN, and the end of blanking; nothing else changes (R125, R126, R138, R140, R141,
R149). -/
def Obligations.LocalCycleStart : Prop :=
  ∀ s : State, s.sc.station ≠ .setup →
    ∃ t, exec .localCycleStart s = .next t ∧ t.os.p = 0 ∧ t.os.blanking = false
      ∧ t.pu.target = s.pu.target
      ∧ t.pu.offset = (((s.pu.offset : Int) + s.pu.step) % (s.period : Int)).toNat
      ∧ (s.pu.target = none → t.pu.slewing = false ∧ t.pu.step = 0)
      ∧ (∀ x, s.pu.target = some x → t.pu.offset = x →
          t.pu.slewing = false ∧ t.pu.step = 0 ∧ (s.pu.slewing = true → t.hasEvent .placed = true))
      ∧ (∀ x, s.pu.target = some x → t.pu.offset ≠ x →
          t.pu.slewing = true ∧ t.pu.step = slewStepOf s.period s.slewStep t.pu.offset x)
      ∧ t.pu.length = ((s.period : Int) + t.pu.step).toNat
      ∧ t.os.cmp = adjustCompare (min (s.cq.duty.toNat * s.period / 65535) (s.dutyMax.toNat * s.period / 65535))
          s.period t.pu.length s.minPulse
      ∧ t.os.clampFlag = decide (s.dutyMax.toNat * s.period / 65535 < s.cq.duty.toNat * s.period / 65535)
      ∧ t.os.mode = (if s.chosenMode = .run then .run else s.os.mode)
      ∧ (t.os.mode ≠ .run → t.os.clampRecord = s.os.clampRecord ∧ t.hasEvent .clamp = s.hasEvent .clamp)
      ∧ (t.os.mode = .run → t.os.clampFlag = false →
          t.os.clampRecord = none ∧ t.hasEvent .clamp = s.hasEvent .clamp)
      ∧ (t.os.mode = .run → t.os.clampFlag = true → t.os.clampRecord = some s.cq.duty
          ∧ (s.os.clampRecord = some s.cq.duty → t.hasEvent .clamp = s.hasEvent .clamp)
          ∧ (s.os.clampRecord ≠ some s.cq.duty → t.hasEvent .clamp = true))
      ∧ t.sc = s.sc ∧ t.tb = s.tb ∧ t.bi = s.bi ∧ t.rt = s.rt ∧ t.cq = s.cq ∧ t.fu = s.fu
      ∧ t.sp = { s.sp with events := t.sp.events } ∧ s.sp.events &&& t.sp.events = s.sp.events

/-- The adjustment of the raw compare, row by row, its consequence that both pulses are absent or at least MIN_PULSE
long, when the raw compare is PERIOD, what the validated record adds, and the rows of the worked table (R142). -/
def Obligations.CompareAdjustment : Prop :=
  (∀ raw period length minPulse : Nat,
    (raw = period → adjustCompare raw period length minPulse = length)
    ∧ (raw ≠ period → raw = 0 → adjustCompare raw period length minPulse = 0)
    ∧ (raw ≠ period → raw < minPulse → adjustCompare raw period length minPulse = 0)
    ∧ (raw ≠ period → raw ≠ 0 → minPulse ≤ raw → length < raw + minPulse →
        adjustCompare raw period length minPulse = length)
    ∧ (raw ≠ period → raw ≠ 0 → minPulse ≤ raw → raw + minPulse ≤ length →
        adjustCompare raw period length minPulse = raw)
    ∧ (let cmp := adjustCompare raw period length minPulse
       cmp = 0 ∨ cmp = length ∨ (minPulse ≤ cmp ∧ cmp + minPulse ≤ length)))
  ∧ (∀ (duty dutyMax : Word) (period : Nat), 0 < period →
      (min (compareOf duty period) (compareOf dutyMax period) = period ↔ duty = 0xFFFF ∧ dutyMax = 0xFFFF))
  ∧ (∀ r, startValid r → 2 * recordNat2 r 10 ≤ recordNat2 r 12
      ∧ 2 * (recordNat2 r 10 + recordNat2 r 12) < recordNat2 r 4)
  ∧ ∀ row ∈ ([(1000, 62258, 30, 30, 2000, 0), (45000, 62258, 1373, 1373, 2000, 1373),
      (62258, 62258, 1899, 1899, 2016, 1899), (64000, 62258, 1953, 1899, 1984, 1899),
      (64300, 62258, 1962, 1899, 2000, 1899), (65535, 65535, 2000, 2000, 2016, 2016),
      (64300, 65535, 1962, 1962, 2000, 2000), (64300, 65535, 1962, 1962, 2016, 1962)]
      : List (Nat × Nat × Nat × Nat × Nat × Nat)),
      let (duty, dutyMax, dutyCompare, raw, length, cmp) := row
      compareOf (BitVec.ofNat 16 duty) 2000 = dutyCompare
        ∧ min dutyCompare (compareOf (BitVec.ofNat 16 dutyMax) 2000) = raw
        ∧ adjustCompare raw 2000 length 40 = cmp

/-- The step of a slewing cycle: the shorter way from O to T, forward at half the period, limited to SLEW_STEP, with
the five worked rows (R126). The target: floor(slot × PERIOD / N) in the five states, for an own entry that is ACTIVE PHASE,
and absent else; a recomputation that gives the same target changes nothing, one that loses it keeps the cycle in progress,
one in RUN without blanking is a retarget and any other a jump, with PLACED (R123, R128, R129, R130). A re-anchoring takes P
from B and ends the step (R127). That the cycle was re-anchored in this count is a field that the rules imply (log 21). -/
def Obligations.SlewStepChoice : Prop :=
  (∀ period slew offset target : Nat, 0 < period → offset < period → target < period →
    ∃ d : Int, d % period = ((target : Int) - offset) % period ∧ -(period : Int) < 2 * d ∧ 2 * d ≤ period
      ∧ slewStepOf period slew offset target = max (-(slew : Int)) (min slew d)
      ∧ -(slew : Int) ≤ slewStepOf period slew offset target ∧ slewStepOf period slew offset target ≤ slew)
  ∧ slewStepOf 2000 16 500 400 = -16 ∧ slewStepOf 2000 16 1192 1200 = 8 ∧ slewStepOf 2000 16 1990 0 = 10
  ∧ slewStepOf 2000 16 1000 0 = 16 ∧ slewStepOf 1999 16 0 1000 = -16
  ∧ (∀ s : State,
      ((s.isMember = true ∨ s.isFollower = true) → s.ownEntry.state = .active → s.ownEntry.kind = .phase →
        ∃ slot, slotOf s.rt.entries s.ownId = some slot
          ∧ s.targetNow = some (slot * s.period / phaseCount s.rt.entries))
      ∧ ((s.isMember = false ∧ s.isFollower = false ∨ s.ownEntry.state ≠ .active ∨ s.ownEntry.kind ≠ .phase) →
          s.targetNow = none))
  ∧ (∀ s : State,
      (s.targetNow = s.pu.target → s.recomputeTarget = s)
      ∧ (s.targetNow = none → s.recomputeTarget = { s with pu := { s.pu with target := none } })
      ∧ (∀ old new, s.pu.target = some old → s.targetNow = some new → old ≠ new → s.os.mode = .run →
          s.os.blanking = false →
          (s.pu.offset = new → s.pu.step = 0 → s.recomputeTarget
            = { s with
                pu := { s.pu with target := some new, slewing := false }
                sp := { s.sp with
                  events := if s.pu.slewing then s.sp.events ||| Event.placed.bit else s.sp.events } })
          ∧ ((s.pu.offset ≠ new ∨ s.pu.step ≠ 0) →
              s.recomputeTarget = { s with pu := { s.pu with target := some new, slewing := true } }))
      ∧ (∀ new, s.targetNow = some new → s.pu.target ≠ some new →
          (s.os.mode ≠ .run ∨ s.os.blanking = true ∨ s.pu.target = none) → s.recomputeTarget
            = { s with
                pu := ⟨some new, new, false, 0, s.period⟩
                os := OutputStage.regate s.deadtime
                  { s.os with p := (s.tb.b + s.period - new) % s.period, anchored := true }
                sp := { s.sp with events := s.sp.events ||| Event.placed.bit } }))
  ∧ ∀ s : State,
      let o := (((s.pu.offset : Int) + s.pu.step) % (s.period : Int)).toNat
      s.reanchor.pu = ⟨s.pu.target, o, s.pu.target.elim false fun x => decide (x ≠ o), 0, s.period⟩
      ∧ s.reanchor.os = OutputStage.regate s.deadtime
          { s.os with p := (s.tb.b + s.period - o) % s.period, anchored := true }
      ∧ s.reanchor = { s with pu := s.reanchor.pu, os := s.reanchor.os, sp := s.reanchor.sp }
      ∧ s.reanchor.sp = { s.sp with events := s.reanchor.sp.events }
      ∧ (s.pu.target = some o → s.pu.slewing = true → s.reanchor.hasEvent .placed = true)

/-- The gate rule: an output is active exactly when it is requested and was active in the count before or the inactive run
has reached DT, unless an alignment released both in this count; never both; the inactive run counts the counts in which
both were inactive, up to DT (R143, R146). The levels of the count before and the release are fields that the rules imply
(log 21). -/
def Obligations.GateRule : Prop :=
  ∀ (dt : Nat) (os : OutputStage),
    ((os.regate dt).gh = true ↔ os.request = .high ∧ os.released = false ∧ (os.ghWas = true ∨ dt ≤ os.inactiveRun))
    ∧ ((os.regate dt).gl = true ↔ os.request = .low ∧ os.released = false ∧ (os.glWas = true ∨ dt ≤ os.inactiveRun))
    ∧ ¬((os.regate dt).gh = true ∧ (os.regate dt).gl = true)
    ∧ os.regate dt = { os with gh := (os.regate dt).gh, gl := (os.regate dt).gl }
    ∧ (os.nextCount dt).ghWas = os.gh ∧ (os.nextCount dt).glWas = os.gl ∧ (os.nextCount dt).released = false
    ∧ (os.release.gh = false ∧ os.release.gl = false ∧ (os.release.regate dt).gh = false
        ∧ (os.release.regate dt).gl = false)
    ∧ ((os.gh = true ∨ os.gl = true) → (os.nextCount dt).inactiveRun = 0)
    ∧ (os.gh = false → os.gl = false → (os.nextCount dt).inactiveRun = min dt (os.inactiveRun + 1))
    ∧ os.request = (if os.blanking then .neither
        else if os.mode = .off then .neither
        else if os.mode = .lowClamp then .low
        else if os.p < os.cmp then .high else .low)

/-- P reaches the latched CMP in RUN: GH goes inactive and GL waits for its deadtime. The inactive run reaches DT: the
requested gate becomes active. Nothing else changes (R139, R143). That COMPARE_MATCH as a command puts P at CMP from any
P, that DEADTIME_EXPIRY makes the inactive run DT whatever it was, and that each names a count of its own, is the model's
choice (logs 1, 21). -/
def Obligations.CompareAndDeadtime : Prop :=
  (∀ s : State, s.sc.station ≠ .setup → s.os.mode = .run → 0 < s.os.cmp → s.os.cmp < s.pu.length →
    s.os.blanking = false →
    ∃ t, exec .compareMatch s = .next t ∧ t.os.p = s.os.cmp ∧ t.os.gh = false
      ∧ (s.os.gl = true → t.os.gl = true)
      ∧ (s.os.gl = false → (t.os.gl = true ↔ s.deadtime ≤ (if s.os.gh then 0 else s.os.inactiveRun)))
      ∧ t.os.mode = s.os.mode ∧ t.os.cmp = s.os.cmp ∧ t = { s with os := t.os })
  ∧ ∀ s : State, s.sc.station ≠ .setup → s.os.gh = false → s.os.gl = false →
      ∃ t, exec .deadtimeExpiry s = .next t
        ∧ (t.os.gh = true ↔ s.os.request = .high) ∧ (t.os.gl = true ↔ s.os.request = .low)
        ∧ t.os.p = s.os.p ∧ t.os.mode = s.os.mode ∧ t.os.cmp = s.os.cmp ∧ t = { s with os := t.os }

/-- A half-cycle point clears an AUTO latch whose input is inactive and a MANUAL one that is armed and inactive, with
FAULT_OFF; every other latch stays, and so does the trip set. A member whose entry is SHED and whose last latches of class
SHED clear proposes its readmission (R148, R156, R158, R159, R166). -/
def Obligations.HalfCyclePoint : Prop :=
  (∀ s : State, s.sc.station ≠ .setup →
    ∃ t, exec .halfCyclePoint s = .next t
      ∧ (∀ i, t.inputRecord i
          = (if (s.inputRecord i).latched = true ∧ (s.inputRecord i).active = false
                ∧ ((s.input i).manual = false ∨ (s.inputRecord i).ackArmed = true)
             then { s.inputRecord i with latched := false, ackArmed := false } else s.inputRecord i))
      ∧ ((∃ i, (s.inputRecord i).latched = true ∧ (s.inputRecord i).active = false
            ∧ ((s.input i).manual = false ∨ (s.inputRecord i).ackArmed = true)) → t.hasEvent .faultOff = true)
      ∧ ((∃ i, (s.inputRecord i).latched = true ∧ (s.input i).cls = .shed) →
          (∀ i, (s.inputRecord i).latched = true → (s.input i).cls = .shed → (s.inputRecord i).active = false
            ∧ ((s.input i).manual = false ∨ (s.inputRecord i).ackArmed = true)) →
          s.sc.station = .member → s.ownEntry.state = .shed → s.fu.readmitFrame = none → s.bi.queue.length < 6 →
          (∀ e ∈ s.cq.entries, e.target = s.ownId → e.content.changesStanding = false) →
          t.bi = { s.bi with
              queue := insertFrame ⟨.propose s.cq.nextSeq (.admission s.sp.fingerprint s.ownKind), 0, false⟩ s.bi.queue }
          ∧ t.fu.readmitFrame = some ⟨s.ownId, s.cq.nextSeq⟩ ∧ t.cq.nextSeq = s.cq.nextSeq + 1)
      ∧ t.SameShared s ∧ t.sc = s.sc ∧ t.tb = s.tb ∧ t.sp.record = s.sp.record ∧ t.sp.tickets = s.sp.tickets)
  ∧ (∀ s : State, s.readmissionTestPassed = true ↔ s.sc.station = .member ∧ s.ownEntry.state = .shed
      ∧ (∀ i, (s.inputRecord i).latched = true → (s.input i).cls ≠ .shed) ∧ s.fu.readmitFrame = none
      ∧ ∀ e ∈ s.cq.entries, e.target = s.ownId → e.content.changesStanding = false)
  ∧ (∀ c : ProposalContent, c.changesStanding = true ↔ c = .shed ∨ (∃ fp k, c = .admission fp k) ∨ ∃ i r, c = .remove i r)
  ∧ ∀ s : State,
      (s.readmissionTestPassed = true → s.bi.queue.length < 6 →
        s.readmissionTest.bi = { s.bi with
              queue := insertFrame ⟨.propose s.cq.nextSeq (.admission s.sp.fingerprint s.ownKind), 0, false⟩ s.bi.queue }
        ∧ s.readmissionTest.cq = { s.cq with nextSeq := s.cq.nextSeq + 1 }
        ∧ s.readmissionTest.fu.readmitFrame = some ⟨s.ownId, s.cq.nextSeq⟩)
      ∧ ((s.readmissionTestPassed = false ∨ 6 ≤ s.bi.queue.length) → s.readmissionTest = s)

/-! ### Fault inputs -/

/-- A filtered activation latches the input, clears ack armed, counts it and raises FAULT_ON; an input of action OFF or
class TRIP turns the outputs OFF at once, one of action LOW_CLAMP alone clamps a member's; one of class TRIP in MEMBER or
LEAVING fills the TRIP slot; one of class SHED proposes the shed of a MEMBER that holds a slot, or withdraws the own ADMIT
while it is OPEN. The shed test and the withdrawal test by their conditions. Every entry to MEMBER, founding among them, makes
the shed test and the readmission test at once. A filtered release clears the level alone (R136, R137, R153, R154, R163, R165,
R166, R167, R168). The levels of the count before and the release of the gates are fields
that the rules imply (log 21). -/
def Obligations.FaultInputs : Prop :=
  (∀ (i : InputNo) (s : State), s.sc.station ≠ .setup → (s.input i).cls ≠ .unused → (s.inputRecord i).active = false →
    ∃ t, exec (.faultActivation i) s = .next t
      ∧ t.inputRecord i = ⟨true, 0, true, false, min 255 ((s.inputRecord i).activations + 1)⟩
      ∧ (∀ j, j ≠ i → t.inputRecord j = s.inputRecord j)
      ∧ t.hasEvent .faultOn = true
      ∧ (((s.input i).cls = .trip ∨ (s.input i).lowClamp = false) → s.os.GatesOk → t.OutputsOff)
      ∧ (s.isMember = true → s.ownKind = .phase → s.fu.tripSet = 0 → (s.input i).cls ≠ .trip →
          (s.input i).lowClamp = true →
          (∀ j, (s.inputRecord j).latched = true → (s.input j).cls ≠ .trip ∧ (s.input j).lowClamp = true) →
          t.os.mode = .lowClamp ∧ t.genAsserted = true
          ∧ (s.os.mode ≠ .lowClamp → t.os.gh = false ∧ (t.os.gl = true ↔ s.os.blanking = false ∧ s.os.released = false
              ∧ (s.os.glWas = true ∨ s.deadtime ≤ s.os.inactiveRun))))
      ∧ ((s.input i).cls = .trip → s.isMember = true →
          ∃ x, t.bi.tripSlot = some x ∧ x.attempts = 0 ∧ x.fields = ⟨BitVec.ofNat 8 (allInputs.idxOf i), s.tb.en⟩)
      ∧ (((s.input i).cls ≠ .trip ∨ s.isMember = false) → t.bi.tripSlot = s.bi.tripSlot)
      ∧ ((s.input i).cls = .shed → s.sc.station = .member → s.ownEntry.state = .active → s.ownEntry.kind = .phase →
          (∀ e ∈ s.cq.entries, e.target = s.ownId → e.content ≠ .shed ∧ ∀ k r, e.content ≠ .remove k r) →
          s.fu.shedFrame = none → (∀ y ∈ s.bi.queue, y.body.isRemoveOf s.ownId = false) → s.bi.queue.length < 6 →
          ⟨.propose s.cq.nextSeq .shed, 0, false⟩ ∈ t.bi.queue ∧ t.fu.shedFrame = some ⟨s.ownId, s.cq.nextSeq⟩
          ∧ t.cq.nextSeq = s.cq.nextSeq + 1)
      ∧ (∀ e, (s.input i).cls = .shed → (s.sc.station = .joining ∨ (s.sc.station = .member ∧ s.ownEntry.state = .shed)) →
          s.ownAdmit = some e → e.phase = .openPhase → s.withdrawalQueued e.id = false → s.bi.queue.length < 6 →
          t.bi.queue = insertFrame ⟨.object e.id .withdrawn, 0, false⟩ s.bi.queue)
      ∧ t.SameShared s ∧ t.sc = s.sc ∧ t.tb = s.tb ∧ t.sp.record = s.sp.record ∧ t.sp.tickets = s.sp.tickets)
  ∧ (∀ s : State, s.shedTestPassed = true ↔ s.sc.station = .member ∧ s.ownEntry.state = .active ∧ s.ownEntry.kind = .phase
      ∧ (∃ i, (s.inputRecord i).latched = true ∧ (s.input i).cls = .shed)
      ∧ (∀ e ∈ s.cq.entries, e.target = s.ownId → e.content ≠ .shed ∧ ∀ k r, e.content ≠ .remove k r)
      ∧ s.fu.shedFrame = none ∧ ∀ y ∈ s.bi.queue, y.body.isRemoveOf s.ownId = false)
  ∧ (∀ s : State,
      (s.shedTestPassed = true → s.bi.queue.length < 6 →
        s.shedTest.bi = { s.bi with queue := insertFrame ⟨.propose s.cq.nextSeq .shed, 0, false⟩ s.bi.queue }
        ∧ s.shedTest.cq = { s.cq with nextSeq := s.cq.nextSeq + 1 }
        ∧ s.shedTest.fu.shedFrame = some ⟨s.ownId, s.cq.nextSeq⟩)
      ∧ ((s.shedTestPassed = false ∨ 6 ≤ s.bi.queue.length) → s.shedTest = s))
  ∧ (∀ (s : State) (e : QueueEntry), s.ownAdmit = some e →
      ((s.sc.station = .joining ∨ s.sc.station = .member) → s.classLatched .shed = true → e.phase = .openPhase →
        s.withdrawalQueued e.id = false → s.bi.queue.length < 6 →
        s.withdrawalTest.bi = { s.bi with queue := insertFrame ⟨.object e.id .withdrawn, 0, false⟩ s.bi.queue }
        ∧ s.withdrawalTest.cq = s.cq)
      ∧ ((s.sc.station ≠ .joining ∧ s.sc.station ≠ .member ∨ s.classLatched .shed = false ∨ e.phase = .firm
          ∨ s.withdrawalQueued e.id = true ∨ 6 ≤ s.bi.queue.length) → s.withdrawalTest = s))
  ∧ (∀ s : State, s.ownAdmit = none → s.withdrawalTest = s)
  ∧ (∀ s t : State, s.sc.station ≠ .member → s.sc.leavePending = false → s.bi.queue.length < 6 →
      ((t = s.becomeMember ∧ s.ownEntry.state = .active ∧ s.ownEntry.kind = .phase
          ∧ ∀ e ∈ s.cq.entries, e.target = s.ownId → e.content ≠ .shed ∧ ∀ k r, e.content ≠ .remove k r)
        ∨ (t = s.found ∧ s.ownKind = .phase)) →
      s.classLatched .shed = true → s.fu.shedFrame = none → (∀ y ∈ s.bi.queue, y.body.isRemoveOf s.ownId = false) →
      t.sc.station = .member ∧ ⟨.propose s.cq.nextSeq .shed, 0, false⟩ ∈ t.bi.queue
      ∧ t.fu.shedFrame = some ⟨s.ownId, s.cq.nextSeq⟩ ∧ t.cq.nextSeq = s.cq.nextSeq + 1)
  ∧ (∀ s : State, s.sc.station ≠ .member → s.sc.leavePending = false → s.bi.queue.length < 6 →
      s.ownEntry.state = .shed → s.classLatched .shed = false → s.fu.readmitFrame = none →
      (∀ e ∈ s.cq.entries, e.target = s.ownId → e.content.changesStanding = false) →
      let t := s.becomeMember
      t.sc.station = .member ∧ ⟨.propose s.cq.nextSeq (.admission s.sp.fingerprint s.ownKind), 0, false⟩ ∈ t.bi.queue
      ∧ t.fu.readmitFrame = some ⟨s.ownId, s.cq.nextSeq⟩ ∧ t.cq.nextSeq = s.cq.nextSeq + 1)
  ∧ (∀ s : State, s.returnToMember = s.becomeMember.settle ∧ (s.ownEntry.state ≠ .absent →
      s.enterGroup = s.becomeMember.settle.jumpToTarget.settle))
  ∧ ∀ (i : InputNo) (s : State), s.sc.station ≠ .setup → (s.input i).cls ≠ .unused → (s.inputRecord i).active = true →
      ∃ t, exec (.faultRelease i) s = .next t
        ∧ t.inputRecord i = { s.inputRecord i with active := false, disagree := 0 }
        ∧ (∀ j, j ≠ i → t.inputRecord j = s.inputRecord j)
        ∧ t.fu.tripSet = s.fu.tripSet ∧ t.fu.lastTrip = s.fu.lastTrip ∧ t.fu.shedFrame = s.fu.shedFrame
        ∧ t.fu.readmitFrame = s.fu.readmitFrame ∧ t = { s with fu := t.fu }

/-! ### The bus line and the attempts -/

/-- The SBD line. Its events change the line and the receive context; STUCK raises LINE, and a boundary on a STUCK line counts an
epoch more, to ISOLATED for DATA_STUCK at LOSS_EPOCHS. One station clock of it: the own drive, the sample, the falling edge of a start bit, of
a bit and of the reject bit, the three samples of a bit and what a transmitter reads back, a format error, the vote slot with its
outcome, the line states, and the attempt that an IDLE line allows (R18, R43 to R46, R48 to R54). The runs of equal samples, of
which the recessive one begins with the sample that releases STUCK, are timers that the rules imply, and their places in the
clock, which clock ends the first quarter bit and what the clock of an outcome is are the model's choice (log 22); so is it that
the end of an error flag where none is driven has no effect (log 33). That the stuck count is 0 while no count is due is an
inference (log 8). -/
def Obligations.LineEvents : Prop :=
  (∀ s : State, s.sc.station ≠ .setup →
    exec .lineIdle s = .next { s with bi := { s.bi with line := .idle, rx := none } }
    ∧ (s.bi.line ≠ .stuck → exec .lineStuck s = .next { s with
        bi := { s.bi with line := .stuck, rx := none }
        sp := { s.sp with events := s.sp.events ||| Event.line.bit } })
    ∧ (s.bi.line = .stuck → exec .lineStuckRelease s
        = .next { s with bi := { s.bi with line := .busy, dominantRun := 0, recessiveRun := 1 } })
    ∧ (s.bi.errorFlagLeft = 0 → exec .errorFlagEnd s = .next s))
  ∧ (∀ s : State,
      ((s.bi.line ≠ .stuck ∨ s.canIsolate = false) → s.countStuck = { s with bi := { s.bi with stuckEpochs := 0 } })
      ∧ (s.bi.line = .stuck → s.canIsolate = true → s.bi.stuckEpochs + 1 < s.lossEpochs →
          s.countStuck = { s with bi := { s.bi with stuckEpochs := s.bi.stuckEpochs + 1 } })
      ∧ (s.bi.line = .stuck → s.canIsolate = true → s.lossEpochs ≤ s.bi.stuckEpochs + 1 →
          s.countStuck.sc.station = .isolated ∧ s.countStuck.sc.reason = .dataStuck ∧ s.countStuck.NoCopy
          ∧ s.countStuck.sp.tickets = s.ticketsVoided .isolated
          ∧ (s.os.GatesOk → s.countStuck.OutputsOff) ∧ s.countStuck.hasEvent .state = true))
  ∧ (∀ s u v : State, u = s.driveFlag.lineTimers s.sbdDominant →
      v = ((((if s.sbdDominant = true ∧ s.bi.wasDominant = false then u.busEdge s.bi.recessiveRun else u).busSample
        s.sbdDominant).busErrors s.sbdDominant).busSlot).busLine.ageAttempt →
      (v.bi.line = .idle → exec (.transmissionAttempt false) v = .next s.tickBus)
      ∧ (v.bi.line ≠ .idle → s.tickBus = v))
  ∧ (∀ s : State, (s.sbdDominant = true ↔ s.pins.sbdPulled = true ∨ (s.pullsSbd = true ∧ s.pins.sbdOpen = false))
      ∧ (s.pullsSbd = true ↔ (∃ a, s.bi.attempt = some a ∧ s.attemptPulls a = true)
          ∨ (s.isMember = true ∧ (s.bi.errorFlagLeft ≠ 0 ∨ ∃ rx n, s.bi.rx = some rx ∧ rx.rejecting = true
              ∧ rx.slotAge = some n ∧ n < 3 * s.bitTime / 4)))
      ∧ (∀ a : Attempt, s.attemptPulls a = true ↔
          (a.bits[a.age / s.bitTime]? = some true ∧ a.age % s.bitTime < s.bitTime / 4)
          ∨ (a.bits[a.age / s.bitTime]? = some false ∧ a.age % s.bitTime < 3 * s.bitTime / 4))
      ∧ (s.bi.errorFlagLeft = 1 → exec .errorFlagEnd s = .next s.driveFlag)
      ∧ (s.bi.errorFlagLeft ≠ 1 →
          s.driveFlag = { s with bi := { s.bi with errorFlagLeft := s.bi.errorFlagLeft - 1 } })
      ∧ s.lineTimers true = { s with bi := { s.bi with
          wasDominant := true, dominantRun := min (3 * s.bitTime + 1) (s.bi.dominantRun + 1), recessiveRun := 0
          edgeAge := if s.bi.wasDominant then min (2 * s.bitTime) (s.bi.edgeAge + 1) else 0 } }
      ∧ s.lineTimers false = { s with bi := { s.bi with
          wasDominant := false, dominantRun := 0, recessiveRun := min (12 * s.bitTime) (s.bi.recessiveRun + 1)
          edgeAge := min (2 * s.bitTime) (s.bi.edgeAge + 1) } })
  ∧ (∀ (idleFor : Nat) (s : State),
      (s.bi.line = .idle →
        s.startBit = { s with bi := { s.bi with
          line := .busy, recessiveRun := 0, edgeAge := 0
          rx := if s.followsFrames then some RxContext.fresh else none } }
        ∧ (idleFor ≤ 11 * s.bitTime + s.bitTime / 4 →
            exec (.transmissionAttempt true) s.startBit = .next (s.busEdge idleFor))
        ∧ (11 * s.bitTime + s.bitTime / 4 < idleFor → s.busEdge idleFor = s.startBit))
      ∧ (s.bi.line ≠ .idle → s.bi.rx = none → s.busEdge idleFor = s)
      ∧ ∀ rx, s.bi.line ≠ .idle → s.bi.rx = some rx →
          (rx.lost = true → s.busEdge idleFor = { s with bi := { s.bi with rx := some { rx with sawEdge := true } } })
          ∧ (rx.lost = false → rx.slotAge ≠ none → s.busEdge idleFor = s)
          ∧ (rx.lost = false → rx.slotAge = none → bodyRead rx.bits = true → s.busEdge idleFor = { s with bi := { s.bi with
              rx := some { rx with taken := 0, dominant := 0, slotAge := some 0
                                   rejecting := s.isMember && (rx.error || s.slotInGuard) } } })
          ∧ (rx.lost = false → rx.slotAge = none → bodyRead rx.bits = false → s.busEdge idleFor = { s with bi := { s.bi with
              rx := some { rx with taken := 0, dominant := 0 } } }))
  ∧ (∀ (dominant : Bool) (s : State), s.bi.rx = none →
      ((s.bi.attempt = none ∨ ∃ a, s.bi.attempt = some a ∧ a.age < 9 * s.bitTime / 16) → s.busSample dominant = s)
      ∧ ∀ a, s.bi.attempt = some a → 9 * s.bitTime / 16 ≤ a.age →
          exec .driveReadbackFail s = .next (s.busSample dominant))
  ∧ (∀ (dominant : Bool) (rx now : RxContext) (age : Nat) (s : State), s.bi.rx = some rx →
      age = rx.slotAge.getD (s.bi.attempt.elim s.bi.edgeAge fun a => a.age % s.bitTime) →
      now = { rx with taken := rx.taken + 1, dominant := rx.dominant + dominant.toNat } →
      ((rx.lost = true ∨ (age ≠ 7 * s.bitTime / 16 ∧ age ≠ 8 * s.bitTime / 16 ∧ age ≠ 9 * s.bitTime / 16)) →
        s.busSample dominant = s)
      ∧ (rx.lost = false → age ∈ [7 * s.bitTime / 16, 8 * s.bitTime / 16, 9 * s.bitTime / 16] →
          (rx.taken < 2 → s.busSample dominant = { s with bi := { s.bi with rx := some now } })
          ∧ (2 ≤ rx.taken → rx.slotAge ≠ none → s.busSample dominant = { s with bi := { s.bi with
              rx := some { now with accepted := some (decide (now.dominant < 2)) } } })
          ∧ (2 ≤ rx.taken → rx.slotAge = none → bodyRead rx.bits = true → s.busSample dominant = s)
          ∧ (2 ≤ rx.taken → rx.slotAge = none → bodyRead rx.bits = false →
              s.busSample dominant = s.decideBit now (decide (now.dominant < 2)))))
  ∧ (∀ (read : Bool) (rx old : RxContext) (bits : List Bool) (s u : State), s.bi.rx = some old →
      bits = rx.bits ++ [read] →
      u = State.readBack rx.bits.length read { s with bi := { s.bi with
        rx := some { rx with bits := bits, taken := 0, dominant := 0
                             error := bodyRead bits && !checkHolds bits } } } →
      (headerRead bits = true → 20 < heardLength bits → exec .formatError u = .next (s.decideBit rx read))
      ∧ ((headerRead bits = false ∨ heardLength bits ≤ 20) → s.decideBit rx read = u))
  ∧ (∀ (index : Nat) (read : Bool) (s : State),
      (s.bi.attempt = none → s.readBack index read = s)
      ∧ ∀ a, s.bi.attempt = some a →
          ((a.bits[index]? = none ∨ a.bits[index]? = some read) → s.readBack index read = s)
          ∧ (a.bits[index]? = some false → read = true →
              exec .driveReadbackFail s = .next (s.readBack index read))
          ∧ (a.bits[index]? = some true → read = false → index < 8 →
              exec .arbitrationLost s = .next (s.readBack index read))
          ∧ (a.bits[index]? = some true → read = false → 8 ≤ index → ∀ rx, s.bi.rx = some rx →
              s.readBack index read = { s with bi := { s.bi with rx := some { rx with mismatch := true } } }))
  ∧ (∀ (dominant : Bool) (s : State), (s.bi.rx = none → s.busErrors dominant = s)
      ∧ ∀ rx, s.bi.rx = some rx →
          let overlong := s.bitTime < s.bi.dominantRun
          (rx.lost = true → s.busErrors dominant = { s with bi := { s.bi with
            rx := some { rx with sawFlag := rx.sawFlag || decide overlong } } })
          ∧ (rx.lost = false → rx.slotAge ≠ none → s.busErrors dominant = s)
          ∧ (rx.lost = false → rx.slotAge = none → (overlong ∨ 3 * s.bitTime / 2 < s.bi.edgeAge) →
              ∃ u, exec .formatError s = .next u ∧ s.busErrors dominant = { u with bi := { u.bi with
                rx := u.bi.rx.map fun r => { r with sawFlag := decide overlong } } })
          ∧ (rx.lost = false → rx.slotAge = none → ¬overlong → s.bi.edgeAge ≤ 3 * s.bitTime / 2 →
              (rx.mismatch = true → dominant = false →
                exec .bodyClash { s with bi := { s.bi with rx := some { rx with mismatch := false } } }
                  = .next (s.busErrors dominant))
              ∧ ((rx.mismatch = false ∨ dominant = true) → s.busErrors dominant = s)))
  ∧ (∀ s : State, (s.bi.rx = none → s.busSlot = s)
      ∧ ∀ rx, s.bi.rx = some rx → (rx.slotAge = none → s.busSlot = s)
          ∧ ∀ n, rx.slotAge = some n →
              (n < 2 * s.bitTime → n ≠ s.bitTime → (rx.rejecting = false ∨ s.isMember = false ∨ n ≠ 3 * s.bitTime / 4) →
                s.busSlot = { s with bi := { s.bi with rx := some { rx with slotAge := some (n + 1) } } })
              ∧ (n = s.bitTime → 0 < s.bitTime →
                  s.busSlot = { s with bi := { s.bi with
                    recessiveRun := min 1 s.bi.recessiveRun, rx := some { rx with slotAge := some (n + 1) } } })
              ∧ (2 * s.bitTime ≤ n → rx.accepted = some true → rx.error = false →
                  exec (heardFrame rx.bits) s = .next s.busSlot)
              ∧ (2 * s.bitTime ≤ n → rx.accepted = some true → rx.error = true →
                  (s.isFollower = true → exec (.frameMissed true) s = .next s.busSlot)
                  ∧ (s.isFollower = false → s.bi.attempt = none → s.busSlot = s.afterFrame)
                  ∧ (s.isFollower = false → s.sc.station ≠ .setup →
                      exec .arbitrationLost s.afterFrame = .next s.busSlot))
              ∧ (2 * s.bitTime ≤ n → rx.accepted ≠ some true →
                  exec (.frameDiscarded false false) s = .next s.busSlot))
  ∧ ∀ s : State,
      (s.bi.line = .stuck → s.bi.wasDominant = true → s.busLine = s)
      ∧ (s.bi.line = .stuck → s.bi.wasDominant = false → exec .lineStuckRelease s = .next s.busLine)
      ∧ (s.bi.line ≠ .stuck → 3 * s.bitTime < s.bi.dominantRun → exec .lineStuck s = .next s.busLine)
      ∧ (s.bi.line ≠ .stuck → s.bi.dominantRun ≤ 3 * s.bitTime →
          ((s.bi.line = .idle ∨ s.bi.attempt ≠ none ∨ s.bi.recessiveRun < 11 * s.bitTime) → s.busLine = s)
          ∧ (s.bi.line = .busy → s.bi.attempt = none → 11 * s.bitTime ≤ s.bi.recessiveRun →
              ∃ u, exec .lineIdle s = .next u
                ∧ ((∃ rx, s.bi.rx = some rx ∧ rx.lost = true ∧ rx.sawFlag = false ∧ rx.sawEdge = true) →
                    exec (.frameMissed false) u = .next s.busLine)
                ∧ ((∀ rx, s.bi.rx = some rx → rx.lost = false ∨ rx.sawFlag = true ∨ rx.sawEdge = false) →
                    s.busLine = u)))
      ∧ s.ageAttempt = { s with bi := { s.bi with
          attempt := s.bi.attempt.map fun a => { a with age := a.age + 1 } } }

/-- A transmission attempt begins in a station that transmits, on an idle line or by joining a start bit, with the frame
that R56 chooses and only if it fits before the boundary. Where a condition fails nothing happens. The frame: the TRIP first,
then the first one that the table of R56 allows in the station state; a PROPOSE of each kind with F, which is EN + COMMIT_LEAD
of this instant, an OBJECT with its reason, and a ROSTER_REPLY with the state of this instant. The line is BUSY with the start
bit that an attempt joins, and with its own only when that falls on SBD (R45, R48, R51, R56, R58, R83, R95, R194). -/
def Obligations.TransmissionAttempt : Prop :=
  (∀ (joining : Bool) (f : Instr) (s : State), (s.isMember = true ∨ s.isFollower = true) → s.bi.attempt = none →
    (s.bi.line = .idle ∨ (joining = true ∧ s.bi.line = .busy)) → s.nextFrame = some f →
    s.lockWindow + 16 ≤ s.pos →
    (35 + 8 * frameLength f) * s.bitTime + (s.lockWindow + 16) * s.prescale ≤ (s.epochCounts - s.pos) * s.prescale →
    ∃ t, exec (.transmissionAttempt joining) s = .next t
      ∧ t.bi.attempt = some ⟨f, frameBitsOf f, false, 0⟩
      ∧ (joining = true → t.bi.line = .busy ∧ t.bi.rx = some RxContext.fresh)
      ∧ (joining = false → t.bi.line = s.bi.line ∧ t.bi.rx = s.bi.rx)
      ∧ t.bi.queue.map (·.body) = s.bi.queue.map (·.body)
      ∧ t.bi.queue.map (·.attempts) = s.bi.queue.map (·.attempts)
      ∧ t = { s with bi := t.bi })
  ∧ (∀ (joining : Bool) (s : State),
      (s.nextFrame = none ∨ (s.isMember = false ∧ s.isFollower = false) ∨ s.bi.attempt ≠ none
        ∨ s.bi.line = .stuck ∨ (joining = false ∧ s.bi.line ≠ .idle) ∨ s.pos < s.lockWindow + 16
        ∨ ∃ f, s.nextFrame = some f ∧ (s.epochCounts - s.pos) * s.prescale
            < (35 + 8 * frameLength f) * s.bitTime + (s.lockWindow + 16) * s.prescale) →
      exec (.transmissionAttempt joining) s = .next s)
  ∧ (∀ (b : QueuedBody) (s : State), s.eligible b = true ↔
      ((∃ f, b = .beat f) ∧ s.sc.station ∈ [.member, .leaving, .resync])
      ∨ (((∃ id r, b = .object id r) ∨ (∃ seq c, b = .propose seq c) ∨ ∃ asker, b = .reply asker)
          ∧ s.sc.station ∈ [.member, .leaving])
      ∨ (b = .query ∧ s.sc.station ∈ [.listen, .resync])
      ∨ (s.sc.station = .joining
          ∧ ((∃ seq fp kind, b = .propose seq (.admission fp kind) ∧ s.sc.tracked = some ⟨s.ownId, seq⟩)
            ∨ ∃ id, b = .object id .withdrawn ∧ s.sc.tracked = some id)))
  ∧ (∀ (x : SlotTrip) (s : State), s.isMember = true → s.bi.tripSlot = some x →
      s.nextFrame = some (.tripAccepted s.ownId x.fields))
  ∧ (∀ s : State, (s.isMember = false ∨ s.bi.tripSlot = none) → (∀ y ∈ s.bi.queue, s.eligible y.body = false) →
      s.nextFrame = none)
  ∧ ∀ (x : QueuedFrame) (s : State), (s.isMember = false ∨ s.bi.tripSlot = none) →
      s.bi.queue.find? (fun y => s.eligible y.body) = some x →
      let f := s.tb.en + s.commitLead
      (∀ fields, x.body = .beat fields → s.nextFrame = some (.beatAccepted s.ownId fields))
      ∧ (x.body = .query → s.nextFrame = some (.rosterQueryAccepted s.ownId))
      ∧ (∀ seq fp, x.body = .propose seq (.admission fp .phase) →
          s.nextFrame = some (.proposeAccepted s.ownId ⟨1, 0, seq, f, fp ++ 0x00#8⟩))
      ∧ (∀ seq fp, x.body = .propose seq (.admission fp .observer) →
          s.nextFrame = some (.proposeAccepted s.ownId ⟨1, 0, seq, f, fp ++ 0x01#8⟩))
      ∧ (∀ seq i, x.body = .propose seq (.remove i .left) →
          s.nextFrame = some (.proposeAccepted s.ownId ⟨2, nibbleOfStation i, seq, f, 0x010000⟩))
      ∧ (∀ seq i, x.body = .propose seq (.remove i .lost) →
          s.nextFrame = some (.proposeAccepted s.ownId ⟨2, nibbleOfStation i, seq, f, 0x020000⟩))
      ∧ (∀ seq, x.body = .propose seq .shed →
          s.nextFrame = some (.proposeAccepted s.ownId ⟨3, 0, seq, f, 0x000000⟩))
      ∧ (∀ seq d, x.body = .propose seq (.demand d) →
          s.nextFrame = some (.proposeAccepted s.ownId ⟨4, 0, seq, f, d ++ 0x00#8⟩))
      ∧ (∀ seq i, x.body = .propose seq (.clearTrip i) →
          s.nextFrame = some (.proposeAccepted s.ownId ⟨5, nibbleOfStation i, seq, f, 0x000000⟩))
      ∧ (∀ p ∈ ([(.dutyLimit, 1), (.withdrawn, 2), (.stillActive, 3), (.present, 4)] : List (ObjectReason × Byte)),
          ∀ id, x.body = .object id p.1 →
            s.nextFrame = some (.objectAccepted s.ownId ⟨nibbleOfStation id.origin, id.seq, p.2⟩))
      ∧ ∀ asker, x.body = .reply asker → s.nextFrame = some (.rosterReplyAccepted s.ownId
          { asker := nibbleOfStation asker, en := s.tb.en, roster := rosterCode s.rt.entries, duty := s.cq.duty
            tripSet := s.fu.tripSet, digest := digestOfCode (rosterCode s.rt.entries) s.cq.duty s.fu.tripSet
            fingerprint := s.sp.fingerprint })

/-- Arbitration is lost: the frame stays queued with its attempt count and nothing is in flight, a TRIP stays in its slot; a
joiner with a STOP taken in flight goes to DORMANT instead, and a PROPOSE with a withdraw request is dropped and its ticket
ABANDONED, which takes a station that was LEAVING by it back to MEMBER (R11, R13, R49, R61, R179). That with no attempt in
flight nothing happens is the model's choice (log 33). -/
def Obligations.ArbitrationLost : Prop :=
  (∀ (a : Attempt) (x : QueuedFrame) (s : State), s.sc.station ≠ .setup → s.bi.attempt = some a →
    s.bi.queue.find? (·.inFlight) = some x → (∀ y ∈ s.bi.queue, y.inFlight = true → y = x) →
    (∀ seq d, x.body = .propose seq d →
      ¬(s.sc.station = .joining ∧ s.sc.tracked = some ⟨s.ownId, seq⟩ ∧ s.sc.leavePending = true)
      ∧ ∀ z ∈ s.sp.tickets, z.unfinished = true → z.number = seq → z.kind.fits d = true → z.withdrawRequest = false) →
    exec .arbitrationLost s = .next { s with bi := { s.bi with
      attempt := none
      tripSlot := s.bi.tripSlot.map fun y => { y with inFlight := false }
      queue := s.bi.queue.map fun y => if y.inFlight then { y with inFlight := false } else y } })
  ∧ (∀ s : State, s.bi.attempt = none → exec .arbitrationLost s = .next s)
  ∧ (∀ (a : Attempt) (s : State), s.sc.station ≠ .setup → s.bi.attempt = some a →
      (∀ y ∈ s.bi.queue, y.inFlight = false) →
      exec .arbitrationLost s = .next { s with bi := { s.bi with
        attempt := none, tripSlot := s.bi.tripSlot.map fun y => { y with inFlight := false } } })
  ∧ (∀ (a : Attempt) (x : QueuedFrame) (seq : Byte) (d : ProposalContent) (s : State), s.sc.station = .joining →
      s.sc.leavePending = true → s.sc.tracked = some ⟨s.ownId, seq⟩ → s.bi.attempt = some a →
      s.bi.queue.find? (·.inFlight) = some x → x.body = .propose seq d →
      ∃ t, exec .arbitrationLost s = .next t ∧ t.sc.station = .dormant ∧ t.bi.queue = [] ∧ t.bi.attempt = none
        ∧ t.SameShared s ∧ (s.os.GatesOk → t.OutputsOff))
  ∧ ∀ (a : Attempt) (x : QueuedFrame) (seq : Byte) (d : ProposalContent) (z : Ticket) (s : State),
      s.isMember = true → s.bi.attempt = some a → s.bi.queue.find? (·.inFlight) = some x → x.body = .propose seq d →
      z ∈ s.sp.tickets → z.unfinished = true → z.number = seq → z.kind.fits d = true → z.reserved = false →
      z.withdrawRequest = true → (s.sc.station = .leaving → s.sc.leavePending = false) →
      ∃ t, exec .arbitrationLost s = .next t ∧ t.bi.attempt = none ∧ (∀ y ∈ t.bi.queue, y.body ≠ x.body)
        ∧ { z with state := .abandoned, withdrawRequest := false, withdrawQueued := false } ∈ t.sp.tickets
        ∧ t.hasEvent .ticket = true ∧ t.SameShared s ∧ t.tb = s.tb
        ∧ (¬(s.sc.station = .leaving ∧ s.sc.tracked = some ⟨s.ownId, seq⟩) → t.sc = s.sc)
        ∧ (s.sc.station = .leaving → s.sc.tracked = some ⟨s.ownId, seq⟩ →
            t.sc.station = .member ∧ t.sc.tracked = none ∧ t.hasEvent .state = true)

/-- A body clash raises BODY_CLASH and opens the clash window, which counts 16 boundaries; the second clash within it halts
the station with ID_CONFLICT. A drive that does not reach the line raises LINE. In both, and where a format error ends the own
frame or its vote discards it, the frame has one attempt more, and at the fourth it is
dropped with TX_ABANDONED and its ticket is ABANDONED; a joiner goes to LISTEN with its copy or to DORMANT, a station that
was LEAVING by it to MEMBER; at the third in a row the station is confined. A TRIP has no attempt limit. A STOP or a
WITHDRAW taken in flight acts at the end of the attempt (R8, R11, R13, R19, R43, R44, R50, R54, R61, R62, R63, R179). Where
several of these outcomes fall together, their order, the halt before the abandonment, and the abandonment and the
confinement before a STOP or a WITHDRAW taken in flight, is the model's choice (log 16). -/
def Obligations.FailedAttempts : Prop :=
  (∀ (c : Instr) (ev : Option Event) (a : Attempt) (x : QueuedFrame) (s : State),
    ((c = .bodyClash ∧ ev = some .bodyClash ∧ s.bi.clashWindow = none) ∨ (c = .driveReadbackFail ∧ ev = some .line)
      ∨ (c = .formatError ∧ ev = none ∧ s.followsFrames = true)
      ∨ ((∃ reached mismatch, c = .frameDiscarded reached mismatch) ∧ ev = none ∧ s.followsFrames = true
          ∧ s.bi.rejectCount < 7)) →
    s.sc.station ≠ .setup → s.bi.attempt = some a → a.beatReplaced = false →
    s.bi.queue.find? (·.inFlight) = some x → (∀ y ∈ s.bi.queue, y.inFlight = true → y = x) →
    ∃ t, exec c s = .next t ∧ (∀ e, ev = some e → t.hasEvent e = true) ∧ t.bi.attempt = none
      ∧ (c = .formatError → s.isMember = true → t.isMember = true →
          t.bi.errorFlagLeft = 3 * s.bitTime / 2 ∧ t.bi.rx = none)
      ∧ ((∃ reached mismatch, c = .frameDiscarded reached mismatch) → t.bi.rx = none)
      ∧ (x.attempts < 3 →
          (∀ seq d, x.body = .propose seq d →
            ¬(s.sc.station = .joining ∧ s.sc.tracked = some ⟨s.ownId, seq⟩ ∧ s.sc.leavePending = true)
            ∧ ∀ z ∈ s.sp.tickets, z.unfinished = true → z.number = seq → z.kind.fits d = true →
                z.withdrawRequest = false) →
          t.bi.queue = s.bi.queue.map (fun y => if y.inFlight then { y with attempts := x.attempts + 1, inFlight := false } else y)
          ∧ t.bi.abandonCount = s.bi.abandonCount
          ∧ t.bi.clashWindow = (if c = .bodyClash then some 0 else s.bi.clashWindow)
          ∧ t.sc = s.sc ∧ t.SameShared s ∧ t.tb = s.tb ∧ t.os = s.os)
      ∧ (x.attempts < 3 → ∀ seq d, x.body = .propose seq d → s.sc.station = .joining →
          s.sc.tracked = some ⟨s.ownId, seq⟩ → s.sc.leavePending = true →
          t.sc.station = .dormant ∧ t.bi.queue = [] ∧ t.SameShared s)
      ∧ (x.attempts < 3 → s.isMember = true → ∀ seq d, ∀ z ∈ s.sp.tickets, x.body = .propose seq d →
          z.unfinished = true → z.number = seq → z.kind.fits d = true → z.reserved = false → z.withdrawRequest = true →
          (s.sc.station = .leaving → s.sc.leavePending = false) →
          { z with state := .abandoned, withdrawRequest := false, withdrawQueued := false } ∈ t.sp.tickets
          ∧ (∀ y ∈ t.bi.queue, y.body ≠ x.body) ∧ t.hasEvent .ticket = true ∧ t.SameShared s
          ∧ (s.sc.station = .leaving → s.sc.tracked = some ⟨s.ownId, seq⟩ → t.sc.station = .member))
      ∧ (x.attempts = 3 → t.hasEvent .txAbandoned = true
          ∧ ∀ seq d, x.body = .propose seq d → ∀ z ∈ s.sp.tickets, z.unfinished = true → z.number = seq →
              z.kind.fits d = true → z.reserved = false → (s.sc.station = .leaving → s.sc.leavePending = false) →
              { z with state := .abandoned, withdrawRequest := false, withdrawQueued := false } ∈ t.sp.tickets
              ∧ t.hasEvent .ticket = true)
      ∧ (x.attempts = 3 → s.bi.abandonCount < 2 →
          (∀ seq d, x.body = .propose seq d → s.sc.tracked ≠ some ⟨s.ownId, seq⟩) →
          t.bi.queue = s.bi.queue.filter (fun y => !y.inFlight) ∧ t.bi.abandonCount = s.bi.abandonCount + 1
          ∧ t.sc = s.sc ∧ t.SameShared s ∧ t.tb = s.tb ∧ t.os = s.os)
      ∧ (x.attempts = 3 → s.bi.abandonCount < 2 → ∀ seq d, x.body = .propose seq d →
          s.sc.tracked = some ⟨s.ownId, seq⟩ →
          (s.sc.station = .joining → s.sc.leavePending = false → t.sc.station = .listen
            ∧ t.sc.joinHoldoff = s.listenEpochs ∧ t.sc.standing = s.sc.standing ∧ t.sc.tracked = none
            ∧ t.rt.copySource = s.rt.copySource ∧ t.SameShared s
            ∧ t.bi.queue = s.bi.queue.filter (fun y => !y.inFlight) ∧ t.bi.abandonCount = s.bi.abandonCount + 1)
          ∧ (s.sc.station = .joining → s.sc.leavePending = true →
              t.sc.station = .dormant ∧ t.bi.queue = [] ∧ t.SameShared s)
          ∧ (s.sc.station = .leaving → s.sc.leavePending = false → t.sc.station = .member ∧ t.sc.tracked = none
              ∧ t.bi.abandonCount = s.bi.abandonCount + 1 ∧ t.SameShared s ∧ t.hasEvent .state = true))
      ∧ (x.attempts = 3 → s.bi.abandonCount = 2 → s.canIsolate = true →
          t.sc.station = .isolated ∧ t.sc.reason = .txConfined ∧ t.NoCopy ∧ (s.os.GatesOk → t.OutputsOff)
          ∧ ∀ z ∈ s.sp.tickets, z.unfinished = true →
              (∀ seq d, x.body = .propose seq d → z.number ≠ seq ∨ z.kind.fits d = false ∨ z.reserved = true) →
              { z with state := .voided .isolated, withdrawRequest := false, withdrawQueued := false, reserved := false }
                ∈ t.sp.tickets))
  ∧ (∀ (c : Instr) (ev : Option Event) (a : Attempt) (s : State),
      ((c = .bodyClash ∧ ev = some .bodyClash ∧ s.bi.clashWindow = none) ∨ (c = .driveReadbackFail ∧ ev = some .line)
        ∨ (c = .formatError ∧ ev = none ∧ s.followsFrames = true)
        ∨ ((∃ reached mismatch, c = .frameDiscarded reached mismatch) ∧ ev = none ∧ s.followsFrames = true
            ∧ s.bi.rejectCount < 7)) →
      s.sc.station ≠ .setup → s.bi.attempt = some a → (∀ y ∈ s.bi.queue, y.inFlight = false) →
      ∃ t, exec c s = .next t ∧ (∀ e, ev = some e → t.hasEvent e = true)
        ∧ t.bi.attempt = none ∧ t.bi.queue = s.bi.queue ∧ t.bi.abandonCount = s.bi.abandonCount
        ∧ t.bi.clashWindow = (if c = .bodyClash then some 0 else s.bi.clashWindow)
        ∧ t.bi.tripSlot = s.bi.tripSlot.map (fun y => { y with attempts := min 4 (y.attempts + 1), inFlight := false })
        ∧ (ev = none → t.sp = s.sp)
        ∧ t = { s with bi := t.bi, sp := t.sp } ∧ t.sp.tickets = s.sp.tickets)
  ∧ (∀ (a : Attempt) (n : Nat) (s : State), s.sc.station ≠ .setup → s.bi.attempt = some a → s.bi.clashWindow = some n →
      ∃ t, exec .bodyClash s = .next t ∧ t.sc.station = .halted ∧ t.sc.reason = .idConflict ∧ (s.os.GatesOk → t.OutputsOff)
        ∧ t.SameShared s ∧ t.bi.queue = [] ∧ t.hasEvent .bodyClash = true ∧ t.hasEvent .state = true)
  ∧ ∀ s : State,
      (s.bi.clashWindow = none → s.advanceClashWindow = s)
      ∧ ∀ n, s.bi.clashWindow = some n → s.advanceClashWindow
          = { s with bi := { s.bi with clashWindow := if n < 16 then some (n + 1) else none } }

/-- What a format error and a discarded frame are to a station that sends nothing: a voting station drives an error flag of
1.5 bit times, or a reject vote in the vote slot, and each counts, up to receive confinement at 8; a follower follows on
without the frame (R44, R52, R54, R64). That the flag and the vote count when they have been driven to their end, so that a
discarded frame whose vote has been counted counts no second time, is the model's choice (log 22). -/
def Obligations.ErrorsAndDiscards : Prop :=
  (∀ s : State, s.isMember = true → s.NotSending →
    exec .formatError s = .next { s with bi := { s.bi with errorFlagLeft := 3 * s.bitTime / 2, rx := none } })
  ∧ (∀ s : State, s.isFollower = true → s.NotSending →
      exec .formatError s = .next { s with bi := { s.bi with rx := s.bi.rx.map fun rx => { rx with lost := true } } })
  ∧ (∀ s : State, s.sc.station = .dormant → s.NotSending →
      exec .formatError s = .next { s with bi := { s.bi with rx := none } })
  ∧ (∀ s : State, s.isMember = true → s.bi.errorFlagLeft ≠ 0 →
      (s.bi.rejectCount < 7 → exec .errorFlagEnd s = .next { s with bi := { s.bi with
        errorFlagLeft := 0, rejectCount := s.bi.rejectCount + 1 } })
      ∧ (7 ≤ s.bi.rejectCount → ∃ t, exec .errorFlagEnd s = .next t ∧ t.sc.station = .isolated
          ∧ t.sc.reason = .rxConfined ∧ (s.os.GatesOk → t.OutputsOff) ∧ t.NoCopy
          ∧ t.sp.tickets = s.ticketsVoided .isolated))
  ∧ (∀ s : State, s.isMember = false → s.sc.station ≠ .setup → s.bi.errorFlagLeft ≠ 0 →
      exec .errorFlagEnd s = .next { s with bi := { s.bi with errorFlagLeft := 0 } })
  ∧ (∀ (reached mismatch : Bool) (s : State), s.followsFrames = true → s.NotSending →
      (s.isMember = true → reached = true → (mismatch = true ∨ s.slotInGuard = true) → s.voteCounted = false →
        (s.bi.rejectCount < 7 → exec (.frameDiscarded reached mismatch) s
          = .next { s with bi := { s.bi with rejectCount := s.bi.rejectCount + 1, rx := none } })
        ∧ (7 ≤ s.bi.rejectCount → ∃ t, exec (.frameDiscarded reached mismatch) s = .next t
            ∧ t.sc.station = .isolated ∧ t.sc.reason = .rxConfined ∧ t.NoCopy
            ∧ t.sp.tickets = s.ticketsVoided .isolated))
      ∧ ((s.isMember = false ∨ reached = false ∨ (mismatch = false ∧ s.slotInGuard = false) ∨ s.voteCounted = true) →
          exec (.frameDiscarded reached mismatch) s = .next { s with bi := { s.bi with rx := none } }))
  ∧ ∀ (rx : RxContext) (s : State), s.isMember = true → 0 < s.bitTime → s.bi.rx = some rx → rx.rejecting = true →
      rx.slotAge = some (3 * s.bitTime / 4) →
      (s.bi.rejectCount < 7 → s.busSlot = { s with bi := { s.bi with
        rejectCount := s.bi.rejectCount + 1
        rx := some { rx with slotAge := some (3 * s.bitTime / 4 + 1) } } } ∧ s.busSlot.voteCounted = true)
      ∧ (7 ≤ s.bi.rejectCount → s.busSlot.sc.station = .isolated ∧ s.busSlot.sc.reason = .rxConfined
          ∧ s.busSlot.sp.tickets = s.ticketsVoided .isolated)

/-- A missed frame: LISTEN and RESYNC discard their copy, JOINING goes to LISTEN without a copy, or to DORMANT with the
leave-pending flag; in any other state nothing happens. The heard-group test at a boundary: a heard group ID below the
reference ID, the expected group key or else the lowest ACTIVE ID of the copy, becomes the expected key of a RESYNC station,
which discards a copy of a reply, makes LISTEN discard its copy, and takes JOINING to LISTEN or DORMANT (R6, R9, R10, R80,
R87, R88). -/
def Obligations.MissedFrame : Prop :=
  (∀ (seen : Bool) (s : State),
    (s.sc.station ∈ [.listen, .resync] → ∃ t, exec (.frameMissed seen) s = .next t ∧ t.sc.station = s.sc.station
      ∧ t.NoCopy ∧ (s.os.GatesOk → t.OutputsOff) ∧ t.bi.rx = none ∧ t.SameCounters s ∧ t.rt.expectedKey = s.rt.expectedKey)
    ∧ (s.sc.station = .joining → s.sc.leavePending = false → ∃ t, exec (.frameMissed seen) s = .next t
      ∧ t.sc.station = .listen ∧ t.NoCopy ∧ (s.os.GatesOk → t.OutputsOff) ∧ t.sc.tracked = none ∧ t.sc.joinHoldoff = 0
      ∧ t.SameCounters s ∧ (∀ x ∈ t.bi.queue, x.body.isAdmit = false))
    ∧ (s.sc.station = .joining → s.sc.leavePending = true → ∃ t, exec (.frameMissed seen) s = .next t
      ∧ t.sc.station = .dormant ∧ (s.os.GatesOk → t.OutputsOff) ∧ t.bi.queue = [] ∧ t.SameCounters s)
    ∧ (s.isFollower = false → exec (.frameMissed seen) s = .next s))
  ∧ (∀ s : State,
      (∀ k, s.rt.expectedKey = some k → s.referenceId = some k)
      ∧ (s.rt.expectedKey = none → s.rt.copySource = .none → s.referenceId = none)
      ∧ (s.rt.expectedKey = none → s.rt.copySource ≠ .none → s.referenceId = some (lowestActive s.rt.entries)))
  ∧ (∀ (s : State) (h : Nat), s.lowerGroup = some h ↔ s.rt.heardGroup = some h ∧ ∃ r, s.referenceId = some r ∧ h < r)
  ∧ ∀ s : State,
      let t := s.heardGroupTest
      t.rt.heardGroup = none ∧ t.SameCounters s
      ∧ ((s.isFollower = false ∨ s.lowerGroup = none) → t = { s with rt := { s.rt with heardGroup := none } })
      ∧ ∀ h, s.lowerGroup = some h →
          (s.sc.station = .resync → t.sc.station = .resync ∧ t.rt.expectedKey = some h
            ∧ (s.rt.copySource = .reply → t.NoCopy)
            ∧ (s.rt.copySource ≠ .reply → t = { s with rt := { s.rt with heardGroup := none, expectedKey := some h } }))
          ∧ (s.sc.station = .listen → t.sc.station = .listen ∧ (s.hasCopy = true → t.NoCopy)
              ∧ (s.hasCopy = false → t = { s with rt := { s.rt with heardGroup := none } }))
          ∧ (s.sc.station = .joining → s.sc.leavePending = false → t.sc.station = .listen ∧ t.NoCopy
              ∧ t.sc.tracked = none ∧ t.sc.joinHoldoff = 0 ∧ (∀ y ∈ t.bi.queue, y.body.isAdmit = false)
              ∧ t.hasEvent .state = true)
          ∧ (s.sc.station = .joining → s.sc.leavePending = true → t.sc.station = .dormant ∧ t.bi.queue = []
              ∧ t.hasEvent .state = true)

/-! ### Accepted frames -/

/-- A BEAT from a station of the roster is heard and replaces its last beat record, in a member; nothing else changes. The
own BEAT, known by the kind in flight (log 12), does so too, in RESYNC also, and leaves the transmit queue, but one whose
contents were replaced in flight stays with an attempt count of 0 (log 15); the abandon count returns to 0 (R54, R57, R61, R63,
R66, R72). -/
def Obligations.BeatFromThePeer : Prop :=
  (∀ (i : StationId) (f : BeatFields) (s : State), s.isMember = true → s.NotSending → s.Settled →
    f.depth.toNat ≤ 8 → f.lowestActive.toNat ≤ 16 → f.activeCount.toNat ≤ 16 → (s.entry i).state ≠ .absent →
    s.rt.entries.length = 16 →
    ∃ t, exec (.beatAccepted i f) s = .next t
      ∧ t.entry i = { s.entry i with
          heard := true
          lastBeat := some ⟨f.en, f.resync, f.digest, f.depth.toNat, f.localLatched, f.shedLatched, f.tripLatched,
            f.tripHeld, f.lead⟩ }
      ∧ (∀ j, j ≠ i → t.entry j = s.entry j)
      ∧ t = { s.afterFrame with rt := { s.rt with entries := t.rt.entries } })
  ∧ (∀ (i : StationId) (f : BeatFields) (s : State), s.InFlight i (.beatAccepted i f) → s.Settled →
      (s.isMember = true ∨ (s.sc.station = .resync ∧ f.resync = true)) →
      f.depth.toNat ≤ 8 → f.lowestActive.toNat ≤ 16 → f.activeCount.toNat ≤ 16 → (s.entry i).state ≠ .absent →
      s.rt.entries.length = 16 →
      ∃ t, exec (.beatAccepted i f) s = .next t ∧ t.bi = s.busAfterOwn
        ∧ t.entry i = { s.entry i with
            heard := true
            lastBeat := some ⟨f.en, f.resync, f.digest, f.depth.toNat, f.localLatched, f.shedLatched, f.tripLatched,
              f.tripHeld, f.lead⟩ }
        ∧ (∀ j, j ≠ i → t.entry j = s.entry j)
        ∧ t = { s with bi := t.bi, rt := { s.rt with entries := t.rt.entries }, fu := t.fu }
        ∧ t.fu.tripSet = s.fu.tripSet ∧ t.fu.lastTrip = s.fu.lastTrip ∧ ∀ n, t.inputRecord n = s.inputRecord n)
  ∧ ∀ (a : Attempt) (s : State), s.bi.attempt = some a →
      s.busAfterOwn.attempt = none ∧ s.busAfterOwn.rx = none ∧ s.busAfterOwn.abandonCount = 0
      ∧ s.busAfterOwn.rejectCount = 0 ∧ s.busAfterOwn.clashWindow = s.bi.clashWindow
      ∧ (a.beatReplaced = false → s.busAfterOwn.queue = s.bi.queue.filter (fun y => !y.inFlight)
          ∧ ∀ y, s.bi.tripSlot = some y → s.busAfterOwn.tripSlot = (if y.inFlight then none else some y))
      ∧ (a.beatReplaced = true → s.busAfterOwn.queue
          = s.bi.queue.map fun y => if y.inFlight then { y with attempts := 0, inFlight := false } else y)

/-- The stranger rule: a member yields to a stranger whose group ranks before its own, by the lowest ACTIVE ID, the count
or the digest, and goes to RESYNC with the stranger's lowest ACTIVE ID as its expected key; to any other stranger it
does nothing (R78, R79, R15). -/
def Obligations.StrangerRule : Prop :=
  (∀ (i : StationId) (f : BeatFields) (s : State), s.isMember = true → s.NotSending →
    State.beatInRange f = true → f.resync = false → (s.entry i).state = .absent → s.admitPending i = false →
    (f.lowestActive.toNat < lowestActive s.rt.entries
      ∨ (f.lowestActive.toNat = lowestActive s.rt.entries ∧ activeCount s.rt.entries < f.activeCount.toNat)
      ∨ (f.lowestActive.toNat = lowestActive s.rt.entries ∧ f.activeCount.toNat = activeCount s.rt.entries
          ∧ f.digest < s.rt.epochDigest)) →
    ∃ t, exec (.beatAccepted i f) s = .next t ∧ t.sc.station = .resync
      ∧ t.rt.expectedKey = some f.lowestActive.toNat ∧ t.rt.copySource = .old ∧ t.rt.armed = false
      ∧ t.rt.entries = s.rt.entries ∧ t.cq.entries = [] ∧ t.cq.duty = s.cq.duty ∧ t.fu.tripSet = s.fu.tripSet
      ∧ (s.os.GatesOk → t.OutputsOff) ∧ t.sc.standing = .none ∧ t.sc.quiet = 0 ∧ t.sc.leavePending = false ∧ t.sc.tracked = none
      ∧ t.SameCounters s ∧ t.tb.state = s.tb.state ∧ t.sp.tickets = s.ticketsVoided .resync
      ∧ ((∃ x ∈ s.sp.tickets, x.unfinished = true) → t.hasEvent .ticket = true))
  ∧ ∀ (i : StationId) (f : BeatFields) (s : State), s.isMember = true → s.NotSending → s.Settled →
      State.beatInRange f = true → (s.entry i).state = .absent →
      (f.resync = true ∨ s.admitPending i = true ∨ s.strangerRanksFirst f = false) →
      exec (.beatAccepted i f) s = .next s.afterFrame

/-- A BEAT flagged MEMBER at a follower: the first one gives LISTEN and RESYNC its EN, and one that differs empties the
queue, with its tickets VOIDED; one that matches an armed copy with a depth of 0 confirms it, and at once LISTEN, LOCKED and
without a holdoff, or RESYNC enters the group: to MEMBER with O on the target where the copy holds the own entry, else to
JOINING with the own ADMIT queued; a station that cannot yet, stays CONFIRMED. The join test and the resync step at a boundary
do the same. One with another EN, or with another digest and a depth of 0, discards the copy; another digest with a depth
above 0 says nothing (R5, R6, R7, R9, R15, R16, R23, R80, R86, R87, R117, R119). That a station whose entry into the group did
not open in RESYNC tests again at each boundary is log 32's reading. -/
def Obligations.BeatAtTheFollower : Prop :=
  (∀ (i : StationId) (f : BeatFields) (s : State), s.sc.station ∈ [.listen, .resync] → s.NotSending →
    State.beatInRange f = true → f.resync = false → i ≠ s.ownId →
    (s.tb.enAdopted = false →
      ∃ t, exec (.beatAccepted i f) s = .next t ∧ t.tb.en = f.en ∧ t.tb.enAdopted = true ∧ t.tb.b = s.tb.b
        ∧ t.tb.k = s.tb.k
        ∧ (f.en ≠ s.tb.en → t.cq.entries = [] ∧ t.cq.pendingObjections = [])
        ∧ ((s.entry i).state = .absent →
            t.sc.quiet = 0 ∧ t.sc.station = s.sc.station ∧ (s.sc.station = .listen → t.sc.frameSinceListen = true)
            ∧ t.rt.heardGroup = some (s.rt.heardGroup.elim f.lowestActive.toNat (min f.lowestActive.toNat))
            ∧ t.rt.entries = s.rt.entries ∧ t.rt.copySource = s.rt.copySource ∧ t.sc.standing = s.sc.standing
            ∧ (f.en = s.tb.en → t.cq = s.cq)
            ∧ (f.en ≠ s.tb.en → ∀ e ∈ s.cq.entries, e.isLocal = true → ∀ z ∈ s.sp.tickets, z.unfinished = true →
                z.number = e.id.seq → z.kind.fits e.content = true → z.reserved = false →
                { z with state := .voided .resync, withdrawRequest := false, withdrawQueued := false } ∈ t.sp.tickets
                ∧ t.hasEvent .ticket = true)))
    ∧ (s.tb.enAdopted = true → s.hasCopy = true → s.rt.armed = true → (s.entry i).state ≠ .absent → f.en ≠ s.tb.en →
        ∃ t, exec (.beatAccepted i f) s = .next t ∧ t.sc.station = s.sc.station ∧ t.NoCopy ∧ t.SameCounters s))
  ∧ (∀ (i : StationId) (f : BeatFields) (s : State), s.isFollower = true → s.NotSending → State.beatInRange f = true →
      f.resync = false → i ≠ s.ownId → s.tb.enAdopted = true → s.hasCopy = true → s.rt.armed = true →
      (s.entry i).state ≠ .absent → f.en = s.tb.en →
      ∃ t, exec (.beatAccepted i f) s = .next t ∧ t.SameCounters s
        ∧ (f.digest = s.rt.epochDigest → f.depth = 0 → s.sc.standing = .held → s.sc.station ≠ .joining →
            s.sc.leavePending = false →
            t.sc.standing = .confirmed
            ∧ (s.sc.station = .listen → (s.tb.state ≠ .locked ∨ s.sc.joinHoldoff ≠ 0) → t.sc.station = .listen)
            ∧ (((s.sc.station = .listen ∧ s.tb.state = .locked ∧ s.sc.joinHoldoff = 0) ∨ s.sc.station = .resync) →
                (s.ownEntry.state ≠ .absent →
                  t.sc.station = .member ∧ t.rt.copySource = .own ∧ (∀ x, t.pu.target = some x → t.pu.offset = x)
                  ∧ t.hasEvent .state = true)
                ∧ (s.ownEntry.state = .absent → s.classLatched .shed = false → s.bi.queue.length < 6 →
                    t.sc.station = .joining ∧ t.sc.tracked = some ⟨s.ownId, s.cq.nextSeq⟩
                    ∧ t.cq.nextSeq = s.cq.nextSeq + 1 ∧ t.cq.entries = s.cq.entries
                    ∧ ⟨.propose s.cq.nextSeq (.admission s.sp.fingerprint s.ownKind), 0, false⟩ ∈ t.bi.queue
                    ∧ (∀ y ∈ t.bi.queue, y.body ≠ .query) ∧ t.hasEvent .state = true)
                ∧ (s.ownEntry.state = .absent → (s.classLatched .shed = true ∨ 6 ≤ s.bi.queue.length) →
                    t.sc.station = s.sc.station ∧ t.cq.nextSeq = s.cq.nextSeq ∧ t.bi.queue = s.bi.queue)))
        ∧ (f.digest ≠ s.rt.epochDigest → f.depth = 0 →
            (s.sc.station ≠ .joining → t.NoCopy ∧ t.sc.station = s.sc.station)
            ∧ (s.sc.station = .joining → s.sc.leavePending = false → t.NoCopy ∧ t.sc.station = .listen
                ∧ t.sc.tracked = none))
        ∧ (f.digest ≠ s.rt.epochDigest → f.depth ≠ 0 →
            t.sc.station = s.sc.station ∧ t.sc.standing = s.sc.standing ∧ t.rt.copySource = s.rt.copySource
            ∧ t.cq = s.cq ∧ t.bi.queue = s.bi.queue))
  ∧ (∀ s : State, (s.sc.station ≠ .listen ∨ s.sc.standing ≠ .confirmed ∨ s.tb.state ≠ .locked ∨ s.sc.joinHoldoff ≠ 0) →
      s.joinTest = s)
  ∧ (∀ s : State, (s.sc.station ≠ .resync ∨ s.sc.standing ≠ .confirmed) → s.resyncTest = s)
  ∧ ∀ s t : State,
      ((s.sc.station = .listen ∧ s.tb.state = .locked ∧ s.sc.joinHoldoff = 0 ∧ t = s.joinTest)
        ∨ (s.sc.station = .resync ∧ t = s.resyncTest)) →
      s.sc.standing = .confirmed → s.sc.leavePending = false →
      (s.ownEntry.state ≠ .absent →
        t.sc.station = .member ∧ t.rt.copySource = .own ∧ t.rt.entries = s.rt.entries
        ∧ (∀ x, t.pu.target = some x → t.pu.offset = x) ∧ t.hasEvent .state = true)
      ∧ (s.ownEntry.state = .absent → s.classLatched .shed = false → s.bi.queue.length < 6 →
          t.sc.station = .joining ∧ t.sc.tracked = some ⟨s.ownId, s.cq.nextSeq⟩
          ∧ t.cq.nextSeq = s.cq.nextSeq + 1 ∧ t.cq.entries = s.cq.entries
          ∧ ⟨.propose s.cq.nextSeq (.admission s.sp.fingerprint s.ownKind), 0, false⟩ ∈ t.bi.queue
          ∧ (∀ y ∈ t.bi.queue, y.body ≠ .query) ∧ t.hasEvent .state = true)
      ∧ (s.ownEntry.state = .absent → (s.classLatched .shed = true ∨ 6 ≤ s.bi.queue.length) →
          t.sc = s.sc ∧ t.cq = s.cq ∧ t.bi = s.bi)

/-- The five arrival checks in order, each with its condition both ways, as R97 gives it: two proposals of one target conflict
when each is an ADMIT, a REMOVE or a SHED, or each is a CLEAR_TRIP; the target of an ADMIT, a SHED and a DEMAND is the
origin (R91, R97). -/
def Obligations.ArrivalChecks : Prop :=
  ∀ (i : StationId) (p : ProposeFields) (s : State),
    (s.lateCheck p = none ↔ 2 ≤ (p.f - s.tb.en).toNat ∧ (p.f - s.tb.en).toNat ≤ 15)
    ∧ (s.memberCheck i p = none ↔ (s.entry i).state = .active ∨ p.kindCode = 1
        ∨ (p.kindCode = 2 ∧ stationOfNibble p.target = i ∧ (s.entry i).state = .shed))
    ∧ s.kindCheck i none ≠ none
    ∧ (∀ fp kind, s.kindCheck i (some (.admission fp kind)) = none
        ↔ (s.entry i).state ≠ .active ∧ fp = s.referenceFingerprint)
    ∧ (∀ k, s.kindCheck i (some (.remove k .left)) = none ↔ (s.entry k).state ≠ .absent ∧ k = i)
    ∧ (∀ k, s.kindCheck i (some (.remove k .lost)) = none ↔ (s.entry k).state ≠ .absent ∧ k ≠ i)
    ∧ (s.kindCheck i (some .shed) = none ↔ (s.entry i).state = .active ∧ (s.entry i).kind = .phase)
    ∧ (∀ d, s.kindCheck i (some (.demand d)) = none)
    ∧ (∀ k : StationId, s.kindCheck i (some (.clearTrip k)) = none ↔ s.fu.tripSet.getLsbD k.val = true)
    ∧ (s.isMember = true → s.referenceFingerprint = s.sp.fingerprint)
    ∧ (s.isMember = false → s.referenceFingerprint = s.rt.groupFingerprint.getD s.sp.fingerprint)
    ∧ (∀ c d : ProposalContent, State.conflicts c d = true ↔
        (c.changesStanding = true ∧ d.changesStanding = true)
        ∨ ((∃ k, c = .clearTrip k) ∧ ∃ k, d = .clearTrip k))
    ∧ (∀ c : ProposalContent, c.changesStanding = true ↔
        c = .shed ∨ (∃ fp kind, c = .admission fp kind) ∨ ∃ k r, c = .remove k r)
    ∧ (∀ (fp : Word) (kind : StationKind) (d : Word) (k : StationId) (r : RemoveReason),
        targetOf i (.admission fp kind) = i ∧ targetOf i .shed = i ∧ targetOf i (.demand d) = i
        ∧ targetOf i (.remove k r) = k ∧ targetOf i (.clearTrip k) = k)
    ∧ (s.lateCheck p ≠ none → s.arrivalRefusal i p = some .late)
    ∧ (s.lateCheck p = none → s.memberCheck i p ≠ none → s.arrivalRefusal i p = some .notMember)
    ∧ (s.lateCheck p = none → s.memberCheck i p = none → contentOf p = none →
        s.arrivalRefusal i p = some .notAllowed)
    ∧ ∀ c, s.lateCheck p = none → s.memberCheck i p = none → contentOf p = some c →
        (∀ fp kind, c = .admission fp kind → (s.entry i).state = .active → s.arrivalRefusal i p = some .notAllowed)
        ∧ (∀ fp kind, c = .admission fp kind → (s.entry i).state ≠ .active → fp ≠ s.referenceFingerprint →
            s.arrivalRefusal i p = some .fingerprint)
        ∧ (∀ k r, c = .remove k r →
            ((s.entry k).state = .absent ∨ (r = .left ∧ k ≠ i) ∨ (r = .lost ∧ k = i)) →
            s.arrivalRefusal i p = some .notAllowed)
        ∧ (c = .shed → ¬((s.entry i).state = .active ∧ (s.entry i).kind = .phase) →
            s.arrivalRefusal i p = some .notAllowed)
        ∧ (∀ k, c = .clearTrip k → s.fu.tripSet.getLsbD k.val = false → s.arrivalRefusal i p = some .notTripped)
        ∧ (s.kindCheck i (some c) = none →
            (∃ e ∈ s.cq.entries, e.id = ⟨i, p.seq⟩ ∨ (State.conflicts e.content c = true ∧ e.target = targetOf i c)) →
            s.arrivalRefusal i p = some .duplicate)
        ∧ (s.kindCheck i (some c) = none →
            (∀ e ∈ s.cq.entries, e.id ≠ ⟨i, p.seq⟩ ∧ ¬(State.conflicts e.content c = true ∧ e.target = targetOf i c)) →
            s.arrivalRefusal i p = (if s.cq.entries.length < 8 then none else some .full))

/-- A PROPOSE at a member is entered OPEN behind every entry as near, or refused and then leaves no entry; the roster,
the duty and the trip set are untouched. Its ticket at the origin becomes OPEN with F, or REFUSED with F and the reason, and
a station LEAVING by a refused REMOVE returns to MEMBER. A follower with a copy does the same on its copy, one without a copy
nothing; a joiner whose own ADMIT is refused is HALTED for FINGERPRINT, else goes to LISTEN with the copy kept, or to
DORMANT with the leave-pending flag; one whose ADMIT is entered after a STOP in flight queues its withdrawal. The own frame
leaves the transmit queue, queued frames that it makes redundant go, and the abandon count returns to 0. An entry's place:
behind every entry at its distance or nearer. Which frame of the own ID is the own one is read from the kind in flight
(log 12); the order of this work, and of the own objection before a requested withdrawal, is the model's choice (log 13) (R8,
R11, R13, R59, R61, R63, R94, R96, R98, R99, R103, R104, R105). -/
def Obligations.ProposeAccepted : Prop :=
  (∀ (i : StationId) (p : ProposeFields) (s : State), s.isMember = true →
    (s.NotSending ∨ s.InFlight i (.proposeAccepted i p)) →
    ∃ t, exec (.proposeAccepted i p) s = .next t ∧ t.rt.entries = s.rt.entries ∧ t.cq.duty = s.cq.duty
      ∧ t.fu.tripSet = s.fu.tripSet ∧ t.isMember = true ∧ t.SameCounters s
      ∧ (s.InFlight i (.proposeAccepted i p) →
          t.bi.attempt = none ∧ t.bi.rx = none ∧ t.bi.abandonCount = 0 ∧ t.bi.rejectCount = 0
          ∧ t.bi.tripSlot = s.busAfterOwn.tripSlot ∧ (∀ y ∈ t.bi.queue, y.inFlight = false)
          ∧ (s.sc.tracked ≠ some ⟨i, p.seq⟩ → t.bi.queue.filter (fun y => y.body.cls ≠ 2)
              = s.busAfterOwn.queue.filter (fun y => y.body.cls ≠ 2 && !(p.kindCode = 1 && y.body.isAdmit)
                  && !(p.kindCode = 2 && y.body.isLossOf (stationOfNibble p.target)))))
      ∧ (∀ c, s.arrivalRefusal i p = none → contentOf p = some c →
          t.cq.entries = State.insertEntry s.tb.en ⟨⟨i, p.seq⟩, c, p.f, .openPhase, decide (i = s.ownId)⟩ s.cq.entries
          ∧ t.sc = s.sc
          ∧ (i = s.ownId → ∀ z ∈ s.sp.tickets, z.unfinished = true → z.number = p.seq → z.kind.fits c = true →
              z.reserved = false →
              ∃ y ∈ t.sp.tickets, y.number = p.seq ∧ y.kind = z.kind ∧ y.state = .openState ∧ y.f = some p.f))
      ∧ (s.arrivalRefusal i p ≠ none → t.cq.entries = s.cq.entries)
      ∧ (∀ c r, s.arrivalRefusal i p = some r → contentOf p = some c → i = s.ownId → s.sc.leavePending = false →
          ∀ z ∈ s.sp.tickets, z.unfinished = true → z.number = p.seq → z.kind.fits c = true → z.reserved = false →
            { z with state := .refused r, f := some p.f, withdrawRequest := false, withdrawQueued := false }
              ∈ t.sp.tickets ∧ t.hasEvent .ticket = true)
      ∧ (s.arrivalRefusal i p ≠ none → s.sc.tracked ≠ some ⟨i, p.seq⟩ → t.sc = s.sc)
      ∧ (s.arrivalRefusal i p ≠ none → s.sc.station = .leaving → s.sc.tracked = some ⟨i, p.seq⟩ →
          s.sc.leavePending = false → t.sc.station = .member ∧ t.sc.tracked = none ∧ t.hasEvent .state = true)
      ∧ (∀ d, s.arrivalRefusal i p = none → contentOf p = some (.demand d) → s.dutyMax < d →
          s.ownEntry.holdsSlot = true → s.bi.queue.length < 6 → (i ≠ s.ownId ∨ s.NotSending) →
          ⟨.object ⟨i, p.seq⟩ .dutyLimit, 0, false⟩ ∈ t.bi.queue)
      ∧ (s.arrivalRefusal i p = none → contentOf p = some (.clearTrip s.ownId) → s.classLatched .trip = true →
          s.bi.queue.length < 6 → (i ≠ s.ownId ∨ s.NotSending) →
          ⟨.object ⟨i, p.seq⟩ .stillActive, 0, false⟩ ∈ t.bi.queue)
      ∧ (s.arrivalRefusal i p = none → contentOf p = some (.remove s.ownId .lost) → s.bi.queue.length < 6 → i ≠ s.ownId →
          ⟨.object ⟨i, p.seq⟩ .present, 0, false⟩ ∈ t.bi.queue)
      ∧ (∀ d, s.InFlight i (.proposeAccepted i p) → s.arrivalRefusal i p = none → contentOf p = some (.demand d) →
          s.dutyMax < d → s.ownEntry.holdsSlot = true → s.busAfterOwn.queue.length < 6 →
          ⟨.object ⟨i, p.seq⟩ .dutyLimit, 0, false⟩ ∈ t.bi.queue))
  ∧ (∀ (i : StationId) (p : ProposeFields) (s : State), s.isFollower = true →
      ((s.NotSending ∧ i ≠ s.ownId) ∨ s.InFlight i (.proposeAccepted i p)) →
      ∃ t, exec (.proposeAccepted i p) s = .next t ∧ t.rt.entries = s.rt.entries ∧ t.cq.duty = s.cq.duty
        ∧ t.fu.tripSet = s.fu.tripSet ∧ t.SameCounters s
        ∧ (∀ c, s.hasCopy = true → s.arrivalRefusal i p = none → contentOf p = some c →
            t.cq.entries
              = State.insertEntry s.tb.en ⟨⟨i, p.seq⟩, c, p.f, .openPhase, decide (i = s.ownId)⟩ s.cq.entries
            ∧ t.sc.station = s.sc.station ∧ t.sc.tracked = s.sc.tracked)
        ∧ ((s.hasCopy = false ∨ s.arrivalRefusal i p ≠ none) → t.cq.entries = s.cq.entries)
        ∧ (s.InFlight i (.proposeAccepted i p) →
            t.bi.attempt = none ∧ t.bi.abandonCount = 0 ∧ ∀ y ∈ t.bi.queue, y.inFlight = false)
        ∧ (∀ fp kind, s.InFlight i (.proposeAccepted i p) → s.hasCopy = true → s.arrivalRefusal i p = none →
            contentOf p = some (.admission fp kind) → s.sc.station = .joining → s.sc.tracked = some ⟨i, p.seq⟩ →
            s.sc.leavePending = true → s.withdrawalQueued ⟨i, p.seq⟩ = false → s.busAfterOwn.queue.length < 6 →
            ⟨.object ⟨i, p.seq⟩ .withdrawn, 0, false⟩ ∈ t.bi.queue))
  ∧ (∀ (p q : ProposeFields) (a : Attempt) (r : ArrivalRefusal) (s : State), s.sc.station = .joining → s.hasCopy = true →
      s.bi.attempt = some a → a.frame = .proposeAccepted s.ownId q → s.sc.tracked = some ⟨s.ownId, p.seq⟩ →
      s.arrivalRefusal s.ownId p = some r →
      ∃ t, exec (.proposeAccepted s.ownId p) s = .next t ∧ t.SameShared s ∧ t.SameCounters s
        ∧ (s.os.GatesOk → t.OutputsOff) ∧ t.sc.tracked = none ∧ t.hasEvent .state = true
        ∧ (r = .fingerprint → t.sc.station = .halted ∧ t.sc.reason = .fingerprint ∧ t.bi.queue = [])
        ∧ (r ≠ .fingerprint → s.sc.leavePending = false → t.sc.station = .listen ∧ t.sc.standing = s.sc.standing
            ∧ t.sc.joinHoldoff = s.listenEpochs ∧ t.rt.copySource = s.rt.copySource)
        ∧ (r ≠ .fingerprint → s.sc.leavePending = true → t.sc.station = .dormant ∧ t.bi.queue = []))
  ∧ ∀ (en : Word) (e : QueueEntry) (es : List QueueEntry), ∃ before after, es = before ++ after
      ∧ State.insertEntry en e es = before ++ e :: after ∧ (∀ x ∈ before, (x.f - en).toNat ≤ (e.f - en).toNat)
      ∧ ∀ x, after.head? = some x → (e.f - en).toNat < (x.f - en).toNat

/-- An OBJECT at a member, or at a follower with a copy, removes the OPEN entry of its proposal when its reason fits the entry
and the objector, and is ignored otherwise. At the origin the ticket becomes OBJECTED with the reason and the objector; the
objections that the station itself has queued or pending go; a PRESENT objection resets the silence of its target alone; the
end of the tracked ADMIT takes a joiner to LISTEN with its copy or to DORMANT, that of the tracked REMOVE(LEFT) a station
LEAVING to MEMBER. The roster's standing, the duty and the trip set are untouched. The own frame leaves the transmit queue and
the abandon count returns to 0. Objections that wait are offered at a boundary in their order while there is room, then a
withdrawal owed by a STOP and those asked for by a WITHDRAW (R8, R11, R13, R59, R60, R61, R75, R96, R102, R107, R179). That a
withdrawal which another block has queued pays one that is owed is the model's choice (log 17), and so are that order of the
three (log 5), the order of the work at one acceptance, and that a PRESENT objection resets the silence only where it takes
effect (log 13); that the own frame is known by the kind in flight is an inference (log 12). -/
def Obligations.ObjectAccepted : Prop :=
  (∀ (i : StationId) (o : ObjectFields) (id : ProposalId) (s : State),
    (s.isMember = true ∨ (s.isFollower = true ∧ s.hasCopy = true)) →
    ((s.NotSending ∧ (i ≠ s.ownId ∨ s.isMember = true)) ∨ s.InFlight i (.objectAccepted i o)) →
    id = ⟨stationOfNibble o.origin, o.seq⟩ →
    ∃ t, exec (.objectAccepted i o) s = .next t ∧ t.cq.duty = s.cq.duty ∧ t.fu.tripSet = s.fu.tripSet
      ∧ rosterCode t.rt.entries = rosterCode s.rt.entries ∧ t.SameCounters s
      ∧ (∀ y ∈ t.bi.queue, y.body.objectsTo id = false)
      ∧ (s.InFlight i (.objectAccepted i o) →
          t.bi.attempt = none ∧ t.bi.abandonCount = 0 ∧ ∀ y ∈ t.bi.queue, y.inFlight = false)
      ∧ (∀ e r, s.cq.entries.find? (·.id = id) = some e → objectReasonOf o.reason = some r → s.objectionHolds e i r →
          t.cq.entries = s.cq.entries.filter (fun x => x.id ≠ e.id)
          ∧ (∀ x ∈ t.cq.pendingObjections, x.1 ≠ e.id)
          ∧ (e.isLocal = true → (s.sc.station = .leaving → s.sc.leavePending = false) →
              ∀ z ∈ s.sp.tickets, z.unfinished = true → z.number = e.id.seq → z.kind.fits e.content = true →
                z.reserved = false →
                { z with state := .objected r i, withdrawRequest := false, withdrawQueued := false } ∈ t.sp.tickets
                ∧ t.hasEvent .ticket = true)
          ∧ (r = .present → s.rt.entries.length = 16 → (s.entry i).state ≠ .absent →
              t.entry i = { s.entry i with silent := 0 })
          ∧ (∀ j, (r ≠ .present ∨ j ≠ i ∨ (s.entry j).state = .absent) → t.entry j = s.entry j)
          ∧ (s.sc.tracked ≠ some e.id → t.sc.station = s.sc.station ∧ t.sc.tracked = s.sc.tracked
              ∧ ∀ y ∈ s.bi.queue, y.inFlight = false → y.body.objectsTo id = false → y ∈ t.bi.queue)
          ∧ (s.sc.tracked = some e.id → s.sc.station = .leaving → s.sc.leavePending = false →
              t.sc.station = .member ∧ t.sc.tracked = none ∧ t.hasEvent .state = true)
          ∧ (s.sc.tracked = some e.id → s.sc.station = .joining → s.sc.leavePending = false →
              t.sc.station = .listen ∧ t.sc.tracked = none ∧ t.sc.joinHoldoff = s.listenEpochs
              ∧ t.sc.standing = s.sc.standing ∧ t.rt.copySource = s.rt.copySource ∧ t.hasEvent .state = true)
          ∧ (s.sc.tracked = some e.id → s.sc.station = .joining → s.sc.leavePending = true →
              t.sc.station = .dormant ∧ t.bi.queue = [] ∧ t.hasEvent .state = true))
      ∧ ((s.cq.entries.find? (·.id = id) = none ∨ objectReasonOf o.reason = none
            ∨ ∃ e r, s.cq.entries.find? (·.id = id) = some e ∧ objectReasonOf o.reason = some r
                ∧ ¬ s.objectionHolds e i r) →
          t.cq = s.cq ∧ t.rt = s.rt ∧ t.sp.tickets = s.sp.tickets ∧ t.sc.station = s.sc.station
          ∧ t.sc.tracked = s.sc.tracked
          ∧ (s.NotSending → t.bi.queue = s.bi.queue.filter fun y => !y.body.objectsTo id)
          ∧ (s.InFlight i (.objectAccepted i o) →
              t.bi.queue = s.busAfterOwn.queue.filter fun y => !y.body.objectsTo id)))
  ∧ (∀ (i : StationId) (o : ObjectFields) (s : State), s.isFollower = true → s.hasCopy = false → s.NotSending →
      i ≠ s.ownId →
      ∃ t, exec (.objectAccepted i o) s = .next t ∧ t.SameShared s ∧ t.SameCounters s ∧ t.sp.tickets = s.sp.tickets
        ∧ t.bi.queue = s.bi.queue.filter fun y => !y.body.objectsTo ⟨stationOfNibble o.origin, o.seq⟩)
  ∧ (∀ s : State, State.offerObjections [] s = s)
  ∧ (∀ (id : ProposalId) (r : ObjectReason) (rest : List (ProposalId × ObjectReason)) (s : State),
      (6 ≤ s.bi.queue.length → State.offerObjections ((id, r) :: rest) s = s)
      ∧ (s.bi.queue.length < 6 →
          ∃ u, State.offerObjections ((id, r) :: rest) s = State.offerObjections rest u
            ∧ u.bi = { s.bi with queue := insertFrame ⟨.object id r, 0, false⟩ s.bi.queue }
            ∧ u.cq = { s.cq with pendingObjections := rest }
            ∧ u = { s with bi := u.bi, cq := u.cq, fu := u.fu } ∧ u.fu.tripSet = s.fu.tripSet
            ∧ u.fu.lastTrip = s.fu.lastTrip ∧ ∀ n, u.inputRecord n = s.inputRecord n))
  ∧ (∀ s u : State, u = State.offerObjections s.cq.pendingObjections s →
      (s.sc.withdrawOwed = false → s.offerAtBoundary = u.cq.entries.foldl State.offerWithdrawal u)
      ∧ (s.sc.withdrawOwed = true →
          s.offerAtBoundary = u.offerOwedWithdrawal.cq.entries.foldl State.offerWithdrawal u.offerOwedWithdrawal))
  ∧ (∀ (s : State) (e : QueueEntry), s.sc.withdrawOwed = true → s.ownAdmit = some e →
      (e.phase = .openPhase → s.withdrawalQueued e.id = false → s.bi.queue.length < 6 →
        s.offerOwedWithdrawal.bi = { s.bi with
          queue := insertFrame ⟨.object e.id .withdrawn, 0, false⟩ s.bi.queue }
        ∧ s.offerOwedWithdrawal.sc = { s.sc with withdrawOwed := false } ∧ s.offerOwedWithdrawal.cq = s.cq)
      ∧ (e.phase = .openPhase → s.withdrawalQueued e.id = false → 6 ≤ s.bi.queue.length → s.offerOwedWithdrawal = s)
      ∧ ((e.phase = .firm ∨ s.withdrawalQueued e.id = true) →
          s.offerOwedWithdrawal = { s with sc := { s.sc with withdrawOwed := false } }))
  ∧ (∀ s : State, s.ownAdmit = none →
      s.offerOwedWithdrawal = { s with sc := { s.sc with withdrawOwed := false } })
  ∧ ∀ (s : State) (e : QueueEntry),
      let asked := e.isLocal = true ∧ e.phase = .openPhase ∧ ∃ z ∈ s.sp.tickets, z.unfinished = true
        ∧ z.number = e.id.seq ∧ z.kind.fits e.content = true ∧ z.withdrawRequest = true ∧ z.withdrawQueued = false
      (asked → s.bi.queue.length < 6 →
        (s.offerWithdrawal e).bi = { s.bi with
          queue := insertFrame ⟨.object e.id .withdrawn, 0, false⟩ s.bi.queue }
        ∧ (∀ z ∈ (s.offerWithdrawal e).sp.tickets, z.unfinished = true → z.number = e.id.seq →
            z.kind.fits e.content = true → z.reserved = false → z.withdrawQueued = true)
        ∧ (s.offerWithdrawal e).cq = s.cq ∧ (s.offerWithdrawal e).sc = s.sc)
      ∧ ((¬asked ∨ 6 ≤ s.bi.queue.length) → s.offerWithdrawal e = s)

/-- A TRIP where it is processed adds its sender to the trip set, is kept as the last trip, voids every CLEAR_TRIP of
the sender with its ticket VOIDED and its objections dropped, and turns the outputs OFF; elsewhere it changes no trip set. The
own TRIP, known by the kind in flight (log 12), leaves the TRIP slot and the abandon count returns to 0 (R60, R61, R108, R136,
R161, R162). -/
def Obligations.TripAccepted : Prop :=
  (∀ (i : StationId) (f : TripFields) (s : State), s.isMember = true ∨ (s.isFollower = true ∧ s.hasCopy = true) →
    ((s.NotSending ∧ (i ≠ s.ownId ∨ s.isMember = true)) ∨ s.InFlight i (.tripAccepted i f)) →
    ∃ t, exec (.tripAccepted i f) s = .next t
      ∧ (∀ j : StationId, t.fu.tripSet.getLsbD j.val = (s.fu.tripSet.getLsbD j.val || decide (j = i)))
      ∧ t.fu.lastTrip = some ⟨i, f.input, f.en, s.tb.en⟩
      ∧ (s.fu.tripSet = 0 → t.hasEvent .tripOn = true)
      ∧ t.cq.entries = s.cq.entries.filter (fun e => !s.cq.entries.any fun x => x.id = e.id && x.content = .clearTrip i)
      ∧ (∀ e ∈ s.cq.entries, e.content = .clearTrip i → e.isLocal = true → ∀ z ∈ s.sp.tickets, z.unfinished = true →
          z.number = e.id.seq → z.kind.fits e.content = true → z.reserved = false →
          { z with state := .voided .retripped, withdrawRequest := false, withdrawQueued := false } ∈ t.sp.tickets
          ∧ t.hasEvent .ticket = true)
      ∧ (s.NotSending → t.bi.queue
          = s.bi.queue.filter fun y => !s.cq.entries.any fun e => e.content = .clearTrip i && y.body.objectsTo e.id)
      ∧ (s.InFlight i (.tripAccepted i f) →
          t.bi.attempt = none ∧ t.bi.rx = none ∧ t.bi.abandonCount = 0 ∧ t.bi.rejectCount = 0
          ∧ t.bi.tripSlot = s.busAfterOwn.tripSlot
          ∧ t.bi.queue = s.busAfterOwn.queue.filter fun y =>
              !s.cq.entries.any fun e => e.content = .clearTrip i && y.body.objectsTo e.id)
      ∧ (s.os.GatesOk → t.OutputsOff) ∧ t.rt = s.rt ∧ t.cq.duty = s.cq.duty ∧ t.SameCounters s ∧ t.sc.station = s.sc.station)
  ∧ ∀ (i : StationId) (f : TripFields) (s : State), s.NotSending → s.isMember = false →
      (s.isFollower = false ∨ s.hasCopy = false) →
      ∃ t, exec (.tripAccepted i f) s = .next t ∧ t.SameShared s ∧ t.fu.lastTrip = s.fu.lastTrip

/-- A ROSTER_QUERY at a member: a reply to another station is queued, or its asker pends when the queue is full; one
that is queued already stands; the own query is owed nothing. An accepted reply to an asker takes every queued reply to it away,
and the asker out of the pending ones; at a boundary a reply is offered to each asker that pends. The station's own query, once
accepted, leaves the transmit queue and the abandon count returns to 0; the own reply does so too. Its queries: the need, the
countdown, and the end of the need (R57, R59, R61, R65, R81, R82). That the pending replies stay as they were where a reply to
the asker is queued already, and that an asker which pends while a reply to it is queued leaves at the next boundary, is the
model's choice (log 5); that a query in flight whose need ends is driven no further is the model's choice too (log 35). That the own
frame is known by the kind in flight is an inference (log 12). -/
def Obligations.RosterQueryAccepted : Prop :=
  (∀ (i : StationId) (s : State), s.isMember = true → s.NotSending → s.Settled →
    ((i = s.ownId ∨ s.hasQueued (·.repliesTo i) = true) →
      exec (.rosterQueryAccepted i) s = .next s.afterFrame)
    ∧ (i ≠ s.ownId → s.hasQueued (·.repliesTo i) = false → s.bi.queue.length < 6 →
        ∃ t, exec (.rosterQueryAccepted i) s = .next t
          ∧ t.bi = { s.afterFrame.bi with queue := insertFrame ⟨.reply i, 0, false⟩ s.bi.queue }
          ∧ t.rt = s.rt ∧ t.SameShared s ∧ t.sc = s.sc ∧ t.tb = s.tb ∧ t.os = s.os ∧ t.pu = s.pu ∧ t.sp = s.sp)
    ∧ (i ≠ s.ownId → s.hasQueued (·.repliesTo i) = false → 6 ≤ s.bi.queue.length →
        exec (.rosterQueryAccepted i) s = .next { s.afterFrame with
          rt := { s.rt with pendingReplies := s.rt.pendingReplies ||| stationBit i } }))
  ∧ (∀ (i : StationId) (s : State), (s.isMember = true ∨ s.isFollower = true) → s.Settled →
      s.InFlight i (.rosterQueryAccepted i) →
      ∃ t, exec (.rosterQueryAccepted i) s = .next t ∧ t.bi = s.busAfterOwn
        ∧ t.sc = (if s.sc.station = .listen then { s.sc with quiet := 0, frameSinceListen := true } else s.sc)
        ∧ t = { s with bi := t.bi, sc := t.sc, fu := t.fu } ∧ t.SameShared s)
  ∧ (∀ (i : StationId) (r : ReplyFields) (s : State), s.isMember = true → s.Settled →
      (s.NotSending ∨ s.InFlight i (.rosterReplyAccepted i r)) →
      ∃ t, exec (.rosterReplyAccepted i r) s = .next t
        ∧ (s.NotSending → t.bi = { s.afterFrame.bi with
            queue := s.bi.queue.filter fun y => !y.body.repliesTo (stationOfNibble r.asker) })
        ∧ (s.InFlight i (.rosterReplyAccepted i r) → t.bi = { s.busAfterOwn with
            queue := s.busAfterOwn.queue.filter fun y => !y.body.repliesTo (stationOfNibble r.asker) })
        ∧ t.rt = { s.rt with pendingReplies := t.rt.pendingReplies }
        ∧ (∀ j : StationId, t.rt.pendingReplies.getLsbD j.val
            = (s.rt.pendingReplies.getLsbD j.val && decide (j ≠ stationOfNibble r.asker)))
        ∧ t = { s with bi := t.bi, rt := t.rt, fu := t.fu } ∧ t.SameShared s)
  ∧ (∀ (s : State) (i : StationId),
      ((s.isMember = false ∨ s.rt.pendingReplies.getLsbD i.val = false) → s.offerReply i = s)
      ∧ (s.isMember = true → s.rt.pendingReplies.getLsbD i.val = true →
          (s.hasQueued (·.repliesTo i) = true → s.offerReply i
            = { s with rt := { s.rt with pendingReplies := s.rt.pendingReplies &&& ~~~stationBit i } })
          ∧ (s.hasQueued (·.repliesTo i) = false → s.bi.queue.length < 6 →
              (s.offerReply i).bi = { s.bi with queue := insertFrame ⟨.reply i, 0, false⟩ s.bi.queue }
              ∧ (s.offerReply i).rt = { s.rt with pendingReplies := s.rt.pendingReplies &&& ~~~stationBit i }
              ∧ (s.offerReply i).SameShared s)
          ∧ (s.hasQueued (·.repliesTo i) = false → 6 ≤ s.bi.queue.length → s.offerReply i = s)))
  ∧ (∀ s : State, s.needsRoster = true ↔ s.tb.state = .locked
      ∧ ((s.sc.station = .listen ∧ s.rt.copySource = .none)
        ∨ (s.sc.station = .resync ∧ (s.rt.copySource = .none ∨ s.rt.copySource = .old))))
  ∧ ∀ s : State,
      let t := s.queryAtBoundary
      (s.needsRoster = false →
        t.rt = { s.rt with countdown := 0 } ∧ t.sc = s.sc ∧ t.tb = s.tb ∧ t.SameShared s
        ∧ (s.isFollower = true → t.bi.queue = s.bi.queue.filter fun y => !y.body.isQuery)
        ∧ (s.isFollower = false → t.bi = s.bi))
      ∧ (s.needsRoster = true →
          (1 < s.rt.countdown → t = { s with rt := { s.rt with countdown := s.rt.countdown - 1 } })
          ∧ (s.rt.countdown ≤ 1 →
              (s.hasQueued (·.isQuery) = true → t = { s with rt := { s.rt with countdown := 0 } })
              ∧ (s.hasQueued (·.isQuery) = false → 6 ≤ s.bi.queue.length →
                  t = { s with rt := { s.rt with countdown := 0 } })
              ∧ (s.hasQueued (·.isQuery) = false → s.bi.queue.length < 6 →
                  t.bi = { s.bi with queue := insertFrame ⟨.query, 0, false⟩ s.bi.queue }
                  ∧ t.rt = { s.rt with countdown := s.listenEpochs } ∧ t.SameShared s ∧ t.sc = s.sc)))

/-- Adoption of a ROSTER_REPLY in LISTEN without a copy and in RESYNC before a reply: entries, duty, trip set, EN,
fingerprint, copy source, standing and target. A reply that is another's, that carries another digest, an undefined nibble or a
roster without the expected group key, or that the station does not ask for leaves the shared state and the standing as they
were (R15, R79, R84, R122, R123, R129, R191, R192). That O jumps to a target which did not change is an inference, and that where
no target is given O is kept, a slewed cycle ends and an unslewed one goes on is the model's choice (log 11). -/
def Obligations.RosterReplyAccepted : Prop :=
  ∀ (i : StationId) (r : ReplyFields) (s : State), s.isFollower = true → s.NotSending → i ≠ s.ownId →
    (∀ es, ((s.sc.station = .listen ∧ s.rt.copySource = .none)
        ∨ (s.sc.station = .resync ∧ (s.rt.copySource = .none ∨ s.rt.copySource = .old))) →
      State.entriesOfCode r.roster r.en = some es → stationOfNibble r.asker = s.ownId →
      (∀ k, s.rt.expectedKey = some k → k = lowestActive es) →
      r.digest = digestOfCode r.roster r.duty r.tripSet →
      ∃ t, exec (.rosterReplyAccepted i r) s = .next t ∧ t.rt.entries = es ∧ t.cq.entries = [] ∧ t.cq.duty = r.duty
        ∧ t.fu.tripSet = r.tripSet ∧ t.tb.en = r.en ∧ t.rt.groupFingerprint = some r.fingerprint
        ∧ t.rt.copySource = .reply ∧ t.rt.armed = false ∧ t.rt.countdown = 0 ∧ t.sc.standing = .held
        ∧ t.sc.station = s.sc.station ∧ t.rt.expectedKey = s.rt.expectedKey
        ∧ (∀ x ∈ t.bi.queue, x.body ≠ .query) ∧ t.tb.b = s.tb.b ∧ t.tb.k = s.tb.k
        ∧ (∀ slot, slotOf es s.ownId = some slot →
            t.pu.target = some (slot * s.period / phaseCount es) ∧ t.pu.offset = slot * s.period / phaseCount es
            ∧ t.pu.slewing = false)
        ∧ (slotOf es s.ownId = none → t.pu.target = none ∧ t.pu.offset = s.pu.offset ∧ t.pu.slewing = false
            ∧ t.pu.step = 0 ∧ (s.pu.step = 0 → t.os.p = s.os.p ∧ t.pu.length = s.pu.length))
        ∧ (s.os.GatesOk → t.OutputsOff))
    ∧ ((State.entriesOfCode r.roster r.en = none ∨ stationOfNibble r.asker ≠ s.ownId
          ∨ r.digest ≠ digestOfCode r.roster r.duty r.tripSet
          ∨ (∃ k es, s.rt.expectedKey = some k ∧ State.entriesOfCode r.roster r.en = some es ∧ k ≠ lowestActive es)
          ∨ s.sc.station = .joining ∨ s.rt.copySource = .own ∨ s.rt.copySource = .reply
          ∨ (s.sc.station = .listen ∧ s.rt.copySource = .old)) →
        ∃ t, exec (.rosterReplyAccepted i r) s = .next t ∧ t.SameShared s ∧ t.rt.copySource = s.rt.copySource
          ∧ t.sc.standing = s.sc.standing ∧ t.SameCounters s)

/-- Frames that are handed to no block. One that no block owns, and a BEAT out of range, change nothing but the Bus Interface,
and LISTEN has heard the bus; that such a BEAT leaves the quiet count of RESYNC is the model's choice (log 13). An accepted
frame of the own ID that the station did not send halts it in LISTEN and JOINING; in DORMANT an accepted frame of any kind
changes none of the shared state (R5, R17, R18, R19, R54, R190, R191). -/
def Obligations.FramesHandedToNoBlock : Prop :=
  (∀ (i : StationId) (c : Instr) (s : State), s.NotSending → s.Settled →
    ((∃ h, c = .unownedFrameAccepted i h)
      ∨ ∃ f, c = .beatAccepted i f ∧ (8 < f.depth.toNat ∨ 16 < f.lowestActive.toNat ∨ 16 < f.activeCount.toNat)) →
    ((s.isMember = true ∨ s.sc.station = .resync ∨ (s.sc.station = .joining ∧ i ≠ s.ownId)) →
      exec c s = .next s.afterFrame)
    ∧ (s.sc.station = .listen → i ≠ s.ownId → exec c s
        = .next { s.afterFrame with sc := { s.sc with quiet := 0, frameSinceListen := true } }))
  ∧ ∀ (i : StationId) (c : Instr) (s : State), s.NotSending →
      ((∃ f, c = .beatAccepted i f) ∨ (∃ p, c = .proposeAccepted i p) ∨ (∃ o, c = .objectAccepted i o)
        ∨ (∃ f, c = .tripAccepted i f) ∨ c = .rosterQueryAccepted i ∨ (∃ r, c = .rosterReplyAccepted i r)
        ∨ ∃ h, c = .unownedFrameAccepted i h) →
      (s.sc.station ∈ [.listen, .joining] → i = s.ownId →
        ∃ t, exec c s = .next t ∧ t.sc.station = .halted ∧ t.sc.reason = .idConflict ∧ t.SameShared s
          ∧ (s.os.GatesOk → t.OutputsOff) ∧ t.bi.queue = [] ∧ t.hasEvent .state = true)
      ∧ (s.sc.station = .dormant → ∃ t, exec c s = .next t ∧ t.sc = s.sc ∧ t.SameShared s ∧ t.tb = s.tb
          ∧ t.bi = s.afterFrame.bi)

/-! ### The station clock -/

/-- One station clock, which is what a step does with no command waiting: the port, SBD, then a count of the PWM clock every
PRESCALE clocks, an order and a phase that are the model's choice (log 2). A count: the own mark drive, B, K and P one on, the
boundary where both are 0, a local cycle start where P reaches L, a half-cycle point where it reaches floor(L / 2), the fault
samples, the gates, then SBM. Each brings about what its row of the table does. Of two events on one count that the rules leave in
either order, a free value chooses where the orders differ; the boundary is before or after the other two (log 3). That SBM is
sampled last (log 10), that FLT0, FLT1 and FLT2 are taken in turn (log 14), the port's last samples and that an edge of SCS comes
before one of SCK (log 23) are the model's choice; the edge filter's run, the levels of the count before and the re-anchored mark
are fields that the rules imply (logs 20, 21) (R1, R3, R20, R21, R24, R26, R27, R36, R124, R138, R148, R153, R171, R172). -/
def Obligations.StationClock : Prop :=
  (∀ s : State,
    (s.pins.nrst = false → exec .deviceReset s = .next s.tick)
    ∧ (s.pins.nrst = true → s.sc.station = .setup → s.tick = s.tickPort)
    ∧ (s.pins.nrst = true → s.sc.station ≠ .setup →
        s.tick = s.tickPort.tickBus.tickPrescale.settle
        ∧ (s.tickPort.tickBus.tickPrescale.Settled → s.tick = s.tickPort.tickBus.tickPrescale))
    ∧ (s.phase + 1 < s.prescale → s.tickPrescale = { s with phase := s.phase + 1 })
    ∧ (s.prescale ≤ s.phase + 1 → s.tickPrescale = ({ s with phase := 0 } : State).tickCount)
    ∧ s.tickCount = s.driveCount.advanceCounters.countEvents.regate.markAtCount)
  ∧ (∀ s t : State, t = s.tickCount → s.tb.driveLeft = 0 → s.tb.b + 1 < s.period → s.os.p + 1 < s.pu.length →
      s.os.p + 1 ≠ s.pu.length / 2 → s.pins.sbmPulled = false → s.tb.levelLow = false →
      s.tb.lowRun ≤ 64 → (∀ i, s.evaluates i = true → (s.faultPin i != (s.input i).activeLow) = (s.inputRecord i).active) →
      t.tb = { s.tb with b := s.tb.b + 1, filterRun := 0 } ∧ t.os.p = s.os.p + 1 ∧ t.os.mode = s.os.mode
      ∧ t.os.cmp = s.os.cmp ∧ t.os = OutputStage.regate s.deadtime { s.os.nextCount s.deadtime with p := s.os.p + 1 }
      ∧ t = { s with tb := t.tb, os := t.os, fu := t.fu } ∧ t.fu.tripSet = s.fu.tripSet)
  ∧ (∀ s t : State, t = s.advanceCounters →
      (s.tb.b + 1 < s.period → t.tb = { s.tb with b := s.tb.b + 1 })
      ∧ (s.period ≤ s.tb.b + 1 → s.tb.k + 1 < s.epochLen → t.tb = { s.tb with b := 0, k := s.tb.k + 1 })
      ∧ (s.period ≤ s.tb.b + 1 → s.epochLen ≤ s.tb.k + 1 → t.tb = { s.tb with b := 0, k := 0 })
      ∧ t.os = { s.os.nextCount s.deadtime with p := s.os.p + 1 } ∧ t = { s with tb := t.tb, os := t.os })
  ∧ (∀ s : State,
      (0 < s.period → (s.tb.b ≠ 0 ∨ s.tb.k ≠ 0) → s.countEvents = s.cycleAndSamples)
      ∧ (s.tb.b = 0 → s.tb.k = 0 → BothTaken (State.boundary true) State.cycleAndSamples s s.countEvents
          ∧ (s.sc.station ≠ .setup → exec .naturalBoundary s = .next (s.boundary true))))
  ∧ (∀ s : State,
      let half := s.os.p = s.pu.length / 2 ∧ s.os.anchored = false
      (s.os.p < s.pu.length → ¬half → s.cycleAndSamples = s.sampleInputs)
      ∧ ((s.pu.length ≤ s.os.p ∨ half) → BothTaken State.sampleInputs State.cycleAtCount s s.cycleAndSamples)
      ∧ (s.os.p < s.pu.length → half → s.sc.station ≠ .setup → exec .halfCyclePoint s = .next s.cycleAtCount)
      ∧ (s.pu.length ≤ s.os.p → s.someClears = false →
          s.cycleAtCount = s.cycleStart true
          ∧ (s.sc.station ≠ .setup → exec .localCycleStart s
              = .next (({ s with os := s.os.newCount } : State).cycleStart true)))
      ∧ (s.pu.length ≤ s.os.p → s.someClears = true →
          (s.cycleAtCount = (s.nextFree.cycleStart true).halfPoint ∨ s.cycleAtCount = s.nextFree.halfPoint.cycleStart true)
          ∧ (s.sc.station ≠ .setup → exec .halfCyclePoint s = .next s.halfPoint))
      ∧ (s.someClears = true ↔ ∃ i, (s.inputRecord i).latched = true ∧ (s.inputRecord i).active = false
          ∧ ((s.input i).manual = false ∨ (s.inputRecord i).ackArmed = true)))
  ∧ (∀ s : State, s.sampleInputs = ((s.sampleInput .flt0).sampleInput .flt1).sampleInput .flt2
      ∧ s.faultPin .flt0 = s.pins.flt0 ∧ s.faultPin .flt1 = s.pins.flt1 ∧ s.faultPin .flt2 = s.pins.flt2)
  ∧ (∀ (i : InputNo) (asserted : Bool) (s : State), asserted = (s.faultPin i != (s.input i).activeLow) →
      (s.evaluates i = true ↔ s.sc.station ≠ .setup ∧ (s.input i).cls ≠ .unused)
      ∧ (s.evaluates i = false → s.sampleInput i = s)
      ∧ (s.evaluates i = true →
          (asserted = (s.inputRecord i).active → s.sampleInput i = s.modInput i fun r => { r with disagree := 0 })
          ∧ (asserted ≠ (s.inputRecord i).active → (s.inputRecord i).disagree + 1 < (s.input i).filter →
              s.sampleInput i = s.modInput i fun r => { r with disagree := r.disagree + 1 })
          ∧ (asserted = true → (s.inputRecord i).active = false → (s.input i).filter ≤ (s.inputRecord i).disagree + 1 →
              exec (.faultActivation i) s = .next (s.sampleInput i))
          ∧ (asserted = false → (s.inputRecord i).active = true → (s.input i).filter ≤ (s.inputRecord i).disagree + 1 →
              exec (.faultRelease i) s = .next (s.sampleInput i))))
  ∧ (∀ (i : InputNo) (f : InputRecord → InputRecord) (s : State), (s.modInput i f).inputRecord i = f (s.inputRecord i)
      ∧ (∀ j, j ≠ i → (s.modInput i f).inputRecord j = s.inputRecord j)
      ∧ s.modInput i f = { s with fu := (s.modInput i f).fu } ∧ (s.modInput i f).fu.tripSet = s.fu.tripSet
      ∧ (s.modInput i f).fu.lastTrip = s.fu.lastTrip)
  ∧ (∀ s : State, s.markAtCount = (s.filterMark s.sbmLow).sampleDrive s.sbmLow
      ∧ (s.sbmLow = true ↔ s.pins.sbmPulled = true ∨ (s.tb.driveLeft ≠ 0 ∧ s.pins.sbmOpen = false))
      ∧ (∀ low : Bool, (s.tb.driveLeft = 0 → s.sampleDrive low = s)
          ∧ (s.tb.driveLeft ≠ 0 →
              s.sampleDrive low = { s with tb := { s.tb with driveReadLow := s.tb.driveReadLow || low } }))
      ∧ (s.tb.driveLeft = 1 → exec (.markDriveEnd (!s.tb.driveReadLow)) s = .next s.driveCount)
      ∧ (s.tb.driveLeft ≠ 1 → s.driveCount = { s with tb := { s.tb with driveLeft := s.tb.driveLeft - 1 } }))
  ∧ (∀ (low : Bool) (s : State), ∃ u v : State,
      (low = s.tb.levelLow → u = { s with tb := { s.tb with filterRun := 0 } })
      ∧ (low ≠ s.tb.levelLow → s.tb.filterRun < 2 → u = { s with tb := { s.tb with filterRun := s.tb.filterRun + 1 } })
      ∧ (low = true → s.tb.levelLow = false → 2 ≤ s.tb.filterRun → exec .markEdge s = .next u)
      ∧ (low = false → s.tb.levelLow = true → 2 ≤ s.tb.filterRun → exec .markRelease s = .next u)
      ∧ ((low = false ∨ s.tb.levelLow = false) → v = u)
      ∧ (low = true → s.tb.levelLow = true → v = { u with tb := { u.tb with lowRun := min 65 (u.tb.lowRun + 1) } })
      ∧ ((v.tb.lowRun ≤ 64 ∨ v.tb.state = .holdover) → s.filterMark low = v)
      ∧ (64 < v.tb.lowRun → v.tb.state ≠ .holdover → exec .holdoverEntry v = .next (s.filterMark low)))
  ∧ (∀ s u : State, u = s.evaluatePort.portSelect.portClock →
      s.tickPort = { u with sp := { u.sp with scsWas := s.pins.scs, sckWas := s.pins.sck } })
  ∧ (∀ s : State,
      (s.sp.transaction = none → s.evaluatePort = s)
      ∧ (∀ x, s.sp.transaction = some x → (x.evaluated = true ∨ State.completeCommand x = none) → s.evaluatePort = s)
      ∧ ∀ x code args, s.sp.transaction = some x → x.evaluated = false → State.completeCommand x = some (code, args) →
          ∃ t, exec (decodeCommand code args) s = .next t
            ∧ s.evaluatePort = { t with sp := { t.sp with
                transaction := some { x with evaluated := true, toSend := bytesBits t.sp.response } } })
  ∧ (∀ (x : Transaction) (code : Byte) (args : List Byte), State.completeCommand x = some (code, args) ↔
      x.received = byteBits code ++ bytesBits args ∧ args.length = (commandArgs code).getD 0)
  ∧ ∀ s : State,
      (s.sp.scsWas = true → s.pins.scs = false → s.portSelect
        = { s with sp := { s.sp with transaction := some ⟨[], false, [], false⟩ } })
      ∧ (s.sp.scsWas = s.pins.scs → s.portSelect = s)
      ∧ (s.sp.scsWas = false → s.pins.scs = true →
          (s.sp.transaction = none → s.portSelect = s)
          ∧ ∀ x, s.sp.transaction = some x → x.evaluated = true →
              s.portSelect = { s with sp := { s.sp with transaction := none } })
      ∧ ((s.pins.scs = true ∨ s.sp.sckWas = s.pins.sck ∨ s.sp.transaction = none) → s.portClock = s)
      ∧ ∀ x, s.pins.scs = false → s.sp.transaction = some x →
          (s.sp.sckWas = false → s.pins.sck = true → s.portClock = { s with sp := { s.sp with
            transaction := some { x with received := if x.evaluated then x.received else x.received ++ [s.pins.sdi] } } })
          ∧ (s.sp.sckWas = true → s.pins.sck = false → s.portClock = { s with sp := { s.sp with
            transaction := some { x with sdo := x.toSend.headD false, toSend := x.toSend.tail } } })

/-! ### Encodings -/

/-- The check word: its loading, its step for each bit, its two worked values and its three uses (R189). -/
def Obligations.CheckWord : Prop :=
  checkWord [] = 0xFFFF
  ∧ (∀ (bs : List Byte) (b : Byte), checkWord (bs ++ [b]) = (byteBits b).foldl checkBit (checkWord bs))
  ∧ (∀ b : Byte, byteBits b = (List.range 8).map fun i => b.getLsbD (7 - i))
  ∧ (∀ (reg : Word) (d : Bool), checkBit reg d
      = if (reg.getLsbD 15 ^^ d) = true then (reg <<< 1) ^^^ 0x1021#16 else reg <<< 1)
  ∧ checkWord [0x31, 0x32, 0x33, 0x34, 0x35, 0x36, 0x37, 0x38, 0x39] = 0x29B1
  ∧ (∀ (i : StationId) (h : FrameHeader) (payload : List Byte), frameBits i h payload
      = false :: bytesBits (headerBytes i h ++ payload ++ wordBytes (checkWord (headerBytes i h ++ payload))) ++ [true])
  ∧ (∀ (roster : BitVec 64) (duty trips : Word),
      digestOfCode roster duty trips = checkWord (rosterBytes roster ++ wordBytes duty ++ wordBytes trips))
  ∧ ∀ r : SetupRecord, fingerprintOf r
      = checkWord [recordByte r 4, recordByte r 5, recordByte r 2, recordByte r 6, recordByte r 7, recordByte r 8,
          recordByte r 9, recordByte r 3, recordByte r 20, recordByte r 18, recordByte r 19]

/-- Decoding the bytes that a frame of the bus is encoded in gives the frame, with every field at every value it can
hold (R190, R191, R194). -/
def Obligations.FrameRoundTrip : Prop :=
  ∀ (c : Instr) (i : StationId) (h : FrameHeader) (payload : List Byte), encodeFrame c = some (i, h, payload) →
    decodeFrame i h payload = c ∧ payload.length = h.length.toNat
    ∧ ∃ b0 b1, headerBytes i h = [b0, b1] ∧ headerOfBytes b0 b1 = (i, h)

/-- Decoding the bytes that a Setup Port command is encoded in gives the command, the 32 bytes of a record included
(R172, R195, R196). -/
def Obligations.CommandRoundTrip : Prop :=
  ∀ (c : Instr) (code : Byte) (args : List Byte), c.wf = true → encodeCommand c = some (code :: args) →
    decodeCommand code args = c ∧ args.length = (commandArgs code).getD 0

/-- The coded roster holds state and kind of every entry, an ABSENT one coded as PHASE, and is decoded to them; the
worked bytes of R193 (R192, R193). -/
def Obligations.RosterCoding : Prop :=
  (∀ (en : Word) (entries : List RosterEntry),
    ∃ es, State.entriesOfCode (rosterCode entries) en = some es ∧ es.length = 16
      ∧ ∀ i : StationId, (es.getD i.val RosterEntry.absentEntry).state = (entries.getD i.val RosterEntry.absentEntry).state
          ∧ ((entries.getD i.val RosterEntry.absentEntry).state ≠ .absent →
              (es.getD i.val RosterEntry.absentEntry).kind = (entries.getD i.val RosterEntry.absentEntry).kind)
          ∧ (es.getD i.val RosterEntry.absentEntry).silent = 0 ∧ (es.getD i.val RosterEntry.absentEntry).heard = false
          ∧ (es.getD i.val RosterEntry.absentEntry).lastBeat = none)
  ∧ (∀ entries : List RosterEntry,
      (∀ i : StationId, (entries.getD i.val RosterEntry.absentEntry).state
          = (if i ∈ [(1 : StationId), 3, 6, 8] then .active else .absent)
        ∧ (entries.getD i.val RosterEntry.absentEntry).kind = .phase) →
      rosterCode entries = 0x0404004040000000
      ∧ (∀ trips, digestOfCode (rosterCode entries) 45000 trips
          = checkWord ([0x04, 0x04, 0x00, 0x40, 0x40, 0x00, 0x00, 0x00, 0xAF, 0xC8] ++ wordBytes trips)))
  ∧ wordBytes 0 = [0x00, 0x00] ∧ wordBytes (stationBit 6) = [0x00, 0x40]

/-- The slots are exactly 0 to N − 1, each held once, in ascending order of station ID, by the ACTIVE PHASE entries
alone (R68). -/
def Obligations.SlotsAreRanks : Prop :=
  ∀ entries : List RosterEntry,
    (∀ i, (slotOf entries i).isSome = (entries.getD i.val RosterEntry.absentEntry).holdsSlot)
    ∧ (∀ i n, slotOf entries i = some n → n < phaseCount entries)
    ∧ (∀ i j n m, slotOf entries i = some n → slotOf entries j = some m → (n < m ↔ i < j))
    ∧ (∀ n, n < phaseCount entries → ∃ i, slotOf entries i = some n)
    ∧ phaseCount entries ≤ 16

/-! ### What every step keeps -/

/-- From a state with the invariant a step leads to a state with it: GH and GL not active together, neither in OFF; the
output mode and the target as the rules derive them; the record unlocked in SETUP only; every table within its size. -/
def Obligations.StepKeepsInv : Prop := ∀ s t : State, s.Inv → step s = .next t → t.Inv

/-- The state after reset has the invariant that every step keeps. -/
def Obligations.ResetHasInv : Prop := State.reset.Inv

/-- In a state that has what every step keeps the outputs are safe: GH and GL never together, and while the station is
no MEMBER or LEAVING or the trip set is not empty both inactive with GEN deasserted (R136, R143). -/
def Obligations.InvKeepsOutputsSafe : Prop := ∀ s : State, s.Inv → s.OutputsSafe

/-- What every command but DEVICE_RESET leaves as it was: the input pins and the waiting commands; the record, but for
an accepted WRITE_SETUP, and the lock once set; the event mask, but for SET_EVENT_MASK; a raised event, but for
CLEAR_EVENTS; the counters, EN and the last lead, but for START, a boundary, a mark edge and the two frames that carry an
EN (R20, R174, R186, R187). -/
def Obligations.CommandFrame : Prop :=
  ∀ (c : Instr) (s t : State), c ≠ .deviceReset → exec c s = .next t →
    t.pins = s.pins ∧ t.pending = s.pending
    ∧ ((∀ r, c ≠ .writeSetup r) → t.sp.record = s.sp.record)
    ∧ (s.sp.locked = true → t.sp.record = s.sp.record ∧ t.sp.locked = true)
    ∧ ((∀ m, c ≠ .setEventMask m) → t.sp.mask = s.sp.mask)
    ∧ ((∀ m, c ≠ .clearEvents m) → ∀ e : Event, s.hasEvent e = true → t.hasEvent e = true)
    ∧ (c ≠ .start → c ≠ .naturalBoundary → c ≠ .markEdge → (∀ i f, c ≠ .beatAccepted i f) →
        (∀ i r, c ≠ .rosterReplyAccepted i r) → t.SameCounters s ∧ t.tb.lastLead = s.tb.lastLead)

/-- In SETUP no time, line, fault or frame event has an effect (R3, R21, R27, R42, R153). -/
def Obligations.NothingHappensInSetup : Prop :=
  ∀ (c : Instr) (s : State), s.sc.station = .setup → encodeCommand c = none → c ≠ .deviceReset → c ≠ .portAbort →
    exec c s = .next s
end

