-- ==== Sys2Proof/Laws/State.lean ====
section
/-! SUPPORT. What each field of the state is after each update of one block, an event, a response and a used-up
free value: one lemma per field per update. -/

namespace Sys2Proof.Machine.State

/-! ### After `modSc` -/

@[simp] theorem modSc_sc (g : StationController → StationController) (s : State) : (s.modSc g).sc = g s.sc := rfl
@[simp] theorem modSc_tb (g : StationController → StationController) (s : State) : (s.modSc g).tb = s.tb := rfl
@[simp] theorem modSc_bi (g : StationController → StationController) (s : State) : (s.modSc g).bi = s.bi := rfl
@[simp] theorem modSc_rt (g : StationController → StationController) (s : State) : (s.modSc g).rt = s.rt := rfl
@[simp] theorem modSc_cq (g : StationController → StationController) (s : State) : (s.modSc g).cq = s.cq := rfl
@[simp] theorem modSc_pu (g : StationController → StationController) (s : State) : (s.modSc g).pu = s.pu := rfl
@[simp] theorem modSc_os (g : StationController → StationController) (s : State) : (s.modSc g).os = s.os := rfl
@[simp] theorem modSc_fu (g : StationController → StationController) (s : State) : (s.modSc g).fu = s.fu := rfl
@[simp] theorem modSc_sp (g : StationController → StationController) (s : State) : (s.modSc g).sp = s.sp := rfl
@[simp] theorem modSc_phase (g : StationController → StationController) (s : State) : (s.modSc g).phase = s.phase := rfl
@[simp] theorem modSc_pins (g : StationController → StationController) (s : State) : (s.modSc g).pins = s.pins := rfl
@[simp] theorem modSc_freeCount (g : StationController → StationController) (s : State) : (s.modSc g).freeCount = s.freeCount := rfl
@[simp] theorem modSc_pending (g : StationController → StationController) (s : State) : (s.modSc g).pending = s.pending := rfl

/-! ### After `modTb` -/

@[simp] theorem modTb_sc (g : TimeBase → TimeBase) (s : State) : (s.modTb g).sc = s.sc := rfl
@[simp] theorem modTb_tb (g : TimeBase → TimeBase) (s : State) : (s.modTb g).tb = g s.tb := rfl
@[simp] theorem modTb_bi (g : TimeBase → TimeBase) (s : State) : (s.modTb g).bi = s.bi := rfl
@[simp] theorem modTb_rt (g : TimeBase → TimeBase) (s : State) : (s.modTb g).rt = s.rt := rfl
@[simp] theorem modTb_cq (g : TimeBase → TimeBase) (s : State) : (s.modTb g).cq = s.cq := rfl
@[simp] theorem modTb_pu (g : TimeBase → TimeBase) (s : State) : (s.modTb g).pu = s.pu := rfl
@[simp] theorem modTb_os (g : TimeBase → TimeBase) (s : State) : (s.modTb g).os = s.os := rfl
@[simp] theorem modTb_fu (g : TimeBase → TimeBase) (s : State) : (s.modTb g).fu = s.fu := rfl
@[simp] theorem modTb_sp (g : TimeBase → TimeBase) (s : State) : (s.modTb g).sp = s.sp := rfl
@[simp] theorem modTb_phase (g : TimeBase → TimeBase) (s : State) : (s.modTb g).phase = s.phase := rfl
@[simp] theorem modTb_pins (g : TimeBase → TimeBase) (s : State) : (s.modTb g).pins = s.pins := rfl
@[simp] theorem modTb_freeCount (g : TimeBase → TimeBase) (s : State) : (s.modTb g).freeCount = s.freeCount := rfl
@[simp] theorem modTb_pending (g : TimeBase → TimeBase) (s : State) : (s.modTb g).pending = s.pending := rfl

/-! ### After `modBi` -/

@[simp] theorem modBi_sc (g : BusInterface → BusInterface) (s : State) : (s.modBi g).sc = s.sc := rfl
@[simp] theorem modBi_tb (g : BusInterface → BusInterface) (s : State) : (s.modBi g).tb = s.tb := rfl
@[simp] theorem modBi_bi (g : BusInterface → BusInterface) (s : State) : (s.modBi g).bi = g s.bi := rfl
@[simp] theorem modBi_rt (g : BusInterface → BusInterface) (s : State) : (s.modBi g).rt = s.rt := rfl
@[simp] theorem modBi_cq (g : BusInterface → BusInterface) (s : State) : (s.modBi g).cq = s.cq := rfl
@[simp] theorem modBi_pu (g : BusInterface → BusInterface) (s : State) : (s.modBi g).pu = s.pu := rfl
@[simp] theorem modBi_os (g : BusInterface → BusInterface) (s : State) : (s.modBi g).os = s.os := rfl
@[simp] theorem modBi_fu (g : BusInterface → BusInterface) (s : State) : (s.modBi g).fu = s.fu := rfl
@[simp] theorem modBi_sp (g : BusInterface → BusInterface) (s : State) : (s.modBi g).sp = s.sp := rfl
@[simp] theorem modBi_phase (g : BusInterface → BusInterface) (s : State) : (s.modBi g).phase = s.phase := rfl
@[simp] theorem modBi_pins (g : BusInterface → BusInterface) (s : State) : (s.modBi g).pins = s.pins := rfl
@[simp] theorem modBi_freeCount (g : BusInterface → BusInterface) (s : State) : (s.modBi g).freeCount = s.freeCount := rfl
@[simp] theorem modBi_pending (g : BusInterface → BusInterface) (s : State) : (s.modBi g).pending = s.pending := rfl

/-! ### After `modRt` -/

@[simp] theorem modRt_sc (g : RosterTable → RosterTable) (s : State) : (s.modRt g).sc = s.sc := rfl
@[simp] theorem modRt_tb (g : RosterTable → RosterTable) (s : State) : (s.modRt g).tb = s.tb := rfl
@[simp] theorem modRt_bi (g : RosterTable → RosterTable) (s : State) : (s.modRt g).bi = s.bi := rfl
@[simp] theorem modRt_rt (g : RosterTable → RosterTable) (s : State) : (s.modRt g).rt = g s.rt := rfl
@[simp] theorem modRt_cq (g : RosterTable → RosterTable) (s : State) : (s.modRt g).cq = s.cq := rfl
@[simp] theorem modRt_pu (g : RosterTable → RosterTable) (s : State) : (s.modRt g).pu = s.pu := rfl
@[simp] theorem modRt_os (g : RosterTable → RosterTable) (s : State) : (s.modRt g).os = s.os := rfl
@[simp] theorem modRt_fu (g : RosterTable → RosterTable) (s : State) : (s.modRt g).fu = s.fu := rfl
@[simp] theorem modRt_sp (g : RosterTable → RosterTable) (s : State) : (s.modRt g).sp = s.sp := rfl
@[simp] theorem modRt_phase (g : RosterTable → RosterTable) (s : State) : (s.modRt g).phase = s.phase := rfl
@[simp] theorem modRt_pins (g : RosterTable → RosterTable) (s : State) : (s.modRt g).pins = s.pins := rfl
@[simp] theorem modRt_freeCount (g : RosterTable → RosterTable) (s : State) : (s.modRt g).freeCount = s.freeCount := rfl
@[simp] theorem modRt_pending (g : RosterTable → RosterTable) (s : State) : (s.modRt g).pending = s.pending := rfl

/-! ### After `modCq` -/

@[simp] theorem modCq_sc (g : CommitQueue → CommitQueue) (s : State) : (s.modCq g).sc = s.sc := rfl
@[simp] theorem modCq_tb (g : CommitQueue → CommitQueue) (s : State) : (s.modCq g).tb = s.tb := rfl
@[simp] theorem modCq_bi (g : CommitQueue → CommitQueue) (s : State) : (s.modCq g).bi = s.bi := rfl
@[simp] theorem modCq_rt (g : CommitQueue → CommitQueue) (s : State) : (s.modCq g).rt = s.rt := rfl
@[simp] theorem modCq_cq (g : CommitQueue → CommitQueue) (s : State) : (s.modCq g).cq = g s.cq := rfl
@[simp] theorem modCq_pu (g : CommitQueue → CommitQueue) (s : State) : (s.modCq g).pu = s.pu := rfl
@[simp] theorem modCq_os (g : CommitQueue → CommitQueue) (s : State) : (s.modCq g).os = s.os := rfl
@[simp] theorem modCq_fu (g : CommitQueue → CommitQueue) (s : State) : (s.modCq g).fu = s.fu := rfl
@[simp] theorem modCq_sp (g : CommitQueue → CommitQueue) (s : State) : (s.modCq g).sp = s.sp := rfl
@[simp] theorem modCq_phase (g : CommitQueue → CommitQueue) (s : State) : (s.modCq g).phase = s.phase := rfl
@[simp] theorem modCq_pins (g : CommitQueue → CommitQueue) (s : State) : (s.modCq g).pins = s.pins := rfl
@[simp] theorem modCq_freeCount (g : CommitQueue → CommitQueue) (s : State) : (s.modCq g).freeCount = s.freeCount := rfl
@[simp] theorem modCq_pending (g : CommitQueue → CommitQueue) (s : State) : (s.modCq g).pending = s.pending := rfl

/-! ### After `modPu` -/

@[simp] theorem modPu_sc (g : PlacementUnit → PlacementUnit) (s : State) : (s.modPu g).sc = s.sc := rfl
@[simp] theorem modPu_tb (g : PlacementUnit → PlacementUnit) (s : State) : (s.modPu g).tb = s.tb := rfl
@[simp] theorem modPu_bi (g : PlacementUnit → PlacementUnit) (s : State) : (s.modPu g).bi = s.bi := rfl
@[simp] theorem modPu_rt (g : PlacementUnit → PlacementUnit) (s : State) : (s.modPu g).rt = s.rt := rfl
@[simp] theorem modPu_cq (g : PlacementUnit → PlacementUnit) (s : State) : (s.modPu g).cq = s.cq := rfl
@[simp] theorem modPu_pu (g : PlacementUnit → PlacementUnit) (s : State) : (s.modPu g).pu = g s.pu := rfl
@[simp] theorem modPu_os (g : PlacementUnit → PlacementUnit) (s : State) : (s.modPu g).os = s.os := rfl
@[simp] theorem modPu_fu (g : PlacementUnit → PlacementUnit) (s : State) : (s.modPu g).fu = s.fu := rfl
@[simp] theorem modPu_sp (g : PlacementUnit → PlacementUnit) (s : State) : (s.modPu g).sp = s.sp := rfl
@[simp] theorem modPu_phase (g : PlacementUnit → PlacementUnit) (s : State) : (s.modPu g).phase = s.phase := rfl
@[simp] theorem modPu_pins (g : PlacementUnit → PlacementUnit) (s : State) : (s.modPu g).pins = s.pins := rfl
@[simp] theorem modPu_freeCount (g : PlacementUnit → PlacementUnit) (s : State) : (s.modPu g).freeCount = s.freeCount := rfl
@[simp] theorem modPu_pending (g : PlacementUnit → PlacementUnit) (s : State) : (s.modPu g).pending = s.pending := rfl

/-! ### After `modOs` -/

@[simp] theorem modOs_sc (g : OutputStage → OutputStage) (s : State) : (s.modOs g).sc = s.sc := rfl
@[simp] theorem modOs_tb (g : OutputStage → OutputStage) (s : State) : (s.modOs g).tb = s.tb := rfl
@[simp] theorem modOs_bi (g : OutputStage → OutputStage) (s : State) : (s.modOs g).bi = s.bi := rfl
@[simp] theorem modOs_rt (g : OutputStage → OutputStage) (s : State) : (s.modOs g).rt = s.rt := rfl
@[simp] theorem modOs_cq (g : OutputStage → OutputStage) (s : State) : (s.modOs g).cq = s.cq := rfl
@[simp] theorem modOs_pu (g : OutputStage → OutputStage) (s : State) : (s.modOs g).pu = s.pu := rfl
@[simp] theorem modOs_os (g : OutputStage → OutputStage) (s : State) : (s.modOs g).os = g s.os := rfl
@[simp] theorem modOs_fu (g : OutputStage → OutputStage) (s : State) : (s.modOs g).fu = s.fu := rfl
@[simp] theorem modOs_sp (g : OutputStage → OutputStage) (s : State) : (s.modOs g).sp = s.sp := rfl
@[simp] theorem modOs_phase (g : OutputStage → OutputStage) (s : State) : (s.modOs g).phase = s.phase := rfl
@[simp] theorem modOs_pins (g : OutputStage → OutputStage) (s : State) : (s.modOs g).pins = s.pins := rfl
@[simp] theorem modOs_freeCount (g : OutputStage → OutputStage) (s : State) : (s.modOs g).freeCount = s.freeCount := rfl
@[simp] theorem modOs_pending (g : OutputStage → OutputStage) (s : State) : (s.modOs g).pending = s.pending := rfl

/-! ### After `modFu` -/

@[simp] theorem modFu_sc (g : FaultUnit → FaultUnit) (s : State) : (s.modFu g).sc = s.sc := rfl
@[simp] theorem modFu_tb (g : FaultUnit → FaultUnit) (s : State) : (s.modFu g).tb = s.tb := rfl
@[simp] theorem modFu_bi (g : FaultUnit → FaultUnit) (s : State) : (s.modFu g).bi = s.bi := rfl
@[simp] theorem modFu_rt (g : FaultUnit → FaultUnit) (s : State) : (s.modFu g).rt = s.rt := rfl
@[simp] theorem modFu_cq (g : FaultUnit → FaultUnit) (s : State) : (s.modFu g).cq = s.cq := rfl
@[simp] theorem modFu_pu (g : FaultUnit → FaultUnit) (s : State) : (s.modFu g).pu = s.pu := rfl
@[simp] theorem modFu_os (g : FaultUnit → FaultUnit) (s : State) : (s.modFu g).os = s.os := rfl
@[simp] theorem modFu_fu (g : FaultUnit → FaultUnit) (s : State) : (s.modFu g).fu = g s.fu := rfl
@[simp] theorem modFu_sp (g : FaultUnit → FaultUnit) (s : State) : (s.modFu g).sp = s.sp := rfl
@[simp] theorem modFu_phase (g : FaultUnit → FaultUnit) (s : State) : (s.modFu g).phase = s.phase := rfl
@[simp] theorem modFu_pins (g : FaultUnit → FaultUnit) (s : State) : (s.modFu g).pins = s.pins := rfl
@[simp] theorem modFu_freeCount (g : FaultUnit → FaultUnit) (s : State) : (s.modFu g).freeCount = s.freeCount := rfl
@[simp] theorem modFu_pending (g : FaultUnit → FaultUnit) (s : State) : (s.modFu g).pending = s.pending := rfl

/-! ### After `modSp` -/

@[simp] theorem modSp_sc (g : SetupPort → SetupPort) (s : State) : (s.modSp g).sc = s.sc := rfl
@[simp] theorem modSp_tb (g : SetupPort → SetupPort) (s : State) : (s.modSp g).tb = s.tb := rfl
@[simp] theorem modSp_bi (g : SetupPort → SetupPort) (s : State) : (s.modSp g).bi = s.bi := rfl
@[simp] theorem modSp_rt (g : SetupPort → SetupPort) (s : State) : (s.modSp g).rt = s.rt := rfl
@[simp] theorem modSp_cq (g : SetupPort → SetupPort) (s : State) : (s.modSp g).cq = s.cq := rfl
@[simp] theorem modSp_pu (g : SetupPort → SetupPort) (s : State) : (s.modSp g).pu = s.pu := rfl
@[simp] theorem modSp_os (g : SetupPort → SetupPort) (s : State) : (s.modSp g).os = s.os := rfl
@[simp] theorem modSp_fu (g : SetupPort → SetupPort) (s : State) : (s.modSp g).fu = s.fu := rfl
@[simp] theorem modSp_sp (g : SetupPort → SetupPort) (s : State) : (s.modSp g).sp = g s.sp := rfl
@[simp] theorem modSp_phase (g : SetupPort → SetupPort) (s : State) : (s.modSp g).phase = s.phase := rfl
@[simp] theorem modSp_pins (g : SetupPort → SetupPort) (s : State) : (s.modSp g).pins = s.pins := rfl
@[simp] theorem modSp_freeCount (g : SetupPort → SetupPort) (s : State) : (s.modSp g).freeCount = s.freeCount := rfl
@[simp] theorem modSp_pending (g : SetupPort → SetupPort) (s : State) : (s.modSp g).pending = s.pending := rfl

/-! ### After `raise` -/

@[simp] theorem raise_sc (e : Event) (s : State) : (s.raise e).sc = s.sc := rfl
@[simp] theorem raise_tb (e : Event) (s : State) : (s.raise e).tb = s.tb := rfl
@[simp] theorem raise_bi (e : Event) (s : State) : (s.raise e).bi = s.bi := rfl
@[simp] theorem raise_rt (e : Event) (s : State) : (s.raise e).rt = s.rt := rfl
@[simp] theorem raise_cq (e : Event) (s : State) : (s.raise e).cq = s.cq := rfl
@[simp] theorem raise_pu (e : Event) (s : State) : (s.raise e).pu = s.pu := rfl
@[simp] theorem raise_os (e : Event) (s : State) : (s.raise e).os = s.os := rfl
@[simp] theorem raise_fu (e : Event) (s : State) : (s.raise e).fu = s.fu := rfl
@[simp] theorem raise_phase (e : Event) (s : State) : (s.raise e).phase = s.phase := rfl
@[simp] theorem raise_pins (e : Event) (s : State) : (s.raise e).pins = s.pins := rfl
@[simp] theorem raise_freeCount (e : Event) (s : State) : (s.raise e).freeCount = s.freeCount := rfl
@[simp] theorem raise_pending (e : Event) (s : State) : (s.raise e).pending = s.pending := rfl
@[simp] theorem raise_sp (e : Event) (s : State) :
    (s.raise e).sp = { s.sp with events := s.sp.events ||| e.bit } := rfl

/-! ### After `respond` -/

@[simp] theorem respond_sc (st : Status) (data : List Byte) (s : State) : (s.respond st data).sc = s.sc := rfl
@[simp] theorem respond_tb (st : Status) (data : List Byte) (s : State) : (s.respond st data).tb = s.tb := rfl
@[simp] theorem respond_bi (st : Status) (data : List Byte) (s : State) : (s.respond st data).bi = s.bi := rfl
@[simp] theorem respond_rt (st : Status) (data : List Byte) (s : State) : (s.respond st data).rt = s.rt := rfl
@[simp] theorem respond_cq (st : Status) (data : List Byte) (s : State) : (s.respond st data).cq = s.cq := rfl
@[simp] theorem respond_pu (st : Status) (data : List Byte) (s : State) : (s.respond st data).pu = s.pu := rfl
@[simp] theorem respond_os (st : Status) (data : List Byte) (s : State) : (s.respond st data).os = s.os := rfl
@[simp] theorem respond_fu (st : Status) (data : List Byte) (s : State) : (s.respond st data).fu = s.fu := rfl
@[simp] theorem respond_phase (st : Status) (data : List Byte) (s : State) : (s.respond st data).phase = s.phase := rfl
@[simp] theorem respond_pins (st : Status) (data : List Byte) (s : State) : (s.respond st data).pins = s.pins := rfl
@[simp] theorem respond_freeCount (st : Status) (data : List Byte) (s : State) : (s.respond st data).freeCount = s.freeCount := rfl
@[simp] theorem respond_pending (st : Status) (data : List Byte) (s : State) : (s.respond st data).pending = s.pending := rfl
@[simp] theorem respond_sp (st : Status) (data : List Byte) (s : State) :
    (s.respond st data).sp = { s.sp with response := st.code :: data } := rfl

/-! ### After `nextFree` -/

@[simp] theorem nextFree_sc (s : State) : s.nextFree.sc = s.sc := rfl
@[simp] theorem nextFree_tb (s : State) : s.nextFree.tb = s.tb := rfl
@[simp] theorem nextFree_bi (s : State) : s.nextFree.bi = s.bi := rfl
@[simp] theorem nextFree_rt (s : State) : s.nextFree.rt = s.rt := rfl
@[simp] theorem nextFree_cq (s : State) : s.nextFree.cq = s.cq := rfl
@[simp] theorem nextFree_pu (s : State) : s.nextFree.pu = s.pu := rfl
@[simp] theorem nextFree_os (s : State) : s.nextFree.os = s.os := rfl
@[simp] theorem nextFree_fu (s : State) : s.nextFree.fu = s.fu := rfl
@[simp] theorem nextFree_sp (s : State) : s.nextFree.sp = s.sp := rfl
@[simp] theorem nextFree_phase (s : State) : s.nextFree.phase = s.phase := rfl
@[simp] theorem nextFree_pins (s : State) : s.nextFree.pins = s.pins := rfl
@[simp] theorem nextFree_freeCount (s : State) : s.nextFree.freeCount = s.freeCount + 1 := rfl
@[simp] theorem nextFree_pending (s : State) : s.nextFree.pending = s.pending := rfl

/-! ### Conditional work -/

@[simp] theorem doIf_true (f : State → State) (s : State) : s.doIf true f = f s := rfl

@[simp] theorem doIf_false (f : State → State) (s : State) : s.doIf false f = s := rfl

@[simp] theorem orKeep_some (t s : State) : orKeep (some t) s = t := rfl

@[simp] theorem orKeep_none (s : State) : orKeep none s = s := rfl

end Sys2Proof.Machine.State
end

