-- ==== Sys2Proof/Laws/Frame.lean ====
section
/-! SUPPORT. For each shared operation one equation that names everything it can change: what stands on the right as
the field of `s` is kept. -/

namespace Sys2Proof.Machine
namespace State

/-- A fold keeps what each of its steps keeps. -/
theorem foldl_keeps {α β : Type} {P : State → β} {f : State → α → State} (h : ∀ s x, P (f s x) = P s)
    (l : List α) (s : State) : P (l.foldl f s) = P s := by
  induction l generalizing s with
  | nil => rfl
  | cons x l ih => exact (ih (f s x)).trans (h s x)

/-- A conditional step keeps what the step keeps. -/
theorem doIf_keeps {β : Type} {P : State → β} {c : Bool} {f : State → State} {s : State} (h : P (f s) = P s) :
    P (s.doIf c f) = P s := by
  cases c
  · rfl
  · exact h

/-- `doIf` with `raise` changes the events at most. -/
theorem doIf_raise_frame (c : Bool) (e : Event) (s : State) :
    ∃ ev, s.doIf c (raise e) = { s with sp := { s.sp with events := ev } } := by
  cases c
  · exact ⟨s.sp.events, rfl⟩
  · exact ⟨_, rfl⟩

/-! ### Placement and output -/

theorem remode_frame (s : State) : ∃ os, s.remode = { s with os := os } ∧ os.p = s.os.p ∧ os.cmp = s.os.cmp
    ∧ os.blanking = s.os.blanking := by
  unfold remode
  split
  · exact ⟨_, rfl, rfl, rfl, rfl⟩
  · exact ⟨s.os, rfl, rfl, rfl, rfl⟩

theorem recomputeTarget_frame (s : State) : ∃ pu os ev,
    s.recomputeTarget = { s with pu := pu, os := os, sp := { s.sp with events := ev } } ∧ os.mode = s.os.mode
      ∧ os.cmp = s.os.cmp ∧ os.blanking = s.os.blanking := by
  unfold recomputeTarget
  repeat' split
  · exact ⟨s.pu, s.os, s.sp.events, rfl, rfl, rfl, rfl⟩
  · exact ⟨_, s.os, s.sp.events, rfl, rfl, rfl, rfl⟩
  · unfold retargetTo
    split
    · next n _ _ _ =>
      obtain ⟨ev, h⟩ := doIf_raise_frame s.pu.slewing .placed
        (s.modPu fun pu => { pu with target := some n, slewing := false })
      exact ⟨_, s.os, ev, h, rfl, rfl, rfl⟩
    · exact ⟨_, s.os, s.sp.events, rfl, rfl, rfl, rfl⟩
  · exact ⟨_, _, _, rfl, rfl, rfl, rfl⟩

/-- `settle` changes the Placement Unit, the Output Stage and the event set. -/
theorem settle_frame (s : State) : ∃ pu os ev,
    s.settle = { s with pu := pu, os := os, sp := { s.sp with events := ev } } ∧ os.cmp = s.os.cmp
      ∧ os.blanking = s.os.blanking := by
  obtain ⟨os₁, h₁, -, hc, hb⟩ := remode_frame s
  obtain ⟨pu, os, ev, h, -, hc', hb'⟩ := recomputeTarget_frame s.remode
  refine ⟨pu, os, ev, ?_, ?_, ?_⟩
  · rw [settle, h, h₁]
  · rw [hc', h₁]; exact hc
  · rw [hb', h₁]; exact hb

theorem jumpToTarget_frame (s : State) : ∃ pu os ev,
    s.jumpToTarget = { s with pu := pu, os := os, sp := { s.sp with events := ev } } ∧ os.mode = s.os.mode
      ∧ os.cmp = s.os.cmp ∧ os.blanking = s.os.blanking := by
  unfold jumpToTarget
  split
  · exact recomputeTarget_frame s
  · split
    · exact ⟨s.pu, s.os, s.sp.events, rfl, rfl, rfl, rfl⟩
    · exact ⟨_, _, _, rfl, rfl, rfl, rfl⟩

/-- Founding and adoption: after `adoptTarget` no target means SETTLED without a step, and a cycle that was not slewed is
untouched (R122, R123). -/
theorem adoptTarget_frame (s : State) : ∃ pu os ev,
    s.adoptTarget = { s with pu := pu, os := os, sp := { s.sp with events := ev } } ∧ os.mode = s.os.mode
      ∧ os.cmp = s.os.cmp ∧ os.blanking = s.os.blanking
      ∧ (s.targetNow = none → pu.target = none ∧ pu.offset = s.pu.offset ∧ pu.slewing = false ∧ pu.step = 0
          ∧ (s.pu.step = 0 → pu.length = s.pu.length ∧ os = s.os)) := by
  cases h : s.targetNow with
  | none =>
    simp only [adoptTarget, h]
    by_cases c : s.pu.step = 0
    · exact ⟨{ s.pu with target := none, slewing := false }, s.os, s.sp.events, by simp [c, doIf, modPu], rfl, rfl, rfl,
        fun _ => ⟨rfl, rfl, rfl, c, fun _ => ⟨rfl, rfl⟩⟩⟩
    · have e : (s.modPu fun pu => { pu with target := none, slewing := false }).doIf (s.pu.step ≠ 0) endSlew
          = (s.modPu fun pu => { pu with target := none, slewing := false }).endSlew := by simp [c, doIf]
      exact ⟨_, _, _, e, rfl, rfl, rfl, fun _ => ⟨rfl, rfl, rfl, rfl, fun k => absurd k c⟩⟩
  | some t =>
    obtain ⟨pu, os, ev, hj, hm, hc, hb⟩ := jumpToTarget_frame s
    exact ⟨pu, os, ev, by simp only [adoptTarget, h, hj], hm, hc, hb, nofun⟩

/-! ### Roster, trip set and tickets -/

theorem setRoster_frame (l : List RosterEntry) (s : State) : ∃ ev,
    s.setRoster l = { s with rt := { s.rt with entries := l }, sp := { s.sp with events := ev } } :=
  doIf_raise_frame _ _ _

theorem clearRoster_frame (s : State) : ∃ ev,
    s.clearRoster = { s with rt := { s.rt with entries := List.replicate 16 .absentEntry }
                             sp := { s.sp with events := ev } } :=
  setRoster_frame _ _

theorem setTripSet_frame (m : StationMask) (s : State) : ∃ ev,
    s.setTripSet m = { s with fu := { s.fu with tripSet := m }, sp := { s.sp with events := ev } } := by
  unfold setTripSet doIf
  repeat' split
  all_goals exact ⟨_, rfl⟩

theorem updateTickets_frame (hit : Ticket → Bool) (f : Ticket → Ticket) (s : State) : ∃ ev,
    s.updateTickets hit f = { s with sp := { s.sp with
      tickets := s.sp.tickets.map fun t => if t.unfinished && hit t then f t else t
      events := ev } } :=
  doIf_raise_frame _ _ _

theorem reportTicket_frame (n : Byte) (d : ProposalContent) (f : Ticket → Ticket) (s : State) : ∃ tickets ev,
    s.reportTicket n d f = { s with sp := { s.sp with tickets := tickets, events := ev } } :=
  ⟨_, updateTickets_frame _ _ _⟩

theorem voidTickets_frame (r : VoidReason) (s : State) : ∃ tickets ev,
    s.voidTickets r = { s with sp := { s.sp with tickets := tickets, events := ev } } :=
  ⟨_, updateTickets_frame _ _ _⟩

theorem abandonReserved_frame (s : State) : ∃ tickets ev,
    s.abandonReserved = { s with sp := { s.sp with tickets := tickets, events := ev } } :=
  ⟨_, updateTickets_frame _ _ _⟩

theorem emptyQueue_frame (r : VoidReason) (s : State) : ∃ tickets ev,
    s.emptyQueue r = { s with cq := { s.cq with entries := [], pendingObjections := [] }
                              sp := { s.sp with tickets := tickets, events := ev } } := by
  unfold emptyQueue
  have h : ∀ (l : List QueueEntry) (t : State), ∃ tickets ev,
      l.foldl (fun s e => s.reportTicket e.id.seq e.content (Ticket.finish (.voided r))) t
        = { t with sp := { t.sp with tickets := tickets, events := ev } } := by
    intro l
    induction l with
    | nil => exact fun t => ⟨t.sp.tickets, t.sp.events, rfl⟩
    | cons e l ih =>
      intro t
      obtain ⟨tk, ev, h⟩ := reportTicket_frame e.id.seq e.content (Ticket.finish (.voided r)) t
      obtain ⟨tk', ev', h'⟩ := ih (t.reportTicket e.id.seq e.content (Ticket.finish (.voided r)))
      exact ⟨tk', ev', by rw [List.foldl_cons, h', h]⟩
  obtain ⟨tk, ev, h⟩ := h (s.cq.entries.filter (·.isLocal)) s
  exact ⟨tk, ev, by rw [h]; rfl⟩

/-! ### The transmit queue -/

theorem setQueue_frame (q : List QueuedFrame) (s : State) : ∃ shed readmit,
    s.setQueue q = { s with bi := { s.bi with queue := q }
                            fu := { s.fu with shedFrame := shed, readmitFrame := readmit } } :=
  ⟨_, _, rfl⟩

/-- `dropFrames` filters the queue; the attempt, and with it the receive context, changes where the frame in flight goes. -/
theorem dropFrames_frame (test : QueuedFrame → Bool) (s : State) : ∃ attempt rx shed readmit,
    s.dropFrames test = { s with
      bi := { s.bi with queue := s.bi.queue.filter fun x => !test x, attempt := attempt, rx := rx }
      fu := { s.fu with shedFrame := shed, readmitFrame := readmit } }
    ∧ (attempt = s.bi.attempt ∨ attempt = none) ∧ (s.bi.rx = none → rx = none)
    ∧ (s.bi.attempt = none → rx = s.bi.rx) := by
  unfold dropFrames doIf
  split
  · refine ⟨none, s.bi.dropAttempt.rx, _, _, rfl, .inr rfl, fun h => ?_, fun h => ?_⟩
    · simp [BusInterface.dropAttempt, h]
    · cases hr : s.bi.rx <;> simp [BusInterface.dropAttempt, h, hr]
  · exact ⟨s.bi.attempt, s.bi.rx, _, _, rfl, .inl rfl, id, fun _ => rfl⟩

theorem dropBodies_frame (test : QueuedBody → Bool) (s : State) : ∃ attempt rx shed readmit,
    s.dropBodies test = { s with
      bi := { s.bi with queue := s.bi.queue.filter fun x => !test x.body, attempt := attempt, rx := rx }
      fu := { s.fu with shedFrame := shed, readmitFrame := readmit } }
    ∧ (attempt = s.bi.attempt ∨ attempt = none) ∧ (s.bi.rx = none → rx = none)
    ∧ (s.bi.attempt = none → rx = s.bi.rx) :=
  dropFrames_frame _ s

/-- An offer that is taken changes the queue alone, and the frames the Fault Unit follows. -/
theorem offer_frame {body : QueuedBody} {s t : State} (h : s.offer body = some t) :
    s.bi.queue.length < 6 ∧ t = s.setQueue (insertFrame { body := body, attempts := 0, inFlight := false } s.bi.queue) := by
  unfold offer hasRoom at h
  split at h
  next hr => exact ⟨by simpa using hr, (Option.some.inj h).symm⟩
  next => cases h

/-- A proposal that is taken uses the next sequence number besides. -/
theorem offerPropose_frame {d : ProposalContent} {s t : State} (h : s.offerPropose d = some t) :
    s.bi.queue.length < 6
      ∧ t = (s.setQueue (insertFrame { body := .propose s.cq.nextSeq d, attempts := 0, inFlight := false }
          s.bi.queue)).modCq fun cq => { cq with nextSeq := cq.nextSeq + 1 } := by
  obtain ⟨u, hu, rfl⟩ := Option.map_eq_some_iff.mp h
  obtain ⟨hr, rfl⟩ := offer_frame hu
  exact ⟨hr, rfl⟩

/-! ### The tests of the Fault Unit -/

/-- What an offer of the Fault Unit can change. -/
theorem shedTest_frame (s : State) : ∃ q seq shed readmit, s.shedTest = { s with
    bi := { s.bi with queue := q }, cq := { s.cq with nextSeq := seq }
    fu := { s.fu with shedFrame := shed, readmitFrame := readmit } } := by
  unfold shedTest
  split
  · cases h : s.offerPropose .shed with
    | none => exact ⟨_, _, _, _, rfl⟩
    | some t =>
      obtain ⟨-, rfl⟩ := offerPropose_frame h
      exact ⟨_, _, _, _, rfl⟩
  · exact ⟨_, _, _, _, rfl⟩

theorem readmissionTest_frame (s : State) : ∃ q seq shed readmit, s.readmissionTest = { s with
    bi := { s.bi with queue := q }, cq := { s.cq with nextSeq := seq }
    fu := { s.fu with shedFrame := shed, readmitFrame := readmit } } := by
  unfold readmissionTest
  split
  · cases h : s.offerPropose s.admitContent with
    | none => exact ⟨_, _, _, _, rfl⟩
    | some t =>
      obtain ⟨-, rfl⟩ := offerPropose_frame h
      exact ⟨_, _, _, _, rfl⟩
  · exact ⟨_, _, _, _, rfl⟩

theorem withdrawalTest_frame (s : State) : ∃ q shed readmit, s.withdrawalTest = { s with
    bi := { s.bi with queue := q }, fu := { s.fu with shedFrame := shed, readmitFrame := readmit } } := by
  unfold withdrawalTest
  split
  · next e _ =>
    split
    · cases h : s.offer (.object e.id .withdrawn) with
      | none => exact ⟨_, _, _, rfl⟩
      | some t =>
        obtain ⟨-, rfl⟩ := offer_frame h
        exact ⟨_, _, _, rfl⟩
    · exact ⟨_, _, _, rfl⟩
  · exact ⟨_, _, _, rfl⟩

/-! ### The time base -/

/-- `enterHoldover` changes the Time Base and the event set, and the transmit queue where a query waits in it. -/
theorem enterHoldover_frame (s : State) : ∃ tb bi shed readmit ev,
    s.enterHoldover = { s with
      tb := tb, bi := bi, fu := { s.fu with shedFrame := shed, readmitFrame := readmit }
      sp := { s.sp with events := ev } }
      ∧ tb.b = s.tb.b ∧ tb.k = s.tb.k ∧ tb.en = s.tb.en ∧ tb.state = .holdover
      ∧ bi.line = s.bi.line ∧ (∀ x ∈ bi.queue, x ∈ s.bi.queue)
      ∧ (s.tb.driveLeft = 0 → tb.driveLeft = 0) ∧ (s.tb.failedDrives = 0 → tb.failedDrives = 0) := by
  unfold enterHoldover
  split
  next h => exact ⟨s.tb, s.bi, s.fu.shedFrame, s.fu.readmitFrame, s.sp.events, rfl, rfl, rfl, rfl, h, rfl, fun _ h => h,
      id, id⟩
  next =>
    unfold doIf
    dsimp only
    split
    · obtain ⟨attempt, rx, shed, readmit, h, -⟩ := dropBodies_frame (·.isQuery) ((s.modTb _).raise .line)
      exact ⟨_, _, _, _, _, h, rfl, rfl, rfl, rfl, rfl, fun x hx => (List.mem_filter.mp hx).1, fun _ => rfl, fun _ => rfl⟩
    · exact ⟨_, _, _, _, _, rfl, rfl, rfl, rfl, rfl, rfl, fun _ h => h, fun _ => rfl, fun _ => rfl⟩

theorem freeTimeBase_frame (s : State) : ∃ tb bi shed readmit ev,
    s.freeTimeBase = { s with
      tb := tb, bi := bi, fu := { s.fu with shedFrame := shed, readmitFrame := readmit }
      sp := { s.sp with events := ev } }
      ∧ tb.b = s.tb.b ∧ tb.k = s.tb.k ∧ tb.en = s.tb.en ∧ tb.driveLeft = 0 ∧ tb.failedDrives = 0
      ∧ bi.line = s.bi.line ∧ (∀ x ∈ bi.queue, x ∈ s.bi.queue) := by
  simp only [freeTimeBase]
  split
  · generalize hu : s.modTb _ = u
    obtain ⟨tb, bi, shed, readmit, ev, h, h1, h2, h3, -, h5, h6, h7, h8⟩ := enterHoldover_frame u
    subst hu
    exact ⟨tb, bi, shed, readmit, ev, h, h1, h2, h3, h7 rfl, h8 rfl, h5, h6⟩
  · exact ⟨_, _, _, _, _, rfl, rfl, rfl, rfl, rfl, rfl, rfl, fun _ h => h⟩

/-! ### The change of station state -/

theorem dropMemberWork_frame (s : State) : ∃ attempt rx,
    s.dropMemberWork = { s with
      bi := { s.bi with tripSlot := none, attempt := attempt, rx := rx, rejectCount := 0, errorFlagLeft := 0 }
      cq := { s.cq with pendingObjections := [] }
      rt := { s.rt with pendingReplies := 0 } }
    ∧ (s.bi.rx = none → rx = none) := by
  unfold dropMemberWork emptyTripSlot modBi modRt modCq
  dsimp only
  split
  · exact ⟨_, _, rfl, fun h => by simp [BusInterface.dropAttempt, h]⟩
  · exact ⟨_, _, rfl, fun h => by simp [h]⟩

/-- `moveTo` changes the station state and what follows from it in the transmit queue, the tickets, the mark drive and
the work of a member. -/
theorem moveTo_frame (new : StationState) (s : State) : ∃ bi tb key replies objections shed readmit tickets ev,
    s.moveTo new = { s with
      sc := { s.sc with station := new, withdrawOwed := false }
      bi := bi
      tb := tb
      rt := { s.rt with heardGroup := none, expectedKey := key, pendingReplies := replies }
      cq := { s.cq with pendingObjections := objections }
      fu := { s.fu with shedFrame := shed, readmitFrame := readmit }
      sp := { s.sp with tickets := tickets, events := ev } }
    ∧ bi.line = s.bi.line ∧ (s.bi.rx = none → bi.rx = none) ∧ (∀ x ∈ bi.queue, x ∈ s.bi.queue)
    ∧ tb.b = s.tb.b ∧ tb.k = s.tb.k ∧ tb.en = s.tb.en ∧ tb.state = s.tb.state := by
  simp only [moveTo]
  generalize hu : modRt _ ((s.modSc _).raise .state) = u
  generalize (!u.drivesMarks) = d
  have h2 : ∃ bi replies objections, u.doIf (s.isMember && !u.isMember) dropMemberWork
      = { u with bi := bi, rt := { u.rt with pendingReplies := replies }
                 cq := { u.cq with pendingObjections := objections } }
      ∧ bi.line = u.bi.line ∧ (u.bi.rx = none → bi.rx = none) ∧ bi.queue = u.bi.queue := by
    unfold doIf
    split
    · obtain ⟨attempt, rx, h, hr⟩ := dropMemberWork_frame u
      exact ⟨_, _, _, h, rfl, hr, rfl⟩
    · exact ⟨u.bi, u.rt.pendingReplies, u.cq.pendingObjections, rfl, rfl, id, rfl⟩
  obtain ⟨bi, replies, objections, h2, b1, b2, b3⟩ := h2
  rw [h2]
  generalize hv : ({ u with bi := bi, rt := { u.rt with pendingReplies := replies }
                            cq := { u.cq with pendingObjections := objections } } : State) = v
  have h3 : ∃ tickets ev, v.doIf (new = .listen || new = .dormant || new = .halted) abandonReserved
      = { v with sp := { v.sp with tickets := tickets, events := ev } } := by
    unfold doIf
    split
    · exact abandonReserved_frame v
    · exact ⟨v.sp.tickets, v.sp.events, rfl⟩
  obtain ⟨tickets, ev, h3⟩ := h3
  rw [h3]
  generalize hw : ({ v with sp := { v.sp with tickets := tickets, events := ev } } : State) = w
  have h4 : ∃ bi shed readmit, w.doIf (new ≠ .listen && new ≠ .resync) (dropBodies (·.isQuery))
      = { w with bi := bi, fu := { w.fu with shedFrame := shed, readmitFrame := readmit } }
      ∧ bi.line = w.bi.line ∧ (w.bi.rx = none → bi.rx = none) ∧ ∀ x ∈ bi.queue, x ∈ w.bi.queue := by
    unfold doIf
    split
    · obtain ⟨attempt, rx, shed, readmit, h, -, hr, -⟩ := dropBodies_frame (·.isQuery) w
      exact ⟨_, shed, readmit, h, rfl, hr, fun x hx => (List.mem_filter.mp hx).1⟩
    · exact ⟨w.bi, w.fu.shedFrame, w.fu.readmitFrame, rfl, rfl, id, fun _ h => h⟩
  obtain ⟨bi', shed, readmit, h4, c1, c2, c3⟩ := h4
  rw [h4]
  subst hw hv hu
  cases d
  · exact ⟨bi', _, _, replies, objections, shed, readmit, tickets, ev, rfl, c1.trans b1, fun h => c2 (b2 h),
      fun x hx => by have := c3 x hx; rwa [b3] at this, rfl, rfl, rfl, rfl⟩
  · exact ⟨bi', _, _, replies, objections, shed, readmit, tickets, ev, rfl, c1.trans b1, fun h => c2 (b2 h),
      fun x hx => by have := c3 x hx; rwa [b3] at this, rfl, rfl, rfl, rfl⟩

theorem clearBus_frame (s : State) : ∃ shed readmit,
    s.clearBus = { s with
      bi := { s.bi with queue := [], rx := none, attempt := none, tripSlot := none, abandonCount := 0,
                        rejectCount := 0, clashWindow := none, stuckEpochs := 0 }
      fu := { s.fu with shedFrame := shed, readmitFrame := readmit } } :=
  ⟨_, _, rfl⟩

/-- `discardCopy` clears the copy; the Placement Unit, the Output Stage, the tickets and the events follow. -/
theorem discardCopy_frame (s : State) : ∃ pu os tickets ev,
    s.discardCopy = { s with
      sc := { s.sc with standing := .none }
      rt := { s.rt with entries := List.replicate 16 .absentEntry, copySource := .none, armed := false }
      cq := { s.cq with entries := [], duty := 0, pendingObjections := [] }
      fu := { s.fu with tripSet := 0 }
      pu := pu
      os := os
      sp := { s.sp with tickets := tickets, events := ev } } := by
  obtain ⟨ev₁, h₁⟩ := clearRoster_frame s
  obtain ⟨tickets, ev₂, h₂⟩ := emptyQueue_frame .resync s.clearRoster
  obtain ⟨ev₃, h₃⟩ := setTripSet_frame 0 ((s.clearRoster.emptyQueue .resync).modCq fun cq => { cq with duty := 0 })
  obtain ⟨pu, os, ev, h, -, -⟩ := settle_frame
    ((((((s.clearRoster.emptyQueue .resync).modCq fun cq => { cq with duty := 0 }).setTripSet 0).modRt fun rt =>
      { rt with copySource := .none, armed := false }).modSc fun sc => { sc with standing := .none }))
  exact ⟨pu, os, tickets, ev, by rw [discardCopy, h, h₃, h₂, h₁]; rfl⟩

end State
end Sys2Proof.Machine
end

