-- ==== Sys2Proof/Laws/Steady.lean ====
section
/-! SUPPORT. What the shared operations leave as it is: the setup record, the lock, the event mask, the pins and the
waiting commands; raised events stay, the gates stay legal, the tables keep their sizes, nothing moves to SETUP, and
where `clock` is true the counters, EN and the last mark lead stand still. One lemma per operation, in the form that
`simp` chains from the first state to the last. -/

namespace Sys2Proof.Machine

/-- What work inside one command leaves as it is. -/
structure Steady (clock : Bool) (s t : State) : Prop where
  record : t.sp.record = s.sp.record
  locked : t.sp.locked = s.sp.locked
  mask : t.sp.mask = s.sp.mask
  events : s.sp.events &&& t.sp.events = s.sp.events
  pins : t.pins = s.pins
  pending : t.pending = s.pending
  gates : s.os.GatesOk → t.os.GatesOk
  capacities : s.Capacities → t.Capacities
  setup : t.sc.station = .setup → s.sc.station = .setup
  counters : clock = true → t.tb.b = s.tb.b ∧ t.tb.k = s.tb.k ∧ t.tb.en = s.tb.en ∧ t.tb.lastLead = s.tb.lastLead

variable {w c : Bool} {a b s t : State}

@[simp] theorem Steady.rfl' : Steady w a a where
  record := rfl
  locked := rfl
  mask := rfl
  events := by simp
  pins := rfl
  pending := rfl
  gates := id
  capacities := id
  setup := id
  counters := fun _ => ⟨rfl, rfl, rfl, rfl⟩

theorem Steady.trans (h : Steady w a b) (k : Steady w b t) : Steady w a t where
  record := k.record.trans h.record
  locked := k.locked.trans h.locked
  mask := k.mask.trans h.mask
  events := by
    have h1 := h.events
    have h2 := k.events
    rw [← h1]
    ext i
    have e1 := congrArg (·.getLsbD i) h1
    have e2 := congrArg (·.getLsbD i) h2
    simp at e1 e2 ⊢
    grind
  pins := k.pins.trans h.pins
  pending := k.pending.trans h.pending
  gates := fun g => k.gates (h.gates g)
  capacities := fun g => k.capacities (h.capacities g)
  setup := fun g => h.setup (k.setup g)
  counters := fun g => by
    obtain ⟨h1, h2, h3, h4⟩ := h.counters g
    obtain ⟨k1, k2, k3, k4⟩ := k.counters g
    exact ⟨k1.trans h1, k2.trans h2, k3.trans h3, k4.trans h4⟩

theorem Steady.weaken (h : Steady true a b) : Steady w a b where
  record := h.record
  locked := h.locked
  mask := h.mask
  events := h.events
  pins := h.pins
  pending := h.pending
  gates := h.gates
  capacities := h.capacities
  setup := h.setup
  counters := fun _ => h.counters rfl

namespace State

/-! ### Combinators -/

@[simp] theorem steady_doIf {f : State → State} (h : Steady w a b) (hf : Steady w a (f b)) :
    Steady w a (b.doIf c f) := by
  cases c
  · exact h
  · exact hf

@[simp] theorem steady_orKeep {r : Option State} (h : Steady w a b) (hr : ∀ t, r = some t → Steady w a t) :
    Steady w a (orKeep r b) := by
  cases r with
  | none => exact h
  | some t => exact hr t rfl

theorem steady_foldl {α : Type} {f : State → α → State} (hf : ∀ b x, Steady w b (f b x)) (l : List α)
    (h : Steady w a b) : Steady w a (l.foldl f b) := by
  induction l generalizing b with
  | nil => exact h
  | cons x xs ih => exact ih (h.trans (hf b x))

/-! ### Updates of one block -/

theorem Capacities.of (h : s.Capacities) (hb : s.bi.queue.length ≤ 6 → t.bi.queue.length ≤ 6)
    (hc : s.cq.entries.length ≤ 8 → t.cq.entries.length ≤ 8)
    (hp : s.sp.tickets.length ≤ 4 → t.sp.tickets.length ≤ 4)
    (hr : s.rt.entries.length = 16 → t.rt.entries.length = 16) : t.Capacities :=
  ⟨hb h.frames, hc h.entries, hp h.tickets, hr h.roster⟩

@[simp] theorem steady_modSc {g : StationController → StationController} (h : Steady w a b)
    (hg : (g b.sc).station = .setup → b.sc.station = .setup) : Steady w a (b.modSc g) :=
  h.trans
    { record := rfl, locked := rfl, mask := rfl, events := by simp, pins := rfl, pending := rfl, gates := id
      capacities := fun k => k.of id id id id
      setup := hg, counters := fun _ => ⟨rfl, rfl, rfl, rfl⟩ }

@[simp] theorem steady_modTb {g : TimeBase → TimeBase} (h : Steady w a b)
    (hg : w = true → (g b.tb).b = b.tb.b ∧ (g b.tb).k = b.tb.k ∧ (g b.tb).en = b.tb.en
      ∧ (g b.tb).lastLead = b.tb.lastLead) : Steady w a (b.modTb g) :=
  h.trans
    { record := rfl, locked := rfl, mask := rfl, events := by simp, pins := rfl, pending := rfl, gates := id
      capacities := fun k => k.of id id id id
      setup := id, counters := hg }

@[simp] theorem steady_modBi {g : BusInterface → BusInterface} (h : Steady w a b)
    (hg : b.bi.queue.length ≤ 6 → (g b.bi).queue.length ≤ 6) : Steady w a (b.modBi g) :=
  h.trans
    { record := rfl, locked := rfl, mask := rfl, events := by simp, pins := rfl, pending := rfl, gates := id
      capacities := fun k => k.of hg id id id
      setup := id, counters := fun _ => ⟨rfl, rfl, rfl, rfl⟩ }

@[simp] theorem steady_modRt {g : RosterTable → RosterTable} (h : Steady w a b)
    (hg : b.rt.entries.length = 16 → (g b.rt).entries.length = 16) : Steady w a (b.modRt g) :=
  h.trans
    { record := rfl, locked := rfl, mask := rfl, events := by simp, pins := rfl, pending := rfl, gates := id
      capacities := fun k => k.of id id id hg
      setup := id, counters := fun _ => ⟨rfl, rfl, rfl, rfl⟩ }

@[simp] theorem steady_modCq {g : CommitQueue → CommitQueue} (h : Steady w a b)
    (hg : b.cq.entries.length ≤ 8 → (g b.cq).entries.length ≤ 8) : Steady w a (b.modCq g) :=
  h.trans
    { record := rfl, locked := rfl, mask := rfl, events := by simp, pins := rfl, pending := rfl, gates := id
      capacities := fun k => k.of id hg id id
      setup := id, counters := fun _ => ⟨rfl, rfl, rfl, rfl⟩ }

@[simp] theorem steady_modPu {g : PlacementUnit → PlacementUnit} (h : Steady w a b) : Steady w a (b.modPu g) :=
  h.trans
    { record := rfl, locked := rfl, mask := rfl, events := by simp, pins := rfl, pending := rfl, gates := id
      capacities := fun k => k.of id id id id
      setup := id, counters := fun _ => ⟨rfl, rfl, rfl, rfl⟩ }

@[simp] theorem steady_modOs {g : OutputStage → OutputStage} (h : Steady w a b)
    (hg : b.os.GatesOk → (g b.os).GatesOk) : Steady w a (b.modOs g) :=
  h.trans
    { record := rfl, locked := rfl, mask := rfl, events := by simp, pins := rfl, pending := rfl, gates := hg
      capacities := fun k => k.of id id id id
      setup := id, counters := fun _ => ⟨rfl, rfl, rfl, rfl⟩ }

@[simp] theorem steady_modFu {g : FaultUnit → FaultUnit} (h : Steady w a b) : Steady w a (b.modFu g) :=
  h.trans
    { record := rfl, locked := rfl, mask := rfl, events := by simp, pins := rfl, pending := rfl, gates := id
      capacities := fun k => k.of id id id id
      setup := id, counters := fun _ => ⟨rfl, rfl, rfl, rfl⟩ }

theorem steady_modSp {g : SetupPort → SetupPort} (h : Steady w a b)
    (hr : (g b.sp).record = b.sp.record) (hl : (g b.sp).locked = b.sp.locked) (hm : (g b.sp).mask = b.sp.mask)
    (he : (g b.sp).events = b.sp.events) (ht : b.sp.tickets.length ≤ 4 → (g b.sp).tickets.length ≤ 4) :
    Steady w a (b.modSp g) :=
  h.trans
    { record := hr, locked := hl, mask := hm, events := by simp [he], pins := rfl, pending := rfl, gates := id
      capacities := fun k => k.of id id ht id
      setup := id, counters := fun _ => ⟨rfl, rfl, rfl, rfl⟩ }

@[simp] theorem steady_raise {e : Event} (h : Steady w a b) : Steady w a (b.raise e) :=
  h.trans
    { record := rfl, locked := rfl, mask := rfl
      events := by
        simp only [raise_sp]
        ext i
        simp
        grind
      pins := rfl, pending := rfl, gates := id
      capacities := fun k => k.of id id id id
      setup := id, counters := fun _ => ⟨rfl, rfl, rfl, rfl⟩ }

@[simp] theorem steady_respond {st : Status} {data : List Byte} (h : Steady w a b) :
    Steady w a (b.respond st data) := steady_modSp h rfl rfl rfl rfl id

@[simp] theorem steady_nextFree (h : Steady w a b) : Steady w a b.nextFree :=
  h.trans
    { record := rfl, locked := rfl, mask := rfl, events := by simp, pins := rfl, pending := rfl, gates := id
      capacities := fun k => k.of id id id id
      setup := id, counters := fun _ => ⟨rfl, rfl, rfl, rfl⟩ }

end State
end Sys2Proof.Machine
end

