-- ==== Sys2Proof/Laws/SteadyOps.lean ====
section
/-! SUPPORT. The shared operations of Machine/Ops.lean are steady (Laws/Steady.lean). -/

namespace Sys2Proof.Machine.State

variable {w c : Bool} {a b s t : State}

/-! ### Rosters and trip sets -/

@[simp] theorem steady_setRoster {es : List RosterEntry} (h : Steady w a b)
    (he : b.rt.entries.length = 16 → es.length = 16) : Steady w a (b.setRoster es) := by
  unfold setRoster
  exact steady_doIf (steady_modRt h he) (steady_raise (steady_modRt h he))

@[simp] theorem steady_setEntry {i : StationId} {e : RosterEntry} (h : Steady w a b) : Steady w a (b.setEntry i e) := by
  unfold setEntry; simp [h]

@[simp] theorem steady_clearRoster (h : Steady w a b) : Steady w a b.clearRoster := by unfold clearRoster; simp [h]

@[simp] theorem steady_setTripSet {m : StationMask} (h : Steady w a b) : Steady w a (b.setTripSet m) := by
  unfold setTripSet; simp (maxDischargeDepth := 9) [h]

/-! ### Tickets -/

@[simp] theorem steady_updateTickets {hit : Ticket → Bool} {f : Ticket → Ticket} (h : Steady w a b) :
    Steady w a (b.updateTickets hit f) := by
  have k : ∀ g : Ticket → Ticket, Steady w a (b.modSp fun p => { p with tickets := p.tickets.map g }) :=
    fun g => steady_modSp h rfl rfl rfl rfl (by simp)
  unfold updateTickets
  exact steady_doIf (k _) (steady_raise (k _))

@[simp] theorem steady_reportTicket {n : Byte} {d : ProposalContent} {f : Ticket → Ticket} (h : Steady w a b) :
    Steady w a (b.reportTicket n d f) := steady_updateTickets h

@[simp] theorem steady_voidTickets {r : VoidReason} (h : Steady w a b) : Steady w a (b.voidTickets r) :=
  steady_updateTickets h

@[simp] theorem steady_abandonReserved (h : Steady w a b) : Steady w a b.abandonReserved := steady_updateTickets h

theorem length_dropOldestFinished {ts : List Ticket} (h : ts.any fun t => !t.unfinished) :
    (dropOldestFinished ts).length + 1 = ts.length := by
  induction ts with
  | nil => simp at h
  | cons t ts ih =>
    unfold dropOldestFinished
    split
    next hu =>
      have := ih (by simpa [hu] using h)
      simp only [List.length_cons]
      omega
    next => rfl

/-- A table of at most four tickets, not all unfinished, has at most four after an issue (R180). -/
theorem length_issueInto {t : Ticket} {ts : List Ticket} (h4 : ts.length ≤ 4)
    (h : (ts.filter (·.unfinished)).length < 4) : (issueInto t ts).length ≤ 4 := by
  simp only [issueInto]
  have hk := List.length_filter_le (fun u : Ticket => u.unfinished || u.number ≠ t.number) ts
  split
  next hlt => simp_all
  next hge =>
    have hlen : (ts.filter fun u : Ticket => u.unfinished || u.number ≠ t.number).length = ts.length := by omega
    have hall := List.filter_eq_self.mp (List.Sublist.eq_of_length List.filter_sublist hlen)
    have heq : (ts.filter fun u : Ticket => u.unfinished || u.number ≠ t.number) = ts :=
      List.Sublist.eq_of_length List.filter_sublist hlen
    rw [heq] at hge ⊢
    have hany : ts.any fun t => !t.unfinished := by
      by_contra hno
      have : ts.filter (·.unfinished) = ts := by
        apply List.filter_eq_self.mpr
        intro x hx
        simp at hno
        exact hno x hx
      rw [this] at h
      omega
    have := length_dropOldestFinished hany
    simp
    omega

@[simp] theorem steady_issueTicket {n : Byte} {k : TicketKind} {r : Bool} (h : Steady w a b)
    (hu : b.unfinishedTickets < 4) : Steady w a (b.issueTicket n k r) :=
  steady_modSp h rfl rfl rfl rfl fun h4 => length_issueInto h4 hu

/-! ### The transmit queue -/

@[simp] theorem steady_syncFaultFrames (h : Steady w a b) : Steady w a b.syncFaultFrames := by
  unfold syncFaultFrames; simp [h]

@[simp] theorem steady_setQueue {q : List QueuedFrame} (h : Steady w a b)
    (hq : b.bi.queue.length ≤ 6 → q.length ≤ 6) : Steady w a (b.setQueue q) :=
  steady_syncFaultFrames (steady_modBi h hq)

theorem steady_setQueue_le {q : List QueuedFrame} (h : Steady w a b) (hq : q.length ≤ b.bi.queue.length) :
    Steady w a (b.setQueue q) := steady_setQueue h fun k => hq.trans k

@[simp] theorem steady_dropFrames {test : QueuedFrame → Bool} (h : Steady w a b) :
    Steady w a (b.dropFrames test) := by
  have k := steady_setQueue_le h (List.length_filter_le (fun x => !test x) b.bi.queue)
  unfold dropFrames
  exact steady_doIf k (steady_modBi k id)

@[simp] theorem steady_dropBodies {test : QueuedBody → Bool} (h : Steady w a b) : Steady w a (b.dropBodies test) :=
  steady_dropFrames h

theorem length_insertFrame (x : QueuedFrame) (q : List QueuedFrame) : (insertFrame x q).length = q.length + 1 := by
  unfold insertFrame
  have := congrArg List.length (List.takeWhile_append_dropWhile (p := fun y : QueuedFrame => y.body.cls ≤ x.body.cls) (l := q))
  simp only [List.length_append, List.length_cons] at this ⊢
  omega

theorem steady_offer {body : QueuedBody} (h : Steady w a b) (ho : b.offer body = some t) : Steady w a t := by
  unfold offer hasRoom at ho
  split at ho
  next hlt =>
    rw [← Option.some.inj ho]
    refine steady_setQueue h fun _ => ?_
    rw [length_insertFrame]
    simpa using hlt
  next => cases ho

@[simp] theorem steady_offer_getD {body : QueuedBody} {s : State} (h : Steady w a b) (hs : Steady w a s) :
    Steady w a ((b.offer body).getD s) := by
  cases ho : b.offer body with
  | none => exact hs
  | some t => exact steady_offer h ho

@[simp] theorem steady_orKeep_offer {body : QueuedBody} (h : Steady w a b) : Steady w a (orKeep (b.offer body) b) :=
  steady_offer_getD h h

theorem steady_offerPropose {d : ProposalContent} (h : Steady w a b) (ho : b.offerPropose d = some t) :
    Steady w a t := by
  unfold offerPropose at ho
  obtain ⟨u, hu, rfl⟩ := Option.map_eq_some_iff.mp ho
  exact steady_modCq (steady_offer h hu) id

@[simp] theorem steady_orKeep_offerPropose {d : ProposalContent} (h : Steady w a b) :
    Steady w a (orKeep (b.offerPropose d) b) :=
  steady_orKeep h fun _ ht => steady_offerPropose h ht

@[simp] theorem steady_orKeep_offerPropose_map {d : ProposalContent} {f : State → State} (h : Steady w a b)
    (hf : ∀ u, Steady w u (f u)) : Steady w a (orKeep ((b.offerPropose d).map f) b) :=
  steady_orKeep h fun t ht => by
    obtain ⟨u, hu, rfl⟩ := Option.map_eq_some_iff.mp ht
    exact (steady_offerPropose h hu).trans (hf u)

@[simp] theorem steady_enqueueBeat {f : BeatFields} (h : Steady w a b) : Steady w a (b.enqueueBeat f) := by
  unfold enqueueBeat
  split
  · have k := steady_setQueue_le (q := b.bi.queue.map fun x =>
      if x.body.isBeat then { x with body := .beat f, attempts := 0 } else x) h (by simp)
    exact steady_doIf k (steady_modBi k id)
  · exact steady_orKeep_offer h

@[simp] theorem steady_fillTripSlot {f : TripFields} (h : Steady w a b) : Steady w a (b.fillTripSlot f) :=
  steady_modBi h id

@[simp] theorem steady_emptyTripSlot (h : Steady w a b) : Steady w a b.emptyTripSlot :=
  steady_modBi h (by dsimp only; split <;> exact id)

@[simp] theorem steady_abandonTicketsOf {test : QueuedFrame → Bool} (h : Steady w a b) :
    Steady w a (b.abandonTicketsOf test) := by
  unfold abandonTicketsOf
  refine steady_foldl (fun u x => ?_) _ h
  split <;> simp

@[simp] theorem steady_emptyQueue {r : VoidReason} (h : Steady w a b) : Steady w a (b.emptyQueue r) := by
  unfold emptyQueue
  exact steady_modCq (steady_foldl (fun u x => steady_reportTicket Steady.rfl') _ h) (by simp)

end Sys2Proof.Machine.State
end

