-- ==== Sys2Proof/Laws/SteadyCycle.lean ====
section
/-! SUPPORT. The operations of the Placement Unit, the Output Stage, the Time Base's states and the Fault Unit are
steady (Laws/Steady.lean). -/

namespace Sys2Proof.Machine

variable {w c : Bool} {a b s t : State}

/-! ### Gates (R143) -/

theorem OutputStage.regate_gatesOk (dt : Nat) (os : OutputStage) : (os.regate dt).GatesOk := by
  unfold OutputStage.regate OutputStage.GatesOk OutputStage.request requestOf
  cases os.mode <;> cases os.blanking <;> simp
  omega

theorem OutputStage.release_gatesOk (os : OutputStage) : os.release.GatesOk := by
  simp [OutputStage.release, OutputStage.GatesOk]

theorem OutputStage.GatesOk.of {os os' : OutputStage} (h : os.GatesOk) (hh : os'.gh = os.gh) (hl : os'.gl = os.gl)
    (hm : os'.mode = .off → os.mode = .off) : os'.GatesOk := by
  unfold OutputStage.GatesOk at *
  rw [hh, hl]
  exact ⟨h.1, fun k => h.2 (hm k)⟩

namespace State

@[simp] theorem steady_regate (h : Steady w a b) : Steady w a b.regate :=
  steady_modOs h fun _ => OutputStage.regate_gatesOk _ _

/-- A change of the Output Stage followed by the gates is steady whatever the change. -/
@[simp] theorem steady_modOs_regate {g : OutputStage → OutputStage} (h : Steady w a b) :
    Steady w a (b.modOs g).regate :=
  h.trans
    { record := rfl, locked := rfl, mask := rfl, events := by simp [regate], pins := rfl, pending := rfl
      gates := fun _ => OutputStage.regate_gatesOk _ _
      capacities := fun k => k.of id id id id
      setup := id, counters := fun _ => ⟨rfl, rfl, rfl, rfl⟩ }

@[simp] theorem steady_remode (h : Steady w a b) : Steady w a b.remode := by
  unfold remode
  split
  · exact steady_modOs_regate h
  · exact h

@[simp] theorem steady_reachTest (h : Steady w a b) : Steady w a b.reachTest := by
  unfold reachTest
  split
  · simp [h]
  · split <;> simp (maxDischargeDepth := 9) [h]

@[simp] theorem steady_reanchor (h : Steady w a b) : Steady w a b.reanchor :=
  steady_modOs_regate (steady_modPu (steady_reachTest (steady_modPu h)))

@[simp] theorem steady_jumpTo {n : Nat} (h : Steady w a b) : Steady w a (b.jumpTo n) :=
  steady_raise (steady_modOs_regate (steady_modPu h))

@[simp] theorem steady_retargetTo {n : Nat} (h : Steady w a b) : Steady w a (b.retargetTo n) := by
  unfold retargetTo
  split <;> simp (maxDischargeDepth := 9) [h]

@[simp] theorem steady_recomputeTarget (h : Steady w a b) : Steady w a b.recomputeTarget := by
  unfold recomputeTarget
  repeat' split
  all_goals simp [h]

@[simp] theorem steady_jumpToTarget (h : Steady w a b) : Steady w a b.jumpToTarget := by
  unfold jumpToTarget
  repeat' split
  all_goals simp [h]

@[simp] theorem steady_adoptTarget (h : Steady w a b) : Steady w a b.adoptTarget := by
  unfold adoptTarget
  split
  · exact steady_jumpToTarget h
  · exact steady_doIf (steady_modPu h) (steady_modOs_regate (steady_modPu (steady_modPu h)))

@[simp] theorem steady_settle (h : Steady w a b) : Steady w a b.settle := steady_recomputeTarget (steady_remode h)

@[simp] theorem steady_placeCycle (h : Steady w a b) : Steady w a b.placeCycle :=
  (by unfold placeCycle; exact steady_modPu (steady_reachTest (steady_modPu h)))

@[simp] theorem steady_latchCompare (h : Steady w a b) : Steady w a b.latchCompare := by
  unfold latchCompare
  exact steady_modOs h fun k => k.of rfl rfl id

@[simp] theorem steady_clampEvent (h : Steady w a b) : Steady w a b.clampEvent := by
  unfold clampEvent
  repeat' split
  all_goals first
    | exact h
    | exact steady_modOs h fun k => k.of rfl rfl id
    | exact steady_raise (steady_modOs h fun k => k.of rfl rfl id)

@[simp] theorem steady_enterRun (h : Steady w a b) : Steady w a b.enterRun := by
  unfold enterRun
  split
  · exact steady_modOs h fun k => k.of rfl rfl (by simp)
  · exact h

@[simp] theorem steady_cycleStart {e : Bool} (h : Steady w a b) : Steady w a (b.cycleStart e) :=
  steady_modOs_regate (steady_clampEvent (steady_enterRun (steady_latchCompare (steady_placeCycle h))))

/-! ### The Time Base's states -/

@[simp] theorem steady_stopDrive (h : Steady w a b) : Steady w a b.stopDrive := by unfold stopDrive; simp [h]

@[simp] theorem steady_enterLocked (h : Steady w a b) : Steady w a b.enterLocked :=
  steady_raise (steady_modSc (steady_modTb h fun _ => ⟨rfl, rfl, rfl, rfl⟩) id)

@[simp] theorem steady_enterHoldover (h : Steady w a b) : Steady w a b.enterHoldover := by
  unfold enterHoldover
  split <;> simp (maxDischargeDepth := 9) [h]

@[simp] theorem steady_leaveHoldover (h : Steady w a b) : Steady w a b.leaveHoldover := by
  simp only [leaveHoldover]
  split <;> simp (maxDischargeDepth := 9) [h]

@[simp] theorem steady_freeTimeBase (h : Steady w a b) : Steady w a b.freeTimeBase := by
  simp only [freeTimeBase]
  split <;> simp (maxDischargeDepth := 9) [h]

/-! ### The Fault Unit -/

@[simp] theorem steady_modInput {i : InputNo} {f : InputRecord → InputRecord} (h : Steady w a b) :
    Steady w a (b.modInput i f) := steady_modFu h

@[simp] theorem steady_shedTest (h : Steady w a b) : Steady w a b.shedTest := by
  unfold shedTest
  split <;> simp [h]

@[simp] theorem steady_readmissionTest (h : Steady w a b) : Steady w a b.readmissionTest := by
  unfold readmissionTest
  split <;> simp [h]

@[simp] theorem steady_withdrawalTest (h : Steady w a b) : Steady w a b.withdrawalTest := by
  unfold withdrawalTest
  repeat' split
  all_goals simp [h]

@[simp] theorem steady_activationEffects {i : InputNo} (h : Steady w a b) : Steady w a (b.activationEffects i) := by
  unfold activationEffects
  split <;> simp (maxDischargeDepth := 9) [h]

@[simp] theorem steady_activateInput {i : InputNo} (h : Steady w a b) : Steady w a (b.activateInput i) :=
  steady_settle (steady_activationEffects (steady_settle (steady_raise (steady_modInput h))))

@[simp] theorem steady_releaseInput {i : InputNo} (h : Steady w a b) : Steady w a (b.releaseInput i) :=
  steady_modInput h

@[simp] theorem steady_sampleInput {i : InputNo} (h : Steady w a b) : Steady w a (b.sampleInput i) := by
  simp only [sampleInput]
  repeat' split
  all_goals simp [h]

@[simp] theorem steady_pointForInput {i : InputNo} (h : Steady w a b) : Steady w a (b.pointForInput i) := by
  unfold pointForInput
  split <;> simp (maxDischargeDepth := 9) [h]

@[simp] theorem steady_halfPoint (h : Steady w a b) : Steady w a b.halfPoint :=
  steady_settle (steady_foldl (fun _ _ => steady_pointForInput Steady.rfl') _ h)

@[simp] theorem steady_crossStart {e : Bool} (h : Steady w a b) : Steady w a (b.crossStart e).2 := by
  simp only [crossStart]
  repeat' split
  all_goals simp (maxDischargeDepth := 9) [h]

@[simp] theorem steady_startWithPoint {e : Bool} (h : Steady w a b) : Steady w a (b.startWithPoint e) :=
  steady_crossStart h

/-! ### The rows of the local cycle and the fault inputs -/

theorem steady_localCycleStart : Steady w a a.localCycleStart := by
  unfold localCycleStart
  split
  · exact Steady.rfl'
  · exact steady_cycleStart (steady_modOs Steady.rfl' fun k => k.of rfl rfl id)

theorem steady_compareMatch : Steady w a a.compareMatch := by
  unfold compareMatch; split <;> simp

theorem steady_deadtimeExpiry : Steady w a a.deadtimeExpiry := by
  unfold deadtimeExpiry; split <;> simp

theorem steady_halfCyclePoint : Steady w a a.halfCyclePoint := by
  unfold halfCyclePoint; split <;> simp

theorem steady_faultActivation (i : InputNo) : Steady w a (a.faultActivation i) := by
  unfold faultActivation; split <;> simp

theorem steady_faultRelease (i : InputNo) : Steady w a (a.faultRelease i) := by
  unfold faultRelease; split <;> simp

end State
end Sys2Proof.Machine
end

