-- ==== Sys2Proof/Laws/SteadyLifecycle.lean ====
section
/-! SUPPORT. The changes of station state and the work of the Commit Queue are steady (Laws/Steady.lean). -/

namespace Sys2Proof.Machine.State

variable {w c : Bool} {a b s t : State}

/-! ### What every change of station state does -/

@[simp] theorem steady_dropMemberWork (h : Steady w a b) : Steady w a b.dropMemberWork :=
  steady_modBi (steady_modRt (steady_modCq (steady_emptyTripSlot h) id) id) id

@[simp] theorem steady_moveTo {new : StationState} (h : Steady w a b) (hn : new ≠ .setup) :
    Steady w a (b.moveTo new) := by
  have h₁ : ∀ f : StationController → StationController, (f b.sc).station = new → ∀ g : RosterTable → RosterTable,
      (∀ r, (g r).entries = r.entries) → Steady w a (((b.modSc f).raise .state).modRt g) := fun f hf g hg =>
    steady_modRt (steady_raise (steady_modSc h fun k => absurd (hf.symm.trans k) hn)) fun k => by
      rw [hg]; exact k
  have hd : ∀ {u : State}, Steady w a u → Steady w a (u.stopDrive.modTb fun tb => { tb with failedDrives := 0 }) :=
    fun k => steady_modTb (steady_stopDrive k) fun _ => ⟨rfl, rfl, rfl, rfl⟩
  have k₁ := h₁ (fun sc => { sc with station := new, withdrawOwed := false }) rfl
    (fun rt => { rt with heardGroup := none
                         expectedKey := if b.sc.station = .resync then none else rt.expectedKey }) fun _ => rfl
  unfold moveTo
  have k₂ := steady_doIf (c := b.isMember && !(((b.modSc fun sc => { sc with station := new, withdrawOwed := false }).raise
    .state).modRt fun rt => { rt with heardGroup := none
                                      expectedKey := if b.sc.station = .resync then none else rt.expectedKey }).isMember)
    k₁ (steady_dropMemberWork k₁)
  have k₃ := steady_doIf (c := new = .listen || new = .dormant || new = .halted) k₂ (steady_abandonReserved k₂)
  have k₄ := steady_doIf (c := new ≠ .listen && new ≠ .resync) k₃ (steady_dropBodies (test := (·.isQuery)) k₃)
  exact steady_doIf k₄ (hd k₄)

@[simp] theorem steady_dropGroupFrames {kept : QueuedBody → Bool} (h : Steady w a b) :
    Steady w a (b.dropGroupFrames kept) := steady_dropFrames (steady_abandonTicketsOf h)

@[simp] theorem steady_clearBus (h : Steady w a b) : Steady w a b.clearBus :=
  steady_modBi (steady_setQueue h fun _ => by simp) id

@[simp] theorem steady_clearBlanking (h : Steady w a b) : Steady w a b.clearBlanking :=
  steady_modOs h fun k => k.of rfl rfl id

@[simp] theorem steady_discardCopy (h : Steady w a b) : Steady w a b.discardCopy :=
  steady_settle (steady_modSc (steady_modRt (steady_setTripSet
    (steady_modCq (steady_emptyQueue (steady_clearRoster h)) id)) id) id)

/-! ### LISTEN -/

@[simp] theorem steady_enterListen {st : FollowStanding} {n : Nat} (h : Steady w a b) :
    Steady w a (b.enterListen st n) :=
  steady_modTb (steady_modSc (steady_moveTo h (by decide)) id) fun _ => ⟨rfl, rfl, rfl, rfl⟩

@[simp] theorem steady_forgetRoster (h : Steady w a b) : Steady w a b.forgetRoster :=
  steady_modRt (steady_clearRoster h) id

@[simp] theorem steady_forgetQueue (h : Steady w a b) : Steady w a b.forgetQueue :=
  steady_modCq h (by simp)

@[simp] theorem steady_startFromDormant (h : Steady w a b) : Steady w a b.startFromDormant :=
  steady_settle (steady_enterListen (steady_setTripSet (steady_forgetQueue (steady_forgetRoster
    (steady_voidTickets h)))))

@[simp] theorem steady_clearFaults (h : Steady w a b) : Steady w a b.clearFaults := steady_modFu (steady_setTripSet h)

@[simp] theorem steady_restartFromIsolated (h : Steady w a b) : Steady w a b.restartFromIsolated :=
  steady_settle (steady_enterListen (steady_freeTimeBase (steady_modOs (steady_clearBus (steady_clearFaults
    (steady_forgetQueue (steady_forgetRoster (steady_voidTickets h))))) fun k => k.of rfl rfl id)))

@[simp] theorem steady_listenWithCopy (h : Steady w a b) : Steady w a b.listenWithCopy :=
  steady_settle (steady_enterListen h)

@[simp] theorem steady_listenRemoved (h : Steady w a b) : Steady w a b.listenRemoved :=
  steady_settle (steady_modRt (steady_dropGroupFrames (steady_enterListen h)) id)

@[simp] theorem steady_listenUnheard (h : Steady w a b) : Steady w a b.listenUnheard :=
  steady_settle (steady_dropGroupFrames (steady_enterListen (steady_discardCopy h)))

/-! ### The resting states -/

@[simp] theorem steady_enterDormant (h : Steady w a b) : Steady w a b.enterDormant :=
  steady_settle (steady_clearBlanking (steady_modSc (steady_modCq (steady_modRt (steady_clearBus
    (steady_moveTo h (by decide))) id) id) id))

@[simp] theorem steady_enterIsolated {r : Reason} (h : Steady w a b) : Steady w a (b.enterIsolated r) :=
  steady_settle (steady_freeTimeBase (steady_clearBlanking (steady_modSc (steady_clearFaults (steady_forgetQueue
    (steady_forgetRoster (steady_clearBus (steady_moveTo (steady_voidTickets h) (by decide)))))) id)))

@[simp] theorem steady_enterHalted {r : Reason} (h : Steady w a b) : Steady w a (b.enterHalted r) :=
  steady_settle (steady_freeTimeBase (steady_clearBlanking (steady_modSc (steady_modCq (steady_modRt (steady_clearBus
    (steady_moveTo h (by decide))) id) id) id)))

@[simp] theorem steady_isolate {r : Reason} (h : Steady w a b) : Steady w a (b.isolate r) :=
  steady_doIf h (steady_enterIsolated h)

@[simp] theorem steady_enterResync {k : Option Nat} (h : Steady w a b) : Steady w a (b.enterResync k) :=
  steady_settle (steady_clearBlanking (steady_modTb (steady_modSc (steady_modRt (steady_modBi (steady_dropBodies
    (steady_moveTo (steady_emptyQueue (steady_voidTickets h)) (by decide))) id) id) id)
      fun _ => ⟨rfl, rfl, rfl, rfl⟩))

/-! ### Leaving, joining and their outcomes -/

@[simp] theorem steady_becomeLeaving {n : Byte} (h : Steady w a b) : Steady w a (b.becomeLeaving n) :=
  steady_modSc (steady_moveTo h (by decide)) id

/-- An offer changes no ticket. -/
theorem offer_sp {body : QueuedBody} (ho : b.offer body = some t) : t.sp = b.sp := by
  unfold offer at ho
  split at ho
  · rw [← Option.some.inj ho]; rfl
  · cases ho

theorem offerPropose_sp {d : ProposalContent} (ho : b.offerPropose d = some t) : t.sp = b.sp := by
  obtain ⟨u, hu, rfl⟩ := Option.map_eq_some_iff.mp ho
  rw [modCq_sp]
  exact offer_sp hu

/-- After an offer of a PROPOSE the ticket of its number can be issued as before. -/
theorem unfinishedTickets_of_canIssue {d : ProposalContent} (ho : b.offerPropose d = some t)
    (hc : b.canIssueTicket = true) : t.unfinishedTickets < 4 := by
  unfold canIssueTicket at hc
  unfold unfinishedTickets at hc ⊢
  rw [offerPropose_sp ho]
  simp only [Bool.and_eq_true, decide_eq_true_eq] at hc
  exact hc.1

@[simp] theorem steady_proposeLeave (h : Steady w a b) : Steady w a b.proposeLeave := by
  simp only [proposeLeave]
  split
  · split
    next ho => exact steady_becomeLeaving (steady_updateTickets (steady_offer h ho))
    next => exact h
  · split
    next ho =>
      have k := steady_offerPropose h ho
      refine steady_becomeLeaving ?_
      cases hc : b.canIssueTicket with
      | false => exact k
      | true => exact steady_issueTicket k (unfinishedTickets_of_canIssue ho hc)
    next => exact h

@[simp] theorem steady_leaveIfPending (h : Steady w a b) : Steady w a b.leaveIfPending :=
  steady_doIf h (steady_proposeLeave h)

@[simp] theorem steady_memberTests (h : Steady w a b) : Steady w a b.memberTests :=
  steady_readmissionTest (steady_shedTest h)

@[simp] theorem steady_becomeMember (h : Steady w a b) : Steady w a b.becomeMember :=
  steady_memberTests (steady_leaveIfPending (steady_modSc (steady_modRt (steady_moveTo h (by decide)) id) id))

@[simp] theorem steady_enterMember (h : Steady w a b) : Steady w a b.enterMember :=
  steady_settle (steady_jumpToTarget (steady_settle (steady_becomeMember h)))

@[simp] theorem steady_returnToMember (h : Steady w a b) : Steady w a b.returnToMember :=
  steady_settle (steady_becomeMember h)

@[simp] theorem steady_proposeAdmission (h : Steady w a b) : Steady w a b.proposeAdmission := by
  unfold proposeAdmission
  split
  next ho =>
    have k := steady_moveTo (new := .joining) (steady_offerPropose h ho) (by decide)
    exact steady_modSc (steady_doIf k (steady_dropGroupFrames k)) id
  next => exact h

@[simp] theorem steady_enterGroup (h : Steady w a b) : Steady w a b.enterGroup := by
  unfold enterGroup
  repeat' split
  · exact steady_enterMember h
  · exact h
  · exact steady_settle (steady_proposeAdmission h)

@[simp] theorem steady_joinTest (h : Steady w a b) : Steady w a b.joinTest := steady_doIf h (steady_enterGroup h)

@[simp] theorem steady_resyncTest (h : Steady w a b) : Steady w a b.resyncTest := steady_doIf h (steady_enterGroup h)

@[simp] theorem steady_joinFailed (h : Steady w a b) : Steady w a b.joinFailed := by
  unfold joinFailed
  split
  · exact steady_enterDormant h
  · exact steady_listenWithCopy h

@[simp] theorem steady_joinMissed (h : Steady w a b) : Steady w a b.joinMissed := by
  simp only [joinMissed]
  split
  · exact steady_enterDormant (steady_discardCopy (steady_dropBodies h))
  · exact steady_settle (steady_enterListen (steady_discardCopy (steady_dropBodies h)))

@[simp] theorem steady_missedFrame (h : Steady w a b) : Steady w a b.missedFrame := by
  unfold missedFrame
  split
  · exact steady_joinMissed h
  · exact steady_discardCopy h
  · exact steady_discardCopy h
  · exact h

/-! ### The Commit Queue -/

@[simp] theorem steady_dropEntry {id : ProposalId} (h : Steady w a b) : Steady w a (b.dropEntry id) :=
  steady_dropBodies (steady_modCq h fun k => (List.length_filter_le _ _).trans k)

@[simp] theorem steady_decideObjection {id : ProposalId} {r : ObjectReason} (h : Steady w a b) :
    Steady w a (b.decideObjection id r) := steady_offer_getD h (steady_modCq h fun k => k)

@[simp] theorem steady_offerWithdrawal {e : QueueEntry} (h : Steady w a b) : Steady w a (b.offerWithdrawal e) := by
  unfold offerWithdrawal
  split
  · split
    next ho => exact steady_reportTicket (steady_offer h ho)
    next => exact h
  · exact h

@[simp] theorem steady_offerOwedWithdrawal (h : Steady w a b) : Steady w a b.offerOwedWithdrawal := by
  unfold offerOwedWithdrawal
  split
  · split
    · split
      next ho => exact steady_modSc (steady_offer h ho) fun k => k
      next => exact h
    · exact steady_modSc h fun k => k
  · exact steady_modSc h fun k => k

theorem length_insertEntry (en : Word) (e : QueueEntry) (es : List QueueEntry) :
    (insertEntry en e es).length = es.length + 1 := by
  unfold insertEntry
  have := congrArg List.length (List.takeWhile_append_dropWhile
    (p := fun x : QueueEntry => epochsAhead x.f en ≤ epochsAhead e.f en) (l := es))
  simp only [List.length_append, List.length_cons] at this ⊢
  omega

/-- A proposal that passes every arrival check finds fewer than eight entries (R97). -/
theorem arrivalRefusal_none_room {i : StationId} {p : ProposeFields} (h : b.arrivalRefusal i p = none) :
    b.cq.entries.length < 8 := by
  simp only [arrivalRefusal, fullCheck, Option.or_eq_none_iff] at h
  by_contra hn
  simp [hn] at h

theorem steady_enterProposal {id : ProposalId} {d : ProposalContent} {f : Word} (h : Steady w a b)
    (hr : b.cq.entries.length < 8) : Steady w a (b.enterProposal id d f) := by
  simp only [enterProposal]
  have k₁ : ∀ e : QueueEntry, Steady w a (b.modCq fun cq => { cq with entries := insertEntry b.tb.en e cq.entries }) :=
    fun e => steady_modCq h fun _ => by rw [length_insertEntry]; exact hr
  have k₂ := fun e : QueueEntry => fun q : Bool => fun g : Ticket → Ticket => steady_doIf (c := q) (k₁ e)
    (steady_reportTicket (n := id.seq) (d := d) (f := g) (k₁ e))
  have k₃ : ∀ u, Steady w a u → ∀ o : Option ObjectReason, Steady w a (o.elim u fun r => u.decideObjection id r) :=
    fun u hu o => by cases o <;> simp [hu]
  have k₄ : ∀ u, Steady w a u → ∀ q : Bool, Steady w a (u.doIf q fun s =>
      (s.modSc fun sc => { sc with withdrawOwed := true }).offerOwedWithdrawal) :=
    fun u hu q => steady_doIf hu (steady_offerOwedWithdrawal (steady_modSc hu fun k => k))
  have k₅ : ∀ u, Steady w a u → ∀ q : Bool, Steady w a (u.doIf q withdrawalTest) :=
    fun u hu q => steady_doIf hu (steady_withdrawalTest hu)
  exact k₅ _ (steady_offerWithdrawal (k₄ _ (k₃ _ (k₂ _ _ _) _) _)) _

@[simp] theorem steady_trackedRefused {r : ArrivalRefusal} (h : Steady w a b) : Steady w a (b.trackedRefused r) := by
  unfold trackedRefused
  split
  · exact steady_enterHalted h
  · exact steady_joinFailed h
  · exact steady_returnToMember h
  · exact h

@[simp] theorem steady_refuseProposal {id : ProposalId} {p : ProposeFields} {r : ArrivalRefusal} (h : Steady w a b) :
    Steady w a (b.refuseProposal id p r) := by
  simp only [refuseProposal]
  have k : Steady w a (b.doIf (decide (id.origin = b.ownId)) fun s => match contentOf p with
    | some c => s.reportTicket id.seq c fun t => { t.finish (.refused r) with f := some p.f }
    | none => s) := by
    refine steady_doIf h ?_
    split
    · exact steady_reportTicket h
    · exact h
  exact steady_doIf k (steady_trackedRefused k)

@[simp] theorem steady_processPropose {i : StationId} {p : ProposeFields} (h : Steady w a b) :
    Steady w a (b.processPropose i p) := by
  simp only [processPropose]
  split
  next hn _ => exact steady_enterProposal h (arrivalRefusal_none_room hn)
  next => exact steady_refuseProposal h
  next => exact h

@[simp] theorem steady_trackedLost (h : Steady w a b) : Steady w a b.trackedLost := by
  unfold trackedLost
  split
  · exact steady_joinFailed h
  · exact steady_returnToMember h
  · exact h

@[simp] theorem steady_resetSilence {i : StationId} (h : Steady w a b) : Steady w a (b.resetSilence i) :=
  steady_doIf h (steady_modRt h fun k => by simpa using k)

@[simp] theorem steady_applyObjection {e : QueueEntry} {r : ObjectReason} {i : StationId} (h : Steady w a b) :
    Steady w a (b.applyObjection e r i) := by
  simp only [applyObjection]
  have k₁ := steady_doIf (c := e.isLocal) (steady_dropEntry (id := e.id) h)
    (steady_reportTicket (n := e.id.seq) (d := e.content) (f := Ticket.finish (.objected r i))
      (steady_dropEntry (id := e.id) h))
  have k₂ := steady_doIf (c := decide (r = .present)) k₁ (steady_resetSilence (i := e.target) k₁)
  exact steady_doIf k₂ (steady_trackedLost k₂)

@[simp] theorem steady_processObject {i : StationId} {o : ObjectFields} (h : Steady w a b) :
    Steady w a (b.processObject i o) := by
  simp only [processObject]
  split
  · split
    · exact steady_applyObjection h
    · exact h
  · exact h

@[simp] theorem steady_voidClearTrip {e : QueueEntry} (h : Steady w a b) : Steady w a (b.voidClearTrip e) :=
  steady_doIf (steady_dropEntry h) (steady_reportTicket (steady_dropEntry h))

@[simp] theorem steady_processTrip {i : StationId} {f : TripFields} (h : Steady w a b) :
    Steady w a (b.processTrip i f) :=
  steady_foldl (fun _ _ => steady_voidClearTrip Steady.rfl') _ (steady_modFu (steady_setTripSet h))

@[simp] theorem steady_makeEntryFirm {e : QueueEntry} (h : Steady w a b) : Steady w a (b.makeEntryFirm e) := by
  simp only [makeEntryFirm]
  have k₁ := steady_dropBodies (test := (·.objectsTo e.id)) (steady_modCq h
    (g := fun cq => { cq with
      entries := cq.entries.map fun x => if x.id = e.id then { x with phase := .firm } else x
      pendingObjections := cq.pendingObjections.filter fun o => o.1 ≠ e.id }) (by simp))
  have k₂ := steady_doIf (c := e.isLocal) k₁ (steady_reportTicket (n := e.id.seq) (d := e.content) (f := fun t =>
    { t with state := .firm, withdrawRequest := false, withdrawQueued := false }) k₁)
  exact steady_doIf k₂ (steady_raise k₂)

@[simp] theorem steady_makeFirm (h : Steady w a b) : Steady w a b.makeFirm :=
  steady_foldl (fun _ _ => steady_makeEntryFirm Steady.rfl') _ h

@[simp] theorem steady_applyContent {e : QueueEntry} (h : Steady w a b) : Steady w a (b.applyContent e) := by
  unfold applyContent
  split
  · exact steady_setEntry h
  · exact steady_setEntry h
  · exact steady_setEntry h
  · exact steady_modCq h id
  · exact steady_setTripSet h

@[simp] theorem steady_applyToOwn {e : QueueEntry} (h : Steady w a b) : Steady w a (b.applyToOwn e) := by
  unfold applyToOwn
  split
  · exact h
  · split
    · exact steady_doIf h (steady_becomeMember h)
    · exact steady_doIf h (steady_enterDormant h)
    · exact steady_doIf h (steady_listenRemoved h)
    all_goals exact h

@[simp] theorem steady_applyEntry {e : QueueEntry} (h : Steady w a b) : Steady w a (b.applyEntry e) := by
  simp only [applyEntry]
  have k₁ := steady_doIf (c := !b.isNoEffect e) (steady_dropEntry (id := e.id) h)
    (steady_applyContent (e := e) (steady_dropEntry (id := e.id) h))
  exact steady_applyToOwn (steady_doIf k₁ (steady_reportTicket k₁))

@[simp] theorem steady_applyDue (h : Steady w a b) : Steady w a b.applyDue :=
  steady_foldl (fun _ _ => steady_applyEntry Steady.rfl') _ h

theorem steady_offerObjections (l : List (ProposalId × ObjectReason)) (h : Steady w a b) :
    Steady w a (offerObjections l b) := by
  induction l generalizing b with
  | nil => exact h
  | cons x xs ih =>
    unfold offerObjections
    split
    next ho => exact ih (steady_modCq (steady_offer h ho) fun k => k)
    next => exact h

@[simp] theorem steady_offerAtBoundary (h : Steady w a b) : Steady w a b.offerAtBoundary := by
  simp only [offerAtBoundary]
  have k₁ := steady_offerObjections b.cq.pendingObjections h
  exact steady_foldl (fun _ _ => steady_offerWithdrawal Steady.rfl') _
    (steady_doIf k₁ (steady_offerOwedWithdrawal k₁))

end Sys2Proof.Machine.State
end

