-- ==== Sys2Proof/Laws/SteadyBoundary.lean ====
section
/-! SUPPORT. The work of a boundary, of the mark line, of the Bus Interface and of an accepted frame is steady
(Laws/Steady.lean). What moves the counters or EN is steady with `clock` false. -/

namespace Sys2Proof.Machine.State

variable {w c : Bool} {a b s t : State}

/-! ### The boundary -/

@[simp] theorem steady_found (h : Steady false a b) : Steady false a b.found := by
  simp only [found]
  have k₁ := steady_setRoster (es := b.founderRoster) (steady_setTripSet (m := 0) (steady_emptyQueue (r := .resync) h))
    fun _ => by simp [founderRoster]
  have k₂ := steady_modRt (g := fun rt => { rt with
    copySource := .own, expectedKey := none, groupFingerprint := none, countdown := 0, pendingReplies := 0 })
    (steady_modCq (g := fun cq => { cq with duty := 0 }) k₁ id) id
  exact steady_memberTests (steady_adoptTarget (steady_remode (steady_modSc (steady_moveTo (steady_enterLocked
    (steady_modTb k₂ (by simp))) (by decide)) id)))

@[simp] theorem steady_updateSilence {f : StationId → Bool} (h : Steady w a b) : Steady w a (b.updateSilence f) :=
  steady_modRt h fun _ => by simp [allStations]

@[simp] theorem steady_proposeLoss {i : StationId} (h : Steady w a b) : Steady w a (b.proposeLoss i) := by
  unfold proposeLoss
  split
  · exact steady_orKeep_offerPropose h
  · exact h

@[simp] theorem steady_proposeLosses (h : Steady w a b) : Steady w a b.proposeLosses :=
  steady_foldl (fun _ _ => steady_proposeLoss Steady.rfl') _ h

@[simp] theorem steady_clearHeard (h : Steady w a b) : Steady w a b.clearHeard :=
  steady_modRt h fun k => by simpa using k

@[simp] theorem steady_stepThree {f : StationId → Bool} (h : Steady w a b) : Steady w a (b.stepThree f) := by
  simp only [stepThree]
  split
  · exact h
  · have k₁ := steady_doIf (c := b.isMember) (steady_updateSilence (f := f) h) (steady_proposeLosses (steady_updateSilence h))
    exact steady_doIf (steady_clearHeard k₁) (steady_enterResync (steady_clearHeard k₁))

@[simp] theorem steady_takeDigest (h : Steady w a b) : Steady w a b.takeDigest := steady_modRt h fun k => k

@[simp] theorem steady_buildBeat {n : Nat} (h : Steady w a b) : Steady w a (b.buildBeat n) :=
  steady_doIf h (steady_enqueueBeat h)

@[simp] theorem steady_yieldToGroup {n : Nat} (h : Steady w a b) : Steady w a (b.yieldToGroup n) := by
  unfold yieldToGroup
  split
  · have k := steady_modRt (g := fun rt => { rt with expectedKey := some n }) h id
    exact steady_doIf k (steady_discardCopy k)
  · exact steady_doIf h (steady_discardCopy h)
  · exact steady_joinMissed h
  · exact h

@[simp] theorem steady_heardGroupTest (h : Steady w a b) : Steady w a b.heardGroupTest := by
  simp only [heardGroupTest]
  have k := steady_modRt (g := fun rt => { rt with heardGroup := none }) h id
  split
  · cases b.lowerGroup with
    | none => exact k
    | some n => exact steady_yieldToGroup k
  · exact k

@[simp] theorem steady_holdoverAtBoundary (h : Steady w a b) : Steady w a b.holdoverAtBoundary := by
  simp only [holdoverAtBoundary]
  split
  · exact h
  · split
    · exact steady_leaveHoldover h
    · have k := steady_modTb (g := fun tb => { tb with holdoverEpochs := min b.lossEpochs (b.tb.holdoverEpochs + 1) })
        h fun _ => ⟨rfl, rfl, rfl, rfl⟩
      exact steady_doIf k (steady_isolate k)

@[simp] theorem steady_markSeenAtBoundary {n : Bool} (h : Steady w a b) : Steady w a (b.markSeenAtBoundary n) :=
  steady_modTb (steady_doIf h (steady_modTb h fun _ => ⟨rfl, rfl, rfl, rfl⟩)) fun _ => ⟨rfl, rfl, rfl, rfl⟩

@[simp] theorem steady_startDrive (h : Steady w a b) : Steady w a b.startDrive :=
  steady_doIf h (steady_modTb h fun _ => ⟨rfl, rfl, rfl, rfl⟩)

@[simp] theorem steady_advanceClashWindow (h : Steady w a b) : Steady w a b.advanceClashWindow := steady_modBi h id

@[simp] theorem steady_countStuck (h : Steady w a b) : Steady w a b.countStuck := by
  simp only [countStuck]
  split
  · have k := steady_modBi (g := fun bi => { bi with stuckEpochs := b.bi.stuckEpochs + 1 }) h id
    exact steady_doIf k (steady_isolate k)
  · exact steady_modBi h id

@[simp] theorem steady_countHoldoff {q : Bool} (h : Steady w a b) : Steady w a (b.countHoldoff q) :=
  steady_doIf h (steady_modSc h id)

@[simp] theorem steady_countQuiet {q : Bool} (h : Steady w a b) : Steady w a (b.countQuiet q) := by
  unfold countQuiet
  split
  · exact steady_modSc h id
  · exact steady_modSc h id
  · exact h

@[simp] theorem steady_countUnlocked (h : Steady w a b) : Steady w a b.countUnlocked := by
  simp only [countUnlocked]
  split
  · have k := steady_modSc (g := fun sc => { sc with unlocked := b.sc.unlocked + 1 }) h id
    exact steady_doIf k (steady_isolate k)
  · exact h

@[simp] theorem steady_resyncTimeout (h : Steady w a b) : Steady w a b.resyncTimeout :=
  steady_doIf h (steady_listenUnheard h)

@[simp] theorem steady_queryAtBoundary (h : Steady w a b) : Steady w a b.queryAtBoundary := by
  have k : ∀ u, Steady w a u → ∀ n, Steady w a (u.modRt fun rt => { rt with countdown := n }) :=
    fun u hu n => steady_modRt hu fun k => k
  simp only [queryAtBoundary]
  split
  · exact steady_doIf (k _ h _) (steady_dropBodies (k _ h _))
  · split
    · split
      next ho => exact k _ (steady_offer h ho) _
      next => exact k _ h _
    · exact k _ h _

@[simp] theorem steady_offerReply {i : StationId} (h : Steady w a b) : Steady w a (b.offerReply i) := by
  have k : ∀ u, Steady w a u →
      Steady w a (u.modRt fun rt => { rt with pendingReplies := rt.pendingReplies &&& ~~~stationBit i }) :=
    fun u hu => steady_modRt hu fun k => k
  simp only [offerReply]
  split
  · split
    · exact k _ h
    · cases ho : b.offer (.reply i) with
      | none => exact h
      | some u => exact k _ (steady_offer h ho)
  · exact h

@[simp] theorem steady_stepTwo (h : Steady w a b) : Steady w a b.stepTwo :=
  steady_settle (steady_makeFirm (steady_applyDue h))

@[simp] theorem steady_stepsOneAndTwo (h : Steady false a b) : Steady false a b.stepsOneAndTwo := by
  have k := steady_modTb (g := fun tb => { tb with en := tb.en + 1 }) h (by simp)
  unfold stepsOneAndTwo
  split
  · exact steady_found h
  · exact steady_doIf k (steady_stepTwo k)

@[simp] theorem steady_stepsOneToThree (h : Steady false a b) : Steady false a b.stepsOneToThree :=
  steady_doIf (steady_stepsOneAndTwo h) (steady_settle (steady_stepThree (steady_stepsOneAndTwo h)))

@[simp] theorem steady_groupWork {n : Nat} (h : Steady w a b) : Steady w a (b.groupWork n) :=
  steady_doIf h (steady_offerAtBoundary (steady_heardGroupTest (steady_buildBeat (steady_takeDigest h))))

@[simp] theorem steady_lineWork {n : Bool} (h : Steady w a b) : Steady w a (b.lineWork n) :=
  steady_countStuck (steady_advanceClashWindow (steady_startDrive (steady_markSeenAtBoundary
    (steady_holdoverAtBoundary h))))

@[simp] theorem steady_controllerWork {q r : Bool} (h : Steady w a b) : Steady w a (b.controllerWork q r) :=
  steady_leaveIfPending (steady_resyncTest (steady_joinTest (steady_resyncTimeout (steady_countUnlocked
    (steady_countQuiet (steady_countHoldoff h))))))

@[simp] theorem steady_lateOffers (h : Steady w a b) : Steady w a b.lateOffers :=
  steady_foldl (fun _ _ => steady_offerReply Steady.rfl') _ (steady_withdrawalTest (steady_readmissionTest
    (steady_shedTest (steady_queryAtBoundary h))))

@[simp] theorem steady_boundary {n : Bool} (h : Steady false a b) : Steady false a (b.boundary n) := by
  simp only [boundary]
  exact steady_settle (steady_lateOffers (steady_settle (steady_controllerWork (steady_lineWork (steady_groupWork
    (steady_stepsOneToThree h))))))

theorem steady_naturalBoundary : Steady false a a.naturalBoundary := by
  unfold naturalBoundary
  split
  · exact Steady.rfl'
  · exact steady_boundary (steady_modTb Steady.rfl' (by simp))

/-! ### The mark line -/

@[simp] theorem steady_pointIfPassed {p q : Nat} (h : Steady w a b) : Steady w a (b.pointIfPassed p q) :=
  steady_doIf h (steady_halfPoint h)

@[simp] theorem steady_releaseIf {v : Bool} (h : Steady w a b) : Steady w a (b.releaseIf v) :=
  steady_doIf h (steady_modOs h fun _ => OutputStage.release_gatesOk _)

theorem steady_setP (n : Nat) (h : Steady w a b) : Steady w a (b.modOs fun os => { os with p := n }) :=
  steady_modOs h fun k => k.of rfl rfl fun k => k

@[simp] theorem steady_passTo {n : Nat} (h : Steady w a b) : Steady w a (b.passTo n) :=
  steady_pointIfPassed (steady_setP n h)

@[simp] theorem steady_jumpWithin {j : Nat} (h : Steady w a b) : Steady w a (b.jumpWithin j) :=
  steady_releaseIf (steady_passTo h)

@[simp] theorem steady_jumpAcrossEnd {j : Nat} {e : Bool} (h : Steady w a b) : Steady w a (b.jumpAcrossEnd j e) :=
  steady_releaseIf (steady_passTo (steady_crossStart (steady_passTo h)))

@[simp] theorem steady_alignCycle {j : Nat} {e : Bool} (h : Steady w a b) : Steady w a (b.alignCycle j e) := by
  unfold alignCycle
  repeat' split
  · exact steady_jumpWithin h
  · exact steady_jumpAcrossEnd h
  · exact steady_reanchor h

@[simp] theorem steady_alignCounters (h : Steady false a b) : Steady false a b.alignCounters :=
  steady_modTb h (by simp)

@[simp] theorem steady_alignForward {j : Nat} {e : Bool} (h : Steady false a b) :
    Steady false a (b.alignForward j e) := by
  simp only [alignForward]
  have k := steady_alignCycle (j := j) (e := e) (steady_alignCounters h)
  exact steady_doIf k (steady_boundary k)

@[simp] theorem steady_alignBackward (h : Steady false a b) : Steady false a b.alignBackward :=
  steady_reanchor (steady_alignCounters h)

@[simp] theorem steady_timeStep (h : Steady w a b) : Steady w a b.timeStep := steady_raise (steady_modOs_regate h)

@[simp] theorem steady_alignEitherWay {n : Nat} (h : Steady false a b) : Steady false a (b.alignEitherWay n) := by
  unfold alignEitherWay
  repeat' split
  · exact h
  · exact steady_alignForward h
  · exact steady_alignBackward h

@[simp] theorem steady_edgeInFree {n : Nat} (h : Steady false a b) : Steady false a (b.edgeInFree n) := by
  have k := steady_alignEitherWay (n := n) h
  exact steady_doIf k (steady_modTb k (by simp))

@[simp] theorem steady_edgeInAcquiring {n m : Nat} (h : Steady false a b) :
    Steady false a (b.edgeInAcquiring n m) := by
  have k := steady_alignEitherWay (n := n) h
  simp only [edgeInAcquiring]
  repeat' split
  · exact k
  · exact steady_modTb k (by simp)
  · exact steady_enterLocked k
  · exact steady_modTb k (by simp)

@[simp] theorem steady_edgeWhileDriving {n : Nat} (h : Steady false a b) : Steady false a (b.edgeWhileDriving n) := by
  unfold edgeWhileDriving
  repeat' split
  · exact h
  · exact steady_alignForward h
  · exact steady_alignForward (steady_timeStep h)
  · exact steady_raise h

@[simp] theorem steady_edgeWhileFollowing {n m : Nat} (h : Steady false a b) :
    Steady false a (b.edgeWhileFollowing n m) := by
  unfold edgeWhileFollowing
  repeat' split
  · exact h
  · exact steady_alignForward h
  · exact steady_alignForward (steady_timeStep h)
  · exact steady_alignBackward h
  · exact steady_alignBackward (steady_timeStep h)

@[simp] theorem steady_treatEdge {n m : Nat} (h : Steady false a b) : Steady false a (b.treatEdge n m) := by
  unfold treatEdge
  repeat' split
  · exact h
  · exact steady_edgeInFree h
  · exact steady_edgeInAcquiring h
  · exact steady_edgeWhileDriving h
  · exact steady_edgeWhileFollowing h
  · exact h

@[simp] theorem steady_breakQuiet (h : Steady w a b) : Steady w a b.breakQuiet := steady_doIf h (steady_modSc h id)

theorem steady_markEdge : Steady false a a.markEdge := by
  simp only [markEdge]
  split
  · exact Steady.rfl'
  · have k₁ := steady_breakQuiet (steady_modTb (g := fun tb => { tb with
      lastLead := BitVec.ofNat 16 (min 65535 (a.leadOf a.edgePos)), levelLow := true, lowRun := 3, filterRun := 0 })
      (Steady.rfl' (w := false) (a := a)) (by simp))
    exact steady_settle (steady_breakQuiet (steady_modTb (steady_treatEdge (steady_doIf k₁ (steady_leaveHoldover k₁)))
      (by simp)))

theorem steady_markRelease : Steady w a a.markRelease := by
  unfold markRelease
  split
  · exact Steady.rfl'
  · exact steady_modTb Steady.rfl' fun _ => ⟨rfl, rfl, rfl, rfl⟩

theorem steady_holdoverEntry : Steady w a a.holdoverEntry := by
  unfold holdoverEntry
  split
  · exact Steady.rfl'
  · exact steady_enterHoldover (steady_modTb Steady.rfl' fun _ => ⟨rfl, rfl, rfl, rfl⟩)

theorem steady_markDriveEnd (q : Bool) : Steady w a (a.markDriveEnd q) := by
  simp only [markDriveEnd]
  repeat' split
  · exact Steady.rfl'
  · have k := steady_raise (e := .line) (steady_modTb (g := fun tb => { tb with failedDrives := a.tb.failedDrives + 1 })
      (steady_stopDrive (Steady.rfl' (w := w) (a := a))) fun _ => ⟨rfl, rfl, rfl, rfl⟩)
    exact steady_doIf k (steady_isolate k)
  · exact steady_modTb (steady_stopDrive Steady.rfl') fun _ => ⟨rfl, rfl, rfl, rfl⟩

/-! ### The Bus Interface -/

theorem length_markFirst (test : QueuedFrame → Bool) (q : List QueuedFrame) :
    (markFirst test q).length = q.length := by
  induction q with
  | nil => rfl
  | cons x xs ih => unfold markFirst; split <;> simp [ih]

@[simp] theorem steady_startBit (h : Steady w a b) : Steady w a b.startBit := steady_modBi h fun k => k

@[simp] theorem steady_beginAttempt {f : Instr} (h : Steady w a b) : Steady w a (b.beginAttempt f) :=
  steady_modBi h fun k => by
    dsimp only
    split
    · exact k
    · rw [length_markFirst]; exact k

@[simp] theorem steady_transmissionAttempt {j : Bool} (h : Steady w a b) : Steady w a (b.transmissionAttempt j) := by
  unfold transmissionAttempt
  repeat' split
  · exact steady_beginAttempt (steady_doIf h (steady_startBit h))
  · exact h
  · exact h

@[simp] theorem steady_landAttempt {n : Nat} (h : Steady w a b) : Steady w a (b.landAttempt n) :=
  steady_modBi h fun k => by simpa using k

@[simp] theorem steady_actOnEnd {q : QueuedBody} (h : Steady w a b) : Steady w a (b.actOnEnd q) := by
  unfold actOnEnd
  split
  · dsimp only
    repeat' split
    · exact steady_enterDormant h
    next seq d _ _ =>
      have k := steady_reportTicket (n := seq) (d := d) (f := Ticket.finish .abandoned)
        (steady_dropBodies (test := (·.isPropose seq d)) h)
      exact steady_doIf k (steady_returnToMember k)
    · exact h
  · exact h

@[simp] theorem steady_abandonFrame {q : QueuedBody} (h : Steady w a b) : Steady w a (b.abandonFrame q) := by
  have k₁ := steady_modBi (g := fun bi => { bi with attempt := none, abandonCount := b.bi.abandonCount + 1 })
    (steady_raise (e := .txAbandoned) (steady_dropFrames (test := (·.inFlight)) h)) fun k => k
  simp only [abandonFrame]
  split
  next seq d =>
    have k₂ := steady_reportTicket (n := seq) (d := d) (f := Ticket.finish .abandoned) k₁
    split
    · exact steady_isolate k₂
    · exact steady_doIf k₂ (steady_trackedLost k₂)
  · exact steady_doIf k₁ (steady_isolate k₁)

@[simp] theorem steady_rejectQueued {x : QueuedFrame} {r : Bool} (h : Steady w a b) :
    Steady w a (b.rejectQueued x r) := by
  unfold rejectQueued
  dsimp only
  generalize (if r then 0 else x.attempts + 1) = n
  split
  · exact steady_actOnEnd (steady_landAttempt h)
  · exact steady_abandonFrame h

@[simp] theorem steady_rejectTrip (h : Steady w a b) : Steady w a b.rejectTrip := steady_modBi h fun k => k

@[simp] theorem steady_rejectAttempt (h : Steady w a b) : Steady w a b.rejectAttempt := by
  unfold rejectAttempt
  repeat' split
  · exact h
  · exact steady_rejectQueued h
  · exact steady_rejectTrip h

@[simp] theorem steady_loseAttempt (h : Steady w a b) : Steady w a b.loseAttempt := by
  unfold loseAttempt
  repeat' split
  · exact h
  · exact steady_actOnEnd (steady_landAttempt h)
  · exact steady_landAttempt h

theorem steady_arbitrationLost : Steady w a a.arbitrationLost := by
  unfold arbitrationLost
  split <;> simp

theorem steady_bodyClash : Steady w a a.bodyClash := by
  simp only [bodyClash]
  repeat' split
  · exact Steady.rfl'
  · exact steady_enterHalted (steady_raise Steady.rfl')
  · exact steady_rejectAttempt (steady_modBi (steady_raise Steady.rfl') fun k => k)

theorem steady_driveReadbackFail : Steady w a a.driveReadbackFail := by
  unfold driveReadbackFail
  split
  · exact Steady.rfl'
  · exact steady_rejectAttempt (steady_raise Steady.rfl')

@[simp] theorem steady_countReject (h : Steady w a b) : Steady w a b.countReject := by
  have k := steady_modBi (g := fun bi => { bi with rejectCount := b.bi.rejectCount + 1 }) h fun k => k
  exact steady_doIf k (steady_isolate k)

@[simp] theorem steady_stopFollowing (h : Steady w a b) : Steady w a b.stopFollowing := steady_modBi h fun k => k

theorem steady_formatError : Steady w a a.formatError := by
  simp only [formatError]
  split
  · exact Steady.rfl'
  · exact steady_stopFollowing (steady_rejectAttempt (steady_doIf Steady.rfl' (steady_modBi Steady.rfl' fun k => k)))

theorem steady_errorFlagEnd : Steady w a a.errorFlagEnd := by
  have k := steady_modBi (g := fun bi => { bi with errorFlagLeft := 0 }) (Steady.rfl' (w := w) (a := a)) fun k => k
  unfold errorFlagEnd
  split
  · exact Steady.rfl'
  · exact steady_doIf k (steady_countReject k)

@[simp] theorem steady_discardFrame {v : Bool} (h : Steady w a b) : Steady w a (b.discardFrame v) := by
  unfold discardFrame
  split
  · exact h
  · exact steady_modBi (steady_rejectAttempt (steady_doIf h (steady_countReject h))) fun k => k

theorem steady_frameDiscarded (r m : Bool) : Steady w a (a.frameDiscarded r m) := steady_discardFrame Steady.rfl'

@[simp] theorem steady_noteAcceptance (h : Steady w a b) : Steady w a b.noteAcceptance :=
  steady_doIf h (steady_modSc h fun k => k)

theorem steady_frameMissed (v : Bool) : Steady w a (a.frameMissed v) := by
  unfold frameMissed
  split
  · exact Steady.rfl'
  · exact steady_missedFrame (steady_modBi (steady_doIf Steady.rfl' (steady_noteAcceptance Steady.rfl')) fun k => k)

theorem steady_lineIdle : Steady w a a.lineIdle := by
  unfold lineIdle
  split
  · exact Steady.rfl'
  · exact steady_modBi Steady.rfl' fun k => k

theorem steady_lineStuck : Steady w a a.lineStuck := by
  unfold lineStuck
  split
  · exact Steady.rfl'
  · exact steady_raise (steady_modBi Steady.rfl' fun k => k)

theorem steady_lineStuckRelease : Steady w a a.lineStuckRelease := by
  unfold lineStuckRelease
  split
  · exact Steady.rfl'
  · exact steady_modBi Steady.rfl' fun k => k

/-! ### Accepted frames -/

@[simp] theorem steady_ownAccepted (h : Steady w a b) : Steady w a b.ownAccepted := by
  simp only [ownAccepted]
  refine steady_modBi ?_ fun k => k
  split
  · exact steady_landAttempt h
  · exact steady_setQueue_le h (List.length_filter_le _ _)

@[simp] theorem steady_seeAcceptance {o : Bool} (h : Steady w a b) : Steady w a (b.seeAcceptance o) := by
  have k := steady_noteAcceptance (steady_modBi (g := fun bi => { bi with rx := none, rejectCount := 0 }) h fun k => k)
  simp only [seeAcceptance]
  split
  · exact steady_ownAccepted k
  · exact steady_loseAttempt k

/-- An acceptance is steady where what the owning block does with the frame is. -/
theorem steady_acceptFrame {i : StationId} {f : Instr} {g : State → State}
    (hg : ∀ u, Steady w u (g u)) : Steady w a (a.acceptFrame i f g) := by
  have k := steady_seeAcceptance (o := a.isOwnFrame i f) (Steady.rfl' (w := w) (a := a))
  simp only [acceptFrame]
  repeat' split
  · exact Steady.rfl'
  · exact steady_settle (steady_enterHalted k)
  · exact steady_settle k
  · exact steady_settle (k.trans (hg _))

@[simp] theorem steady_adoptEpoch {f : BeatFields} (h : Steady false a b) : Steady false a (b.adoptEpoch f) := by
  unfold adoptEpoch
  split
  · exact steady_modTb (steady_doIf h (steady_emptyQueue h)) (by simp)
  · exact h

@[simp] theorem steady_hearGroup {f : BeatFields} (h : Steady w a b) : Steady w a (b.hearGroup f) :=
  steady_doIf h (steady_modSc h fun k => k)

@[simp] theorem steady_noteGroup {f : BeatFields} (h : Steady w a b) : Steady w a (b.noteGroup f) :=
  steady_doIf h (steady_modRt h fun k => k)

@[simp] theorem steady_recordBeat {i : StationId} {f : BeatFields} (h : Steady w a b) :
    Steady w a (b.recordBeat i f) := steady_modRt h fun k => by simpa using k

@[simp] theorem steady_confirmCopy (h : Steady w a b) : Steady w a b.confirmCopy := by
  unfold confirmCopy
  split
  · exact steady_resyncTest (steady_joinTest (steady_modSc h fun k => k))
  · exact h

@[simp] theorem steady_compareBeat {f : BeatFields} (h : Steady w a b) : Steady w a (b.compareBeat f) := by
  unfold compareBeat
  repeat' split
  · exact h
  · exact steady_missedFrame h
  · exact steady_confirmCopy h
  · exact h
  · exact steady_missedFrame h
  · exact h

@[simp] theorem steady_strangerRule {i : StationId} {f : BeatFields} (h : Steady w a b) :
    Steady w a (b.strangerRule i f) := steady_doIf h (steady_enterResync h)

theorem steady_handleBeat {i : StationId} {f : BeatFields} (h : Steady false a b) :
    Steady false a (b.handleBeat i f) := by
  have k := steady_noteGroup (f := f) (steady_hearGroup (f := f) (steady_adoptEpoch (f := f) h))
  simp only [handleBeat]
  repeat' split
  · exact h
  · exact steady_compareBeat (steady_recordBeat k)
  · exact steady_strangerRule k

@[simp] theorem steady_withdrawForPropose {i : StationId} {p : ProposeFields} (h : Steady w a b) :
    Steady w a (b.withdrawForPropose i p) := by
  unfold withdrawForPropose
  split
  · exact steady_doIf h (steady_dropBodies h)
  · exact steady_dropBodies h
  · exact h

theorem steady_handlePropose {i : StationId} {p : ProposeFields} (h : Steady w a b) :
    Steady w a (b.handlePropose i p) :=
  steady_doIf (steady_withdrawForPropose h) (steady_processPropose (steady_withdrawForPropose h))

theorem steady_handleObject {i : StationId} {o : ObjectFields} (h : Steady w a b) :
    Steady w a (b.handleObject i o) := steady_doIf (steady_dropBodies h) (steady_processObject (steady_dropBodies h))

theorem steady_handleTrip {i : StationId} {f : TripFields} (h : Steady w a b) : Steady w a (b.handleTrip i f) :=
  steady_doIf h (steady_processTrip h)

theorem steady_handleQuery {i : StationId} (h : Steady w a b) : Steady w a (b.handleQuery i) := by
  unfold handleQuery
  split
  · exact h
  · exact steady_offer_getD h (steady_modRt h fun k => k)

theorem mapM_length {α β : Type} {g : α → Option β} {l : List α} {r : List β} (h : l.mapM g = some r) :
    r.length = l.length := by
  induction l generalizing r with
  | nil => simp_all
  | cons x xs ih =>
    simp only [List.mapM_cons, Option.bind_eq_bind, Option.bind_eq_some_iff] at h
    obtain ⟨y, _, ys, hys, he⟩ := h
    have he : y :: ys = r := by simpa using he
    rw [← he]
    simp [ih hys]

/-- A decoded roster has its sixteen entries (R192). -/
theorem entriesOfCode_length {r : BitVec 64} {en : Word} {es : List RosterEntry}
    (h : entriesOfCode r en = some es) : es.length = 16 := by
  have k := mapM_length (l := allStations) h
  exact k

theorem steady_adoptReply {r : ReplyFields} {es : List RosterEntry} (h : Steady false a b) (he : es.length = 16) :
    Steady false a (b.adoptReply r es) := by
  have k₁ : Steady false a ((b.setRoster es).emptyQueue .resync) := steady_emptyQueue (steady_setRoster h fun _ => he)
  simp only [adoptReply]
  generalize (b.setRoster es).emptyQueue .resync = u at k₁ ⊢
  have k₂ := steady_setTripSet (m := r.tripSet) (steady_modCq (g := fun cq => { cq with duty := r.duty }) k₁ id)
  generalize (u.modCq fun cq => { cq with duty := r.duty }).setTripSet r.tripSet = v at k₂ ⊢
  exact steady_adoptTarget (steady_remode (steady_dropBodies (steady_modSc (steady_modRt (steady_modTb k₂ (by simp))
    id) id)))

theorem steady_handleReply {r : ReplyFields} (h : Steady false a b) : Steady false a (b.handleReply r) := by
  have k := steady_modRt (g := fun rt => { rt with
    pendingReplies := rt.pendingReplies &&& ~~~stationBit (stationOfNibble r.asker) })
    (steady_dropBodies (test := (·.repliesTo (stationOfNibble r.asker))) h) fun k => k
  simp only [handleReply]
  split
  next es he =>
    split
    · exact steady_adoptReply k (entriesOfCode_length he)
    · exact k
  · exact k

end Sys2Proof.Machine.State
end

