-- ==== Sys2Proof/Laws/SteadyPort.lean ====
section
/-! SUPPORT. The Setup Port's commands are steady (Laws/Steady.lean), but for those that write what steadiness keeps;
and what `settle` leaves (R123, R137). -/

namespace Sys2Proof.Machine.State

variable {w c : Bool} {a b s t : State}

/-! ### Setup Port commands -/

theorem steady_setLeavePending (h : Steady w a b) : Steady w a b.setLeavePending := steady_modSc h fun k => k

theorem steady_stopOpen (e : QueueEntry) (h : Steady w a b) : Steady w a (b.stopOpen e) := by
  unfold stopOpen
  split
  next s' ho =>
    refine steady_respond (steady_setLeavePending (steady_modSc ?_ fun k => k))
    split
    · exact h
    · exact steady_offer h ho
  next => exact steady_respond h

theorem steady_stopFirm (h : Steady w a b) : Steady w a b.stopFirm := by
  simp only [stopFirm]
  split
  · exact steady_respond h
  · split
    next hc =>
      refine steady_respond (steady_setLeavePending (steady_modCq (steady_issueTicket h ?_) fun k => k))
      unfold canIssueTicket at hc
      simp only [Bool.and_eq_true, decide_eq_true_eq] at hc
      exact hc.1
    next => exact steady_respond h

theorem steady_stopJoining (h : Steady w a b) : Steady w a b.stopJoining := by
  unfold stopJoining
  split
  · split
    · exact steady_respond (steady_setLeavePending h)
    · exact steady_respond (steady_enterDormant h)
  · split
    · exact steady_stopOpen _ h
    · exact steady_stopFirm h
  · exact steady_respond (steady_setLeavePending h)

theorem steady_stopMember (h : Steady w a b) : Steady w a b.stopMember := by
  simp only [stopMember]
  split
  · split
    next ho => exact steady_respond (steady_becomeLeaving (steady_updateTickets (steady_offer h ho)))
    next => exact steady_respond h
  · split
    next => exact steady_respond h
    next ho =>
      split
      next hc =>
        exact steady_respond (steady_becomeLeaving (steady_issueTicket (steady_offerPropose h ho)
          (unfinishedTickets_of_canIssue ho hc)))
      next => exact steady_respond h

theorem steady_stopCommand : Steady w a a.stopCommand := by
  unfold stopCommand
  split
  · exact steady_respond (steady_enterDormant Steady.rfl')
  · exact steady_respond (steady_enterDormant Steady.rfl')
  · exact steady_stopJoining Steady.rfl'
  · exact steady_stopMember Steady.rfl'
  · exact steady_respond Steady.rfl'

theorem steady_restartCommand : Steady w a a.restartCommand := by
  unfold restartCommand
  split
  · exact steady_respond (steady_restartFromIsolated Steady.rfl')
  · exact steady_respond Steady.rfl'

theorem steady_readStatus : Steady w a a.readStatus :=
  steady_respond (steady_modSp Steady.rfl' rfl rfl rfl rfl fun k => k)

theorem steady_submit (k : TicketKind) (d : ProposalContent) : Steady w a (a.submit k d) := by
  simp only [submit]
  split
  · exact steady_respond Steady.rfl'
  · split
    next => exact steady_respond Steady.rfl'
    next ho =>
      split
      next hc =>
        exact steady_respond (steady_issueTicket (steady_offerPropose Steady.rfl' ho)
          (unfinishedTickets_of_canIssue ho hc))
      next => exact steady_respond Steady.rfl'

theorem steady_submitClearTrip (i : Byte) : Steady w a (a.submitClearTrip i) := by
  simp only [submitClearTrip]
  split
  · exact steady_respond Steady.rfl'
  · exact steady_submit _ _

theorem steady_withdrawWaiting (x : Ticket) (h : Steady w a b) : Steady w a (b.withdrawWaiting x) := by
  unfold withdrawWaiting
  split
  next y _ =>
    split
    · exact steady_updateTickets h
    · have k := steady_updateTickets (hit := fun u => decide (u.number = x.number)) (f := Ticket.finish .abandoned)
        (steady_dropBodies (test := fun b => decide (b = y.body)) h)
      exact steady_doIf k (steady_returnToMember k)
  · have k := steady_updateTickets (hit := fun u => decide (u.number = x.number)) (f := Ticket.finish .abandoned) h
    exact steady_doIf k (steady_modSc k fun k => k)

theorem steady_withdrawTicket (n : Byte) : Steady w a (a.withdrawTicket n) := by
  simp only [withdrawTicket]
  split
  · exact steady_respond Steady.rfl'
  · repeat' split
    · exact steady_respond Steady.rfl'
    · exact steady_respond Steady.rfl'
    · exact steady_respond (steady_withdrawWaiting _ Steady.rfl')
    · exact steady_respond Steady.rfl'
    next ho => exact steady_respond (steady_updateTickets (steady_offer Steady.rfl' ho))
    · exact steady_respond Steady.rfl'

theorem steady_readTicket (n : Byte) : Steady w a (a.readTicket n) := by
  unfold readTicket
  split
  · exact steady_respond Steady.rfl'
  · exact steady_respond (steady_doIf Steady.rfl' (steady_modSp Steady.rfl' rfl rfl rfl rfl fun k =>
      (List.length_filter_le _ _).trans k))

theorem steady_faultAck (i : Byte) : Steady w a (a.faultAck i) := by
  unfold faultAck
  repeat' split
  all_goals first
    | exact steady_respond Steady.rfl'
    | exact steady_respond (steady_modInput Steady.rfl')

theorem steady_portAbort : Steady w a a.portAbort :=
  steady_raise (steady_modSp Steady.rfl' rfl rfl rfl rfl fun k => k)

/-! ### What `settle` leaves -/

/-- What the chosen mode, the output mode and the target are derived from (R123, R136, R137). -/
structure SameBasis (s t : State) : Prop where
  isMember : t.isMember = s.isMember
  mayHaveTarget : t.mayHaveTarget = s.mayHaveTarget
  entries : t.rt.entries = s.rt.entries
  latched : ∀ i, (t.inputRecord i).latched = (s.inputRecord i).latched
  tripSet : t.fu.tripSet = s.fu.tripSet
  record : t.sp.record = s.sp.record
  mode : t.os.mode = s.os.mode
  target : t.pu.target = s.pu.target

theorem SameBasis.rfl' : SameBasis s s := ⟨rfl, rfl, rfl, fun _ => rfl, rfl, rfl, rfl, rfl⟩

theorem SameBasis.trans (h : SameBasis a b) (k : SameBasis b t) : SameBasis a t :=
  ⟨k.isMember.trans h.isMember, k.mayHaveTarget.trans h.mayHaveTarget, k.entries.trans h.entries,
   fun i => (k.latched i).trans (h.latched i), k.tripSet.trans h.tripSet, k.record.trans h.record,
   k.mode.trans h.mode, k.target.trans h.target⟩

/-- The chosen mode reads the station state, the roster, the latches, the trip set and the record (R136). -/
theorem chosenMode_congr (h1 : t.isMember = s.isMember) (h2 : t.rt.entries = s.rt.entries)
    (h3 : ∀ i, (t.inputRecord i).latched = (s.inputRecord i).latched) (h4 : t.fu.tripSet = s.fu.tripSet)
    (h5 : t.sp.record = s.sp.record) : t.chosenMode = s.chosenMode := by
  simp only [chosenMode, ownKind, offLatched, clampLatched, ownEntry, entry, ownId, input, h1, h2, h3, h4, h5]
  rfl

/-- The target reads the station state, the roster and the record (R123). -/
theorem targetNow_congr (h1 : t.mayHaveTarget = s.mayHaveTarget) (h2 : t.rt.entries = s.rt.entries)
    (h3 : t.sp.record = s.sp.record) : t.targetNow = s.targetNow := by
  simp only [targetNow, ownId, period, h1, h2, h3]

/-- A state that agrees with a settled one in all that is settled. -/
theorem Settled.congr (h : s.Settled) (k : SameBasis s t) : t.Settled := by
  unfold Settled
  rw [chosenMode_congr k.isMember k.entries k.latched k.tripSet k.record,
    targetNow_congr k.mayHaveTarget k.entries k.record, k.mode, k.target]
  exact h

@[simp] theorem reachTest_os : s.reachTest.os = s.os := by
  unfold reachTest
  repeat' split
  all_goals first
    | rfl
    | (unfold doIf; split <;> rfl)

@[simp] theorem retargetTo_os (n : Nat) : (s.retargetTo n).os = s.os := by
  unfold retargetTo
  split
  · unfold doIf; split <;> rfl
  · rfl

@[simp] theorem retargetTo_target (n : Nat) : (s.retargetTo n).pu.target = some n := by
  unfold retargetTo
  split
  · unfold doIf; split <;> rfl
  · rfl

/-- What the choice of a target leaves as it is. -/
structure SamePlan (s t : State) : Prop where
  sc : t.sc = s.sc
  tb : t.tb = s.tb
  bi : t.bi = s.bi
  rt : t.rt = s.rt
  cq : t.cq = s.cq
  fu : t.fu = s.fu
  record : t.sp.record = s.sp.record
  tickets : t.sp.tickets = s.sp.tickets
  response : t.sp.response = s.sp.response

theorem SamePlan.rfl' : SamePlan s s := ⟨rfl, rfl, rfl, rfl, rfl, rfl, rfl, rfl, rfl⟩

theorem SamePlan.trans (h : SamePlan a b) (k : SamePlan b t) : SamePlan a t :=
  ⟨k.sc.trans h.sc, k.tb.trans h.tb, k.bi.trans h.bi, k.rt.trans h.rt, k.cq.trans h.cq, k.fu.trans h.fu,
   k.record.trans h.record, k.tickets.trans h.tickets, k.response.trans h.response⟩

theorem SamePlan.isMember (h : SamePlan s t) : t.isMember = s.isMember := by
  simp only [State.isMember, h.sc]

theorem SamePlan.mayHaveTarget (h : SamePlan s t) : t.mayHaveTarget = s.mayHaveTarget := by
  simp only [State.mayHaveTarget, State.isMember, State.isFollower, h.sc]

theorem SamePlan.latched (h : SamePlan s t) (i : InputNo) :
    (t.inputRecord i).latched = (s.inputRecord i).latched := by
  cases i <;> simp only [State.inputRecord, h.fu]

theorem samePlan_remode : SamePlan s s.remode := by
  unfold remode
  split
  · exact ⟨rfl, rfl, rfl, rfl, rfl, rfl, rfl, rfl, rfl⟩
  · exact SamePlan.rfl'

theorem samePlan_jumpTo (n : Nat) : SamePlan s (s.jumpTo n) := ⟨rfl, rfl, rfl, rfl, rfl, rfl, rfl, rfl, rfl⟩

theorem samePlan_retargetTo (n : Nat) : SamePlan s (s.retargetTo n) := by
  unfold retargetTo
  split
  · unfold doIf; split <;> exact ⟨rfl, rfl, rfl, rfl, rfl, rfl, rfl, rfl, rfl⟩
  · exact ⟨rfl, rfl, rfl, rfl, rfl, rfl, rfl, rfl, rfl⟩

theorem samePlan_recomputeTarget : SamePlan s s.recomputeTarget := by
  unfold recomputeTarget
  repeat' split
  · exact SamePlan.rfl'
  · exact ⟨rfl, rfl, rfl, rfl, rfl, rfl, rfl, rfl, rfl⟩
  · exact samePlan_retargetTo _
  · exact samePlan_jumpTo _

/-- `settle` touches the Output Stage, the Placement Unit and the event set alone. -/
theorem samePlan_settle : SamePlan s s.settle := samePlan_remode.trans samePlan_recomputeTarget

theorem recomputeTarget_mode : s.recomputeTarget.os.mode = s.os.mode := by
  unfold recomputeTarget
  repeat' split
  · rfl
  · rfl
  · rw [retargetTo_os]
  · rfl

theorem recomputeTarget_target : s.recomputeTarget.pu.target = s.targetNow := by
  unfold recomputeTarget
  split
  next h => exact h.symm
  next =>
    split
    next h => rw [h]; rfl
    next n h =>
      split
      · rw [retargetTo_target, h]
      · rw [h]; rfl

theorem remode_mode (h : s.chosenMode ≠ .run) : s.remode.os.mode = s.chosenMode := by
  unfold remode
  by_cases hm : s.chosenMode = s.os.mode
  · simp [hm]
  · simp [h, hm, regate, OutputStage.regate]

/-- After `settle` the mode and the target are those the rules derive. -/
theorem settle_settled (s : State) : s.settle.Settled := by
  have k := samePlan_settle (s := s)
  have k₁ := samePlan_remode (s := s)
  refine ⟨fun h => ?_, ?_⟩
  · rw [chosenMode_congr k.isMember (congrArg _ k.rt) k.latched (congrArg _ k.fu) k.record] at h ⊢
    rw [settle, recomputeTarget_mode, remode_mode h]
  · rw [targetNow_congr k.mayHaveTarget (congrArg _ k.rt) k.record, settle, recomputeTarget_target]
    exact (targetNow_congr k₁.mayHaveTarget (congrArg _ k₁.rt) k₁.record).symm

/-- A settled state stays as it is. -/
theorem Settled.settle_eq (h : s.Settled) : s.settle = s := by
  have h1 : s.remode = s := by
    unfold remode
    by_cases hr : s.chosenMode = .run
    · simp [hr]
    · simp [h.1 hr]
  rw [settle, h1, recomputeTarget, if_pos h.2]

end Sys2Proof.Machine.State
end

