-- ==== Sys2Proof/Laws/Settled.lean ====
section
/-! SUPPORT. Which operations leave the chosen mode and the target as they were, and which end in a settled state
(Safety.lean). -/

namespace Sys2Proof.Machine.State

variable {c : Bool} {a b s t : State}

/-! ### Operations that touch no basis of the mode and the target -/

theorem basis_doIf {f : State → State} (h : SameBasis a b) (hf : SameBasis a (f b)) : SameBasis a (b.doIf c f) := by
  cases c
  · exact h
  · exact hf

theorem basis_foldl {α : Type} {f : State → α → State} (hf : ∀ b x, SameBasis b (f b x)) (l : List α)
    (h : SameBasis a b) : SameBasis a (l.foldl f b) := by
  induction l generalizing b with
  | nil => exact h
  | cons x xs ih => exact ih (h.trans (hf b x))

theorem basis_modTb {g : TimeBase → TimeBase} (h : SameBasis a b) : SameBasis a (b.modTb g) :=
  h.trans ⟨rfl, rfl, rfl, fun _ => rfl, rfl, rfl, rfl, rfl⟩

theorem basis_modBi {g : BusInterface → BusInterface} (h : SameBasis a b) : SameBasis a (b.modBi g) :=
  h.trans ⟨rfl, rfl, rfl, fun _ => rfl, rfl, rfl, rfl, rfl⟩

theorem basis_modCq {g : CommitQueue → CommitQueue} (h : SameBasis a b) : SameBasis a (b.modCq g) :=
  h.trans ⟨rfl, rfl, rfl, fun _ => rfl, rfl, rfl, rfl, rfl⟩

theorem basis_modRt {g : RosterTable → RosterTable} (h : SameBasis a b) (hg : (g b.rt).entries = b.rt.entries) :
    SameBasis a (b.modRt g) := h.trans ⟨rfl, rfl, hg, fun _ => rfl, rfl, rfl, rfl, rfl⟩

theorem basis_modSc {g : StationController → StationController} (h : SameBasis a b)
    (hg : (g b.sc).station = b.sc.station) : SameBasis a (b.modSc g) :=
  h.trans
    { isMember := by simp [isMember, hg]
      mayHaveTarget := by simp [mayHaveTarget, isMember, isFollower, hg]
      entries := rfl, latched := fun _ => rfl, tripSet := rfl, record := rfl, mode := rfl, target := rfl }

theorem basis_modSp {g : SetupPort → SetupPort} (h : SameBasis a b) (hg : (g b.sp).record = b.sp.record) :
    SameBasis a (b.modSp g) := h.trans ⟨rfl, rfl, rfl, fun _ => rfl, rfl, hg, rfl, rfl⟩

theorem basis_modOs {g : OutputStage → OutputStage} (h : SameBasis a b) (hg : (g b.os).mode = b.os.mode) :
    SameBasis a (b.modOs g) := h.trans ⟨rfl, rfl, rfl, fun _ => rfl, rfl, rfl, hg, rfl⟩

theorem basis_modFu {g : FaultUnit → FaultUnit} (h : SameBasis a b) (h0 : (g b.fu).flt0.latched = b.fu.flt0.latched)
    (h1 : (g b.fu).flt1.latched = b.fu.flt1.latched) (h2 : (g b.fu).flt2.latched = b.fu.flt2.latched)
    (h3 : (g b.fu).tripSet = b.fu.tripSet) : SameBasis a (b.modFu g) :=
  h.trans ⟨rfl, rfl, rfl, fun i => by cases i <;> assumption, h3, rfl, rfl, rfl⟩

theorem basis_raise {e : Event} (h : SameBasis a b) : SameBasis a (b.raise e) := basis_modSp h rfl

theorem basis_respond {st : Status} {data : List Byte} (h : SameBasis a b) : SameBasis a (b.respond st data) :=
  basis_modSp h rfl

theorem basis_modInput {i : InputNo} {f : InputRecord → InputRecord} (h : SameBasis a b)
    (hf : ∀ r, (f r).latched = r.latched) : SameBasis a (b.modInput i f) :=
  basis_modFu h (by cases i <;> simp [hf]) (by cases i <;> simp [hf]) (by cases i <;> simp [hf]) (by cases i <;> rfl)

theorem basis_updateTickets {hit : Ticket → Bool} {f : Ticket → Ticket} (h : SameBasis a b) :
    SameBasis a (b.updateTickets hit f) := basis_doIf (basis_modSp h rfl) (basis_raise (basis_modSp h rfl))

theorem basis_reportTicket {n : Byte} {d : ProposalContent} {f : Ticket → Ticket} (h : SameBasis a b) :
    SameBasis a (b.reportTicket n d f) := basis_updateTickets h

theorem basis_issueTicket {n : Byte} {k : TicketKind} {r : Bool} (h : SameBasis a b) :
    SameBasis a (b.issueTicket n k r) := basis_modSp h rfl

theorem basis_setQueue {q : List QueuedFrame} (h : SameBasis a b) : SameBasis a (b.setQueue q) :=
  h.trans ⟨rfl, rfl, rfl, fun i => by cases i <;> rfl, rfl, rfl, rfl, rfl⟩

theorem basis_dropFrames {test : QueuedFrame → Bool} (h : SameBasis a b) : SameBasis a (b.dropFrames test) :=
  basis_doIf (basis_setQueue h) (basis_modBi (basis_setQueue h))

theorem basis_dropBodies {test : QueuedBody → Bool} (h : SameBasis a b) : SameBasis a (b.dropBodies test) :=
  basis_dropFrames h

theorem basis_offer {body : QueuedBody} (h : SameBasis a b) (ho : b.offer body = some t) : SameBasis a t := by
  unfold offer at ho
  split at ho
  · rw [← Option.some.inj ho]; exact basis_setQueue h
  · cases ho

theorem basis_offerPropose {d : ProposalContent} (h : SameBasis a b) (ho : b.offerPropose d = some t) :
    SameBasis a t := by
  obtain ⟨u, hu, rfl⟩ := Option.map_eq_some_iff.mp ho
  exact basis_modCq (basis_offer h hu)

theorem basis_emptyTripSlot (h : SameBasis a b) : SameBasis a b.emptyTripSlot := basis_modBi h

theorem basis_stopDrive (h : SameBasis a b) : SameBasis a b.stopDrive := basis_modTb h

theorem basis_enterHoldover (h : SameBasis a b) : SameBasis a b.enterHoldover := by
  unfold enterHoldover
  split
  · exact h
  · exact basis_doIf (basis_raise (basis_modTb h)) (basis_dropBodies (basis_raise (basis_modTb h)))

theorem basis_landAttempt {n : Nat} (h : SameBasis a b) : SameBasis a (b.landAttempt n) := basis_modBi h

theorem basis_noteAcceptance (h : SameBasis a b) : SameBasis a b.noteAcceptance := basis_doIf h (basis_modSc h rfl)

/-- A move from MEMBER to LEAVING changes neither the chosen mode nor the target. -/
theorem basis_becomeLeaving {n : Byte} (h : SameBasis a b) (hm : b.sc.station = .member) :
    SameBasis a (b.becomeLeaving n) := by
  refine h.trans (basis_modSc ?_ rfl)
  unfold moveTo
  have k₁ : SameBasis b ((((b.modSc fun sc => { sc with station := .leaving, withdrawOwed := false }).raise
      .state)).modRt fun rt => { rt with heardGroup := none
                                         expectedKey := if b.sc.station = .resync then none else rt.expectedKey }) :=
    { isMember := by simp [isMember, hm]
      mayHaveTarget := by simp [mayHaveTarget, isMember, hm]
      entries := rfl, latched := fun _ => rfl, tripSet := rfl, record := rfl, mode := rfl, target := rfl }
  refine basis_doIf ?_ (basis_modTb (basis_stopDrive ?_)) <;>
  exact basis_doIf (basis_doIf (basis_doIf k₁ (basis_modBi (basis_modRt (basis_modCq (basis_emptyTripSlot k₁)) rfl)))
    (basis_updateTickets (basis_doIf k₁ (basis_modBi (basis_modRt (basis_modCq (basis_emptyTripSlot k₁)) rfl)))))
    (basis_dropBodies (basis_doIf (basis_doIf k₁ (basis_modBi (basis_modRt (basis_modCq (basis_emptyTripSlot k₁)) rfl)))
      (basis_updateTickets (basis_doIf k₁ (basis_modBi (basis_modRt (basis_modCq (basis_emptyTripSlot k₁)) rfl))))))

/-! ### Operations that end settled -/

theorem settled_enterDormant : s.enterDormant.Settled := settle_settled _

theorem settled_enterHalted (r : Reason) : (s.enterHalted r).Settled := settle_settled _

theorem settled_discardCopy : s.discardCopy.Settled := settle_settled _

theorem settled_listenWithCopy : s.listenWithCopy.Settled := settle_settled _

theorem settled_returnToMember : s.returnToMember.Settled := settle_settled _

theorem settled_isolate (r : Reason) (h : s.Settled) : (s.isolate r).Settled := by
  unfold isolate doIf
  split
  · exact settle_settled _
  · exact h

theorem settled_joinMissed : s.joinMissed.Settled := by
  simp only [joinMissed]
  split <;> exact settle_settled _

theorem settled_missedFrame (h : s.Settled) : s.missedFrame.Settled := by
  unfold missedFrame
  split
  · exact settled_joinMissed
  · exact settle_settled _
  · exact settle_settled _
  · exact h

theorem settled_trackedLost (h : s.Settled) : s.trackedLost.Settled := by
  unfold trackedLost joinFailed
  split
  · split <;> exact settle_settled _
  · exact settle_settled _
  · exact h

theorem settled_doIf {f : State → State} (h : s.Settled) (hf : (f s).Settled) : (s.doIf c f).Settled := by
  cases c
  · exact h
  · exact hf

theorem settled_actOnEnd (q : QueuedBody) (h : s.Settled) : (s.actOnEnd q).Settled := by
  unfold actOnEnd
  split
  · dsimp only
    repeat' split
    · exact settle_settled _
    · exact settled_doIf (h.congr (basis_reportTicket (basis_dropBodies SameBasis.rfl'))) (settle_settled _)
    · exact h
  · exact h

theorem settled_abandonFrame (q : QueuedBody) (h : s.Settled) : (s.abandonFrame q).Settled := by
  have k₁ : (((s.dropFrames (·.inFlight)).raise .txAbandoned).modBi fun bi =>
      { bi with attempt := none, abandonCount := s.bi.abandonCount + 1 }).Settled :=
    h.congr (basis_modBi (basis_raise (basis_dropFrames SameBasis.rfl')))
  simp only [abandonFrame]
  split
  next seq d =>
    have k₂ := k₁.congr (basis_reportTicket (n := seq) (d := d) (f := Ticket.finish .abandoned) SameBasis.rfl')
    split
    · exact settled_isolate _ k₂
    · exact settled_doIf k₂ (settled_trackedLost k₂)
  · exact settled_doIf k₁ (settled_isolate _ k₁)

theorem settled_rejectAttempt (h : s.Settled) : s.rejectAttempt.Settled := by
  unfold rejectAttempt
  repeat' split
  · exact h
  next a' _ _ x _ =>
    unfold rejectQueued
    dsimp only
    generalize (if a'.beatReplaced then 0 else x.attempts + 1) = n
    split
    · exact settled_actOnEnd _ (h.congr (basis_landAttempt SameBasis.rfl'))
    · exact settled_abandonFrame _ h
  · exact h.congr (basis_modBi SameBasis.rfl')

theorem settled_loseAttempt (h : s.Settled) : s.loseAttempt.Settled := by
  unfold loseAttempt
  repeat' split
  · exact h
  · exact settled_actOnEnd _ (h.congr (basis_landAttempt SameBasis.rfl'))
  · exact h.congr (basis_landAttempt SameBasis.rfl')

theorem settled_countReject (h : s.Settled) : s.countReject.Settled :=
  settled_doIf (h.congr (basis_modBi SameBasis.rfl')) (settled_isolate _ (h.congr (basis_modBi SameBasis.rfl')))

/-- A local cycle start keeps a settled state settled (R138). -/
theorem settled_cycleStart (e : Bool) (h : s.Settled) : (s.cycleStart e).Settled := by
  have hp : ∀ u : State, u.reachTest.pu.target = u.pu.target := fun u => by
    unfold reachTest
    repeat' split
    · rfl
    · unfold doIf; split <;> rfl
    · rfl
  have hr : ∀ u : State, SameBasis u u.reachTest := fun u => by
    unfold reachTest
    repeat' split
    all_goals first
      | exact ⟨rfl, rfl, rfl, fun _ => rfl, rfl, rfl, rfl, rfl⟩
      | (unfold doIf; split <;> exact ⟨rfl, rfl, rfl, fun _ => rfl, rfl, rfl, rfl, rfl⟩)
  have k₁ : SameBasis s s.placeCycle.latchCompare := by
    refine SameBasis.trans (b := s.placeCycle) ?_ ⟨rfl, rfl, rfl, fun _ => rfl, rfl, rfl, rfl, rfl⟩
    unfold placeCycle
    refine SameBasis.trans (b := (s.modPu fun pu => { pu with offset := s.endOffset }).reachTest) ?_
      ⟨rfl, rfl, rfl, fun _ => rfl, rfl, rfl, rfl, rfl⟩
    exact SameBasis.trans (b := s.modPu fun pu => { pu with offset := s.endOffset })
      ⟨rfl, rfl, rfl, fun _ => rfl, rfl, rfl, rfl, rfl⟩ (hr _)
  have h₁ := h.congr k₁
  unfold cycleStart regate
  generalize s.placeCycle.latchCompare = u at k₁ h₁
  have h₂ : u.enterRun.Settled := by
    unfold enterRun
    split
    next hc =>
      refine ⟨fun hn => ?_, h₁.2⟩
      exact absurd hc (by rwa [chosenMode_congr (t := u.modOs _) (s := u) rfl rfl (fun _ => rfl) rfl rfl] at hn)
    next => exact h₁
  have h₃ : SameBasis u.enterRun u.enterRun.clampEvent := by
    unfold clampEvent
    repeat' split
    all_goals exact ⟨rfl, rfl, rfl, fun _ => rfl, rfl, rfl, rfl, rfl⟩
  exact (h₂.congr h₃).congr (basis_modOs (basis_modOs SameBasis.rfl' rfl) rfl)

end Sys2Proof.Machine.State
end

