-- ==== Sys2Proof/Tests/Slice0.lean ====
section
/-! SUPPORT. Small tests: ill-formed terms that the check refuses, byte layouts written out from chapter 10, one step on
small states, and for each statement concrete states and operands that meet its hypotheses. -/

namespace Sys2Proof.Tests
open Sys2Proof Sys2Proof.Machine Sys2Proof.Machine.State

/-! ### Well-formedness: one ill-formed term for each check, and its well-formed neighbour -/

theorem test_wf_unknownCommand : (Instr.unknownCommand 0x10).wf = false ∧ (Instr.unknownCommand 0x14).wf = true := by
  decide

theorem test_wf_unownedFrame : (Instr.unownedFrameAccepted 3 ⟨1, 0x2, 10⟩).wf = false
    ∧ (Instr.unownedFrameAccepted 3 ⟨1, 0x1, 21⟩).wf = false ∧ (Instr.unownedFrameAccepted 3 ⟨1, 0x1, 20⟩).wf = true := by
  decide

theorem test_wf_frameDiscarded : (Instr.frameDiscarded false true).wf = false
    ∧ (Instr.frameDiscarded true true).wf = true := by decide

/-! ### Layouts of chapter 10 -/

theorem test_decode_commands : decodeCommand 0x20 [0xAF, 0xC8] = .submitDemand 45000
    ∧ decodeCommand 0x30 [0x01, 0x00, 0x02] = .clearEvents 0x010002 ∧ decodeCommand 0x11 [] = .start
    ∧ decodeCommand 0x55 [] = .unknownCommand 0x55 := by decide

theorem test_decode_frames :
    decodeFrame 3 ⟨1, 0x2, 10⟩ [0x03, 0xE8, 0xC2, 0x05, 0x01, 0x04, 0x12, 0x34, 0x00, 0x07]
      = .beatAccepted 3 ⟨1000, true, true, 2, true, false, true, 1, 4, 0x1234, 7⟩
    ∧ decodeFrame 3 ⟨3, 0x6, 7⟩ [0x25, 0x1E, 0x03, 0xEB, 0x02, 0x00, 0x00]
      = .proposeAccepted 3 ⟨2, 5, 30, 1003, 0x020000⟩
    ∧ decodeFrame 3 ⟨2, 0x5, 3⟩ [0x06, 0x1E, 0x02] = .objectAccepted 3 ⟨6, 30, 2⟩
    ∧ decodeFrame 3 ⟨0, 0x9, 3⟩ [0x01, 0x03, 0xE8] = .tripAccepted 3 ⟨1, 1000⟩
    ∧ decodeFrame 3 ⟨5, 0xC, 0⟩ [] = .rosterQueryAccepted 3
    ∧ decodeFrame 3 ⟨1, 0x5, 3⟩ [0x06, 0x1E, 0x02] = .unownedFrameAccepted 3 ⟨1, 0x5, 3⟩
    ∧ headerOfBytes 0x26 0x4A = (3, ⟨1, 0x2, 10⟩) := by decide

/-! ### Small states -/

/-- A station in a given state, right after START as far as the record goes. -/
def inState (st : StationState) : State :=
  { State.reset with
    sc := { StationController.reset with station := st }
    sp := { SetupPort.reset with locked := true } }

/-- An entry of a roster. -/
def present (state : EntryState) : RosterEntry := { RosterEntry.absentEntry with state := state, admittedAt := some 0 }

/-- A roster with one peer beside the own entry, which is ACTIVE. -/
def rosterWith (peer : StationId) (state : EntryState) : List RosterEntry :=
  ((List.replicate 16 RosterEntry.absentEntry).set 0 (present .active)).set peer.val (present state)

/-- A member with a peer 3, its target the one the roster gives. -/
def memberState : State :=
  { inState .member with
    rt := { RosterTable.reset with entries := rosterWith 3 .active, copySource := .own, armed := true }
    tb := { TimeBase.reset with state := .locked, b := 100 }
    pu := { PlacementUnit.reset with target := some 0 } }

/-- A follower in LISTEN with an adopted copy of two stations, neither its own. -/
def followerState : State :=
  { inState .listen with
    sc := { StationController.reset with station := .listen, standing := .held }
    tb := { TimeBase.reset with enAdopted := true }
    rt := { RosterTable.reset with
      entries := (List.replicate 16 RosterEntry.absentEntry).set 3 (present .active), copySource := .reply
      armed := true } }

/-- A queued frame that has had no attempt. -/
def queued (b : QueuedBody) : QueuedFrame := { body := b, attempts := 0, inFlight := false }

/-- The state with these frames in the transmit queue. -/
def withQueue (q : List QueuedFrame) (s : State) : State := { s with bi := { s.bi with queue := q } }

/-- The state with an attempt of its first frame in flight. -/
def sending (x : QueuedFrame) (s : State) : State :=
  { s with bi := { s.bi with
      queue := [{ x with inFlight := true }]
      attempt := some { frame := .rosterQueryAccepted 0, bits := [], beatReplaced := false, age := 0 } } }

/-- A ticket in a given state. -/
def ticket (n : Byte) (st : TicketState) : Ticket :=
  { number := n, kind := .demand 1, state := st, f := none, withdrawRequest := false, withdrawQueued := false
    reserved := false }

/-- The state with these tickets. -/
def withTickets (l : List Ticket) (s : State) : State := { s with sp := { s.sp with tickets := l } }

/-- The state with this entry alone in the Commit Queue. -/
def withEntry (e : QueueEntry) (s : State) : State := { s with cq := { s.cq with entries := [e] } }

/-- The own ADMIT in a phase. -/
def admitEntry (phase : Phase) : QueueEntry :=
  { id := ⟨0, 7⟩, content := .admission defaultFingerprint .phase, f := 3, phase := phase, isLocal := true }

/-- A BEAT flagged MEMBER. -/
def beat (low count : Byte) (digest : Word) : BeatFields := ⟨0, false, false, 0, false, false, false, low, count, digest, 0⟩

/-- The default record with the settings of FLT0 replaced: class byte and mode byte. -/
def recordWith (cls mode : Byte) : SetupRecord :=
  0x00000103_07D0_0050_0020_0014_0028_F332_0010_0008_03_04_00_03#192 ++ cls ++ mode ++ 0x030000_030000#48

/-- The state with that record. -/
def withRecord (r : SetupRecord) (s : State) : State := { s with sp := { s.sp with record := r } }

/-- The state with the record of FLT0 replaced. -/
def withFlt0 (active latched armed : Bool) (s : State) : State :=
  { s with fu := { s.fu with flt0 := ⟨active, 0, latched, armed, 0⟩ } }

/-- The state with the edge count at position `n` of the epoch. -/
def withEdgeAt (n : Nat) (st : TbState) (window : Nat) (s : State) : State :=
  { s with tb := { s.tb with b := (n + 2) % 2000, k := (n + 2) / 2000 % 80, state := st, inWindow := window } }

/-- The state with an attempt of the first frame in flight for the TRIP slot, the queue untouched. -/
def sendingTrip (s : State) : State :=
  { s with bi := { s.bi with
      tripSlot := some ⟨⟨0, 0⟩, 3, true⟩
      attempt := some { frame := .tripAccepted 0 ⟨0, 0⟩, bits := [], beatReplaced := false, age := 0 } } }

/-- A station that tracks its proposal 7, with or without the leave-pending flag. -/
def tracking (st : StationState) (leave : Bool) (s : State) : State :=
  { s with sc := { s.sc with station := st, leavePending := leave, tracked := some ⟨0, 7⟩ } }

/-- The state with this frame in flight, the contents of a BEAT replaced or not, and the queue as it is. -/
def sent (c : Instr) (replaced : Bool) (s : State) : State :=
  { s with bi := { s.bi with
      attempt := some { frame := c, bits := [], beatReplaced := replaced, age := 0 } } }

/-- A ticket of the own REMOVE(LEFT) under number 7. -/
def leaveTicket (request : Bool) : Ticket := ⟨7, .remove, .waiting, none, request, false, false⟩

/-- The roster of `memberState` with another own entry. -/
def withOwn (e : EntryState) (s : State) : State :=
  { s with rt := { s.rt with entries := s.rt.entries.set 0 (present e) } }

theorem inFlight {s : State} {i : StationId} {c : Instr} {a : Attempt} (h : i = s.ownId) (h' : s.bi.attempt = some a)
    (h'' : sameKind a.frame c = true) : s.InFlight i c := ⟨h, a, h', h''⟩

theorem notSending {s : State} (h : s.bi.attempt = none) (h' : s.bi.rx = none) : s.NotSending :=
  ⟨h, fun _ hx => absurd (h'.symm.trans hx) (by simp)⟩

/-! ### One step -/

/-- NRST held low: a device reset, whatever waits. -/
theorem test_step_reset : step { memberState with pins := { Pins.idle with nrst := false } }
    = .next { State.reset with pins := { Pins.idle with nrst := false } } := by rfl

set_option maxRecDepth 10000 in
/-- START at the defaults leads to LISTEN with a busy line. -/
theorem test_step_start : ∃ t, step { State.reset with pending := [.start] } = .next t ∧ t.sc.station = .listen
    ∧ t.bi.line = .busy ∧ t.sp.fingerprint = defaultFingerprint := ⟨_, rfl, by decide, by decide, by decide⟩

/-- With DT 0 in place of 20 the requested gate is active in the first count of the cycle. -/
theorem test_deadtime : (OutputStage.regate 20 { OutputStage.reset with mode := .run, cmp := 5, inactiveRun := 19 }).gh = false
    ∧ (OutputStage.regate 20 { OutputStage.reset with mode := .run, cmp := 5, inactiveRun := 20 }).gh = true
    ∧ (OutputStage.regate 0 { OutputStage.reset with mode := .run, cmp := 5, inactiveRun := 0 }).gh = true := by decide

/-- The line is IDLE with the eleventh recessive sample, the first of the delimiter counted (R45). -/
theorem test_idle_run : ({ memberState with bi := { BusInterface.reset with
      line := .busy, recessiveRun := 5, rx := some { RxContext.fresh with slotAge := some memberState.bitTime } } }
      : State).busSlot.bi.recessiveRun = 1
    ∧ ({ memberState with bi := { BusInterface.reset with line := .stuck } } : State).lineStuckRelease.bi.recessiveRun = 1 := by
  decide

set_option maxRecDepth 10000 in
/-- A target that stays absent leaves an unslewed cycle untouched (R123). -/
theorem test_absent_target :
    let s := { inState .listen with os := { OutputStage.reset with p := 5 } }
    s.adoptTarget = s := by decide

set_option maxRecDepth 10000 in
/-- An own start bit makes the line BUSY when it falls on SBD, and one that joins falls on a start bit that is there (R45). -/
theorem test_own_start_bit :
    let s := { inState .listen with
      bi := { BusInterface.reset with queue := [queued .query] }, tb := { TimeBase.reset with k := 1 } }
    (s.transmissionAttempt false).bi.attempt.isSome = true ∧ (s.transmissionAttempt false).bi.line = .idle
    ∧ (s.transmissionAttempt true).bi.attempt.isSome = true ∧ (s.transmissionAttempt true).bi.line = .busy := by decide

set_option maxRecDepth 10000 in
/-- A station that enters MEMBER with an input of class SHED latched proposes its shed at once (R165, R168). -/
theorem test_shed_at_the_entry :
    let s := withFlt0 false true false (withRecord (recordWith 2 0x00) (tracking .leaving false memberState))
    s.returnToMember.sc.station = .member ∧ s.returnToMember.bi.queue = [queued (.propose 0 .shed)] := by decide

/-! ### Hypotheses that are met -/

theorem test_met_StepRunsTheFrontCommand : ({ State.reset with pending := [Instr.start, .stop] } : State).pending = .start :: [.stop]
    ∧ State.reset.pending = [] := by decide

theorem test_met_SetupRecordCommands : (inState .listen).sp.locked = true ∧ State.reset.sp.locked = false := by decide

set_option maxRecDepth 10000 in
theorem test_met_SnapshotCommands :
    let v := (withEntry (admitEntry .firm) memberState).takeSnapshot
    v.cq.entries.length ≤ 8 ∧ v.cq.entries[0]? = some (admitEntry .firm) ∧ v.sc.station = .member ∧ v.sc.reason = .none
    ∧ v.tb.state = .locked ∧ v.os.mode = .off ∧ v.fu.lastTrip = none
    ∧ ({ FaultUnit.reset with lastTrip := some ⟨3, 1, 5, 6⟩ } : FaultUnit).lastTrip = some ⟨3, 1, 5, 6⟩
    ∧ (v.rt.entries.getD 3 RosterEntry.absentEntry).lastBeat = none := by
  decide

theorem test_met_EventCommands : (0x000001#24).getLsbD Event.state.index = true
    ∧ (0x010000#24).getLsbD Event.portAbort.index = true ∧ Pins.idle.nrst = true := by decide

theorem test_met_AbortedAndUnknownCommands :
    (∃ (x : Transaction) (s : State), s.sp.scsWas = false ∧ s.pins.scs = true ∧ s.sp.transaction = some x
      ∧ x.evaluated = false ∧ x.received ≠ [])
    ∧ (∃ (x : Transaction) (s : State), s.sp.scsWas = false ∧ s.pins.scs = true ∧ s.sp.transaction = some x
      ∧ x.received = [])
    ∧ commandArgs 0x00 = none ∧ commandArgs 0xFF = none :=
  ⟨⟨⟨[true], false, [], false⟩,
      { State.reset with sp := { SetupPort.reset with scsWas := false, transaction := some ⟨[true], false, [], false⟩ } },
      by decide⟩,
    ⟨⟨[], false, [], false⟩,
      { State.reset with sp := { SetupPort.reset with scsWas := false, transaction := some ⟨[], false, [], false⟩ } },
      by decide⟩, by decide, by decide⟩

/-- A record with ID 16, and the default record. -/
theorem test_met_StartChecks : State.reset.sc.station = .setup ∧ ¬ startCheck ((0x10 : SetupRecord) <<< 248) 1
    ∧ (∀ m < 1, startCheck ((0x10 : SetupRecord) <<< 248) m) ∧ startValid defaultRecord := by
  refine ⟨rfl, ?_, ?_, ?_⟩
  · show ¬ recordNat ((0x10 : SetupRecord) <<< 248) 0 ≤ 15
    decide
  · intro m hm
    obtain rfl : m = 0 := by omega
    trivial
  · intro n
    unfold startCheck
    split <;> trivial

/-- The default record as an OBSERVER with action LOW_CLAMP on FLT0: it fails check 15 alone. -/
def observerRecord : SetupRecord := 0x00010103_07D0_0050_0020_0014_0028_F332_0010_0008_03_04_00_030001_030000_030000#256

theorem test_met_last_check : ¬ startCheck observerRecord 15 ∧ ∀ m < 15, startCheck observerRecord m := by
  refine ⟨?_, fun m hm => ?_⟩
  · show ¬ (recordNat observerRecord 1 = 1 →
      ∀ b ∈ [23, 26, 29], recordNat observerRecord (b + 1) ≠ 2 ∧ recordNat observerRecord (b + 2) % 4 ≠ 1)
    decide
  · unfold startCheck
    split <;> trivial

theorem test_met_StartElsewhere : (inState .dormant).sc.station = .dormant ∧ (inState .member).sc.station ≠ .setup
    ∧ (inState .member).sc.station ≠ .dormant := by decide

theorem test_met_StopOutsideTheGroup : (inState .leaving).sc.station ∈ [StationState.setup, .dormant, .isolated, .halted, .leaving]
    ∧ (inState .resync).sc.station ∈ [StationState.listen, .resync] := by decide

theorem test_met_StopInMember :
    let full := withQueue (List.replicate 6 (queued .query)) memberState
    let busy := withTickets (List.replicate 4 (ticket 9 .firm)) memberState
    (full.sc.station = .member ∧ full.reservedTicket = none ∧ 6 ≤ full.bi.queue.length)
    ∧ (busy.reservedTicket = none ∧ busy.bi.queue.length < 6 ∧ busy.canIssueTicket = false)
    ∧ (memberState.reservedTicket = none ∧ memberState.bi.queue.length < 6 ∧ memberState.canIssueTicket = true) := by
  decide

/-- A pending leave without a reserved ticket, with and without a ticket to issue, and one with a reserved ticket. -/
theorem test_met_leave :
    let leaving := { memberState with sc := { memberState.sc with leavePending := true } }
    let busy := withTickets (List.replicate 4 (ticket 9 .firm)) leaving
    let reserved := { ticket 6 .waiting with kind := .remove, reserved := true }
    leaving.sc.station = .member ∧ leaving.sc.leavePending = true ∧ leaving.bi.queue.length < 6
    ∧ leaving.reservedTicket = none ∧ leaving.canIssueTicket = true
    ∧ busy.reservedTicket = none ∧ busy.canIssueTicket = false ∧ busy.bi.queue.length < 6
    ∧ (withTickets [reserved] leaving).reservedTicket = some reserved ∧ memberState.sc.leavePending = false
    ∧ 6 ≤ (withQueue (List.replicate 6 (queued .query)) leaving).bi.queue.length := by decide

set_option maxRecDepth 10000 in
theorem test_met_StopInJoining :
    let joining := tracking .joining false (inState .joining)
    let admission := queued (.propose 7 (.admission 0 .phase))
    let flying := { admission with inFlight := true }
    let opened := withEntry (admitEntry .openPhase) joining
    let crowded := withQueue (List.replicate 6 (queued (.object ⟨0, 7⟩ .withdrawn))) opened
    let asked := withQueue (List.replicate 5 (queued (.object ⟨0, 7⟩ .withdrawn))) opened
    let made := withEntry (admitEntry .firm) joining
    let noTicket := withTickets (List.replicate 4 (ticket 9 .firm)) made
    (withQueue [admission] joining).waitingAdmit = some admission ∧ (withQueue [flying] joining).waitingAdmit = some flying
    ∧ opened.waitingAdmit = none ∧ opened.ownAdmit = some (admitEntry .openPhase) ∧ opened.withdrawalQueued ⟨0, 7⟩ = false
    ∧ opened.bi.queue.length < 6 ∧ crowded.waitingAdmit = none ∧ 6 ≤ crowded.bi.queue.length
    ∧ asked.waitingAdmit = none ∧ asked.withdrawalQueued ⟨0, 7⟩ = true ∧ asked.bi.queue.length < 6
    ∧ made.waitingAdmit = none ∧ made.ownAdmit = some (admitEntry .firm)
    ∧ made.reservedTicket = none ∧ made.canIssueTicket = true ∧ noTicket.canIssueTicket = false
    ∧ noTicket.waitingAdmit = none ∧ noTicket.reservedTicket = none := by decide

theorem test_met_Restart :
    let low := { inState .isolated with tb := { TimeBase.reset with levelLow := true, lowRun := 65 } }
    let brief := { inState .isolated with tb := { TimeBase.reset with levelLow := true, lowRun := 64 } }
    low.sc.station = .isolated ∧ low.tb.levelLow = true ∧ 64 < low.tb.lowRun
    ∧ brief.sc.station = .isolated ∧ brief.tb.lowRun ≤ 64 ∧ (inState .isolated).tb.levelLow = false
    ∧ (inState .listen).sc.station ≠ .isolated := by decide

theorem test_met_Submit :
    let held := withTickets [ticket 0 .waiting] memberState
    15 < (0x10 : Byte).toNat ∧ (0x0F : Byte).toNat ≤ 15 ∧ (inState .leaving).sc.station ≠ .member
    ∧ 6 ≤ (withQueue (List.replicate 6 (queued .query)) memberState).bi.queue.length
    ∧ memberState.bi.queue.length < 6 ∧ memberState.sc.station = .member
    ∧ 4 ≤ ((withTickets (List.replicate 4 (ticket 9 .firm)) memberState).sp.tickets.filter (·.unfinished)).length
    ∧ (∃ x ∈ held.sp.tickets, x.unfinished = true ∧ x.number = held.cq.nextSeq)
    ∧ (memberState.sp.tickets.filter (·.unfinished)).length < 4
    ∧ (∀ x ∈ memberState.sp.tickets, x.unfinished = true → x.number ≠ memberState.cq.nextSeq) := by decide

set_option maxRecDepth 10000 in
/-- A table with a free record, and a full one whose oldest finished ticket is the second; the number of the new one frees its
own finished ticket first. -/
theorem test_met_issue_of_a_ticket :
    let full := [ticket 1 .firm, ticket 2 .abandoned, ticket 3 .abandoned, ticket 4 .waiting]
    let kept := fun n => full.filter fun u => u.unfinished || u.number ≠ n
    (kept 3).length < 4 ∧ 4 ≤ (kept 9).length ∧ kept 9 = [ticket 1 .firm] ++ ticket 2 .abandoned :: [ticket 3 .abandoned, ticket 4 .waiting]
    ∧ (ticket 2 .abandoned).unfinished = false ∧ (∀ y ∈ [ticket 1 .firm], y.unfinished = true)
    ∧ ([queued .query] : List QueuedFrame).Pairwise (fun y z => y.body.cls ≤ z.body.cls)
    ∧ (∃ x ∈ (withTickets [ticket 9 .firm] (inState .dormant)).sp.tickets, x.unfinished = true)
    ∧ (∃ x ∈ (withTickets [ticket 9 .firm] (inState .isolated)).sp.tickets, x.unfinished = true)
    ∧ (∃ x ∈ (withTickets [ticket 9 .firm] memberState).sp.tickets, x.unfinished = true) := by decide

theorem test_met_Withdraw :
    let frame := queued (.propose 5 (.demand 1))
    let waiting := withQueue [frame] (withTickets [ticket 5 .waiting] memberState)
    let flying := withQueue [{ frame with inFlight := true }] (withTickets [ticket 5 .waiting] memberState)
    let opened := withTickets [ticket 5 .openState] memberState
    let asked := withQueue [queued (.object ⟨0, 5⟩ .withdrawn)] opened
    let crowded := withQueue (List.replicate 6 (queued (.reply 1))) opened
    (∀ x ∈ memberState.sp.tickets, x.number ≠ 5)
    ∧ (withTickets [ticket 5 .firm] memberState).sp.tickets.find? (·.number = 5) = some (ticket 5 .firm)
    ∧ (withTickets [ticket 5 .openState] (inState .listen)).isMember = false
    ∧ waiting.sp.tickets.find? (·.number = 5) = some (ticket 5 .waiting)
    ∧ waiting.ticketFrame (ticket 5 .waiting) = some frame
    ∧ flying.ticketFrame (ticket 5 .waiting) = some { frame with inFlight := true }
    ∧ opened.isMember = true ∧ opened.withdrawalQueued ⟨opened.ownId, 5⟩ = false ∧ opened.bi.queue.length < 6
    ∧ asked.withdrawalQueued ⟨asked.ownId, 5⟩ = true
    ∧ crowded.withdrawalQueued ⟨crowded.ownId, 5⟩ = false ∧ 6 ≤ crowded.bi.queue.length := by decide

theorem test_met_Withdraw_of_a_leave :
    let frame := queued (.propose 7 (.remove 0 .left))
    let s := withQueue [frame] (withTickets [leaveTicket false] (tracking .leaving false memberState))
    s.sp.tickets.find? (·.number = 7) = some (leaveTicket false) ∧ (leaveTicket false).state = .waiting
    ∧ s.isMember = true ∧ s.ticketFrame (leaveTicket false) = some frame ∧ frame.inFlight = false
    ∧ s.sc.station = .leaving ∧ s.sc.tracked = some ⟨s.ownId, 7⟩ ∧ s.sc.leavePending = false := by decide

theorem test_met_ReadTicket :
    (withTickets [ticket 255 .firm] memberState).sp.tickets.find? (·.number = 255) = some (ticket 255 .firm)
    ∧ (ticket 255 .firm).unfinished = true ∧ (ticket 0 .abandoned).unfinished = false
    ∧ (withTickets [ticket 0 .abandoned] memberState).sp.tickets.find? (·.number = 0) = some (ticket 0 .abandoned)
    ∧ (∀ x ∈ memberState.sp.tickets, x.number ≠ 0) := by decide

theorem test_met_FaultAcknowledge :
    let manual := withRecord (recordWith 1 0x40) (inState .listen)
    let auto := withRecord (recordWith 1 0x00) (inState .listen)
    2 < (3 : Byte).toNat ∧ State.inputOfByte 0 = some .flt0 ∧ State.inputOfByte 2 = some .flt2
    ∧ ((inState .listen).inputRecord .flt0).latched = false
    ∧ ((withFlt0 false true false auto).inputRecord .flt0).latched = true ∧ (auto.input .flt0).manual = false
    ∧ (manual.input .flt0).manual = true ∧ ((withFlt0 true true false manual).inputRecord .flt0).active = true
    ∧ ((withFlt0 false true false manual).inputRecord .flt0).active = false
    ∧ manual.evaluates .flt0 = true ∧ (manual.inputRecord .flt0).active = false := by decide

theorem test_met_NaturalBoundaryCounts : (inState .listen).sc.station ≠ .setup
    ∧ (inState .isolated).sc.station ∈ [StationState.isolated, .halted]
    ∧ memberState.isMember = true ∧ memberState.foundsNow = false ∧ followerState.isFollower = true
    ∧ followerState.foundsNow = false ∧ memberState.drivesMarks = true ∧ memberState.bi.queue.length < 6
    ∧ (∃ y ∈ (withQueue (List.replicate 6 (queued (.beat (beat 0 1 0)))) memberState).bi.queue, y.body.isBeat = true) := by
  decide

theorem test_met_the_work_of_a_boundary :
    let seeking := fun seen => { inState .listen with tb := { TimeBase.reset with state := .acquiring, markSeen := seen } }
    (seeking false).tb.state = .acquiring ∧ (seeking false).tb.markSeen = false ∧ (seeking true).tb.markSeen = true
    ∧ memberState.tb.state = .locked ∧ (inState .listen).drivesMarks = false
    ∧ (inState .dormant).isMember = false ∧ (inState .dormant).isFollower = false := by decide

/-- The unlocked count at 14 and 15 of 16, and the quiet count of RESYNC at 3 and 4 of 4. -/
theorem test_met_the_counts_of_a_boundary :
    let unlocked := fun n => { inState .listen with
      sc := { (inState .listen).sc with unlocked := n, frameSinceListen := true } }
    let quiet := fun n => { inState .resync with sc := { (inState .resync).sc with quiet := n } }
    (unlocked 14).sc.station = .listen ∧ (unlocked 14).tb.state ≠ .locked ∧ (unlocked 14).sc.frameSinceListen = true
    ∧ (unlocked 14).sc.unlocked + 1 < 4 * (unlocked 14).listenEpochs
    ∧ 4 * (unlocked 15).listenEpochs ≤ (unlocked 15).sc.unlocked + 1 ∧ (inState .listen).sc.frameSinceListen = false
    ∧ (quiet 3).sc.quiet < (quiet 3).listenEpochs + (quiet 3).ownId.val ∧ (quiet 4).sc.station = .resync
    ∧ (quiet 4).listenEpochs + (quiet 4).ownId.val ≤ (quiet 4).sc.quiet ∧ (quiet 4).sc.station ≠ .listen
    ∧ memberState.sc.station ≠ .listen ∧ memberState.sc.station ≠ .resync ∧ (quiet 4).pu.step = 0 := by decide

theorem test_met_Founding :
    let quiet := { inState .listen with sc := { StationController.reset with station := .listen, quiet := 3 } }
    quiet.sc.station = .listen ∧ quiet.sc.leavePending = false ∧ quiet.tb.state ≠ .holdover ∧ quiet.bi.line ≠ .stuck
    ∧ quiet.listenEpochs + quiet.ownId.val ≤ quiet.sc.quiet + 1 ∧ quiet.ownKind = .phase
    ∧ (withRecord (0x0001 <<< 240) quiet).ownKind = .observer := by decide

set_option maxRecDepth 10000 in
theorem test_met_ApplicationOfAnEntry :
    let made := { admitEntry .firm with content := .remove 0 .left }
    memberState.rt.entries.length = 16 ∧ (admitEntry .firm).content = .admission defaultFingerprint .phase
    ∧ (0 : StationId) ≠ ({ admitEntry .firm with content := .remove 15 .lost } : QueueEntry).target
    ∧ made.isLocal = true ∧ (leaveTicket false).unfinished = true ∧ (leaveTicket false).number = made.id.seq
    ∧ (leaveTicket false).kind.fits made.content = true ∧ (leaveTicket false).reserved = false
    ∧ (memberState.entry made.target).state ≠ .absent ∧ (memberState.entry 15).state = .absent
    ∧ (memberState.entry 3).state = .active ∧ (withOwn .shed memberState).ownEntry.state ≠ .active
    ∧ memberState.fu.tripSet.getLsbD 0 = false ∧ (admitEntry .firm).target = memberState.ownId
    ∧ (tracking .joining false followerState).sc.station = .joining ∧ memberState.isMember = true
    ∧ memberState.os.gh = false ∧ memberState.os.gl = false := by decide

set_option maxRecDepth 10000 in
theorem test_met_DivergenceVote :
    let b : BeatRecord := ⟨0xFFFF, false, 1, 0, false, false, false, false, 0⟩
    let peers := ((rosterWith 3 .active).set 3 { present .active with heard := true, lastBeat := some b }).set 4
      { present .active with heard := true, lastBeat := some b }
    let split := { memberState with rt := { memberState.rt with entries := peers } }
    let none_ := fun _ : StationId => false
    memberState.isMember = true ∧ ((memberState.updateSilence none_).proposeLosses).losesVote = false
    ∧ split.isMember = true ∧ ((split.updateSilence none_).proposeLosses).losesVote = true
    ∧ followerState.isFollower = true ∧ followerState.hasCopy = true ∧ (inState .listen).isFollower = true
    ∧ (inState .listen).hasCopy = false := by decide

theorem test_met_losses :
    let silent := fun n => { memberState with
      rt := { memberState.rt with entries := memberState.rt.entries.set 3 { present .active with silent := n } } }
    (3 : StationId) ≠ memberState.ownId ∧ (memberState.entry 3).state ≠ .absent ∧ memberState.lossEpochs = 3
    ∧ ((silent 3).entry 3).silent = (silent 3).lossEpochs ∧ ((silent 2).entry 3).silent ≠ (silent 2).lossEpochs
    ∧ (silent 3).removePending 3 = false ∧ (∀ y ∈ (silent 3).bi.queue, y.body.isRemoveOf 3 = false)
    ∧ (silent 3).bi.queue.length < 6 ∧ (QueuedBody.propose 1 (.remove 3 .left)).isRemoveOf 3 = true
    ∧ (withEntry ⟨⟨5, 1⟩, .remove 3 .lost, 3, .openPhase, false⟩ memberState).removePending 3 = true := by decide

theorem test_met_MarkEdgeIsRecorded :
    let released := { inState .listen with tb := { TimeBase.reset with state := .holdover } }
    (inState .halted).sc.station ∈ [StationState.isolated, .halted] ∧ (inState .halted).tb.state ≠ .holdover
    ∧ released.sc.station ≠ .setup ∧ released.tb.levelLow = false := by decide

/-- The leads at the edges of the bands: 0, 1, 8 and 9 within and beyond the window, half an epoch and one count more; at a
station that follows, trails of 8 and 9 besides. -/
theorem test_met_MarkEdgeWhileDriving :
    let lead := fun n => (withEdgeAt n .locked 3 memberState).leadOf (withEdgeAt n .locked 3 memberState).edgePos
    let follow := fun n => withEdgeAt n .locked 3 (inState .listen)
    memberState.drivesMarks = true ∧ memberState.tb.state = .locked ∧ lead 0 = 0 ∧ lead 159999 = 1 ∧ lead 159992 = 8
    ∧ lead 159991 = 9 ∧ memberState.lockWindow = 8 ∧ lead 80000 = 80000 ∧ lead 79999 = 80001
    ∧ memberState.epochCounts = 160000
    ∧ (inState .listen).drivesMarks = false ∧ (inState .listen).canIsolate = true ∧ 2 ≤ (inState .listen).listenEpochs
    ∧ (follow 8).leadOf (follow 8).edgePos = 159992 ∧ (follow 8).edgePos = 8 ∧ (follow 9).edgePos = 9
    ∧ (follow 9).leadOf (follow 9).edgePos = 159991 := by decide

/-- P one count before the end of its cycle, an advance of 1, 1983 and 1984 counts past it, and a compare that is crossed. -/
theorem test_met_alignment_of_the_cycle :
    let at_ := fun p => { withEdgeAt 159999 .locked 3 memberState with os := { OutputStage.reset with p := p } }
    let run := { at_ 1000 with os := { OutputStage.reset with mode := .run, p := 1000, cmp := 1001 } }
    (at_ 1998).Settled ∧ (at_ 1998).drivesMarks = true ∧ (at_ 1998).leadOf (at_ 1998).edgePos = 1
    ∧ (1 : Nat) ≤ (at_ 1998).lockWindow ∧ (at_ 1998).os.p + 1 < (at_ 1998).pu.length
    ∧ (at_ 1999).pu.length ≤ (at_ 1999).os.p + 1
    ∧ (at_ 1999).os.p + 1 - (at_ 1999).pu.length < (at_ 1999).period - (at_ 1999).slewStep
    ∧ (at_ 1999).os.p + 1984 - (at_ 1999).pu.length < (at_ 1999).period - (at_ 1999).slewStep
    ∧ (at_ 1999).period - (at_ 1999).slewStep ≤ (at_ 1999).os.p + 1985 - (at_ 1999).pu.length
    ∧ (at_ 1998).someClears = false ∧ (at_ 1998).os.mode ≠ .run
    ∧ run.os.mode = .run ∧ run.os.p < run.os.cmp ∧ run.os.cmp ≤ run.os.p + 1 ∧ run.os.cmp < run.pu.length
    ∧ (withEdgeAt 79999 .locked 3 (inState .listen)).Settled := by
  refine ⟨?_, by decide, by decide, by decide, by decide, by decide, by decide, by decide, by decide, by decide, by decide,
    by decide, by decide, by decide, by decide, ?_⟩ <;> (unfold State.Settled; decide)

theorem test_met_MarkEdgeWhileAcquiring :
    let s := fun n => withEdgeAt n .acquiring 2 (inState .listen)
    (inState .listen).canIsolate = true ∧ (inState .listen).tb.state = .free ∧ 2 ≤ (inState .listen).listenEpochs
    ∧ (s 0).leadOf (s 0).edgePos = 0 ∧ (s 159998).leadOf (s 159998).edgePos = 2 ∧ (s 159997).leadOf (s 159997).edgePos = 3
    ∧ (s 8).leadOf (s 8).edgePos = 159992 ∧ (s 8).edgePos ≤ (s 8).lockWindow ∧ (s 8).epochCounts < 2 * 159992
    ∧ (s 9).leadOf (s 9).edgePos = 159991 ∧ (s 9).lockWindow < (s 9).edgePos
    ∧ (s 8).canIsolate = true ∧ (s 8).tb.inWindow = 2 ∧ (s 8).tb.state = .acquiring
    ∧ (withEdgeAt 8 .acquiring 1 (inState .listen)).tb.inWindow < 2 := by decide

theorem test_met_MarkLineEvents :
    let driving := { memberState with tb := { memberState.tb with driveLeft := 1 } }
    let third := { memberState with tb := { memberState.tb with driveLeft := 1, failedDrives := 2 } }
    driving.sc.station ≠ .setup ∧ driving.tb.state ≠ .holdover ∧ driving.tb.driveLeft ≠ 0
    ∧ (∀ y ∈ driving.bi.queue, y.body ≠ .query)
    ∧ driving.tb.failedDrives + 1 < driving.lossEpochs ∧ third.canIsolate = true
    ∧ third.lossEpochs ≤ third.tb.failedDrives + 1 := by decide

theorem test_met_HOLDOVER_at_a_boundary :
    let s := fun low resume n st => { inState st with
      tb := { TimeBase.reset with state := .holdover, levelLow := low, resume := resume, holdoverEpochs := n } }
    (s false .free 1 .listen).tb.state = .holdover ∧ (s false .free 1 .listen).tb.levelLow = false
    ∧ (s false .locked 1 .listen).tb.resume = .locked ∧ (s true .free 1 .listen).tb.levelLow = true
    ∧ (s true .free 1 .listen).tb.holdoverEpochs + 1 < (s true .free 1 .listen).lossEpochs
    ∧ (s true .free 2 .listen).lossEpochs ≤ (s true .free 2 .listen).tb.holdoverEpochs + 1
    ∧ (s true .free 2 .listen).canIsolate = true ∧ (s true .free 2 .halted).canIsolate = false := by decide

set_option maxRecDepth 10000 in
/-- A count with nothing due, one that wraps B, one that wraps K; the boundary with and without a point; a start with and
without a latch that clears, a half-cycle point; the prescaler at its last clock but one and its last. -/
theorem test_met_StationClock :
    let at_ := fun (b k p : Nat) => { memberState with
      tb := { memberState.tb with b := b, k := k }, os := { memberState.os with p := p } }
    let slow := withRecord (0x00000203 <<< 224) memberState
    let clears := withFlt0 false true false (withRecord (recordWith 1 0x00) (at_ 5 0 2000))
    (at_ 1998 0 998).tb.driveLeft = 0 ∧ (at_ 1998 0 998).tb.b + 1 < (at_ 1998 0 998).period
    ∧ (at_ 1998 0 998).os.p + 1 < (at_ 1998 0 998).pu.length ∧ (at_ 1998 0 998).os.p + 1 ≠ (at_ 1998 0 998).pu.length / 2
    ∧ (at_ 1998 0 998).pins.sbmPulled = false ∧ (at_ 1998 0 998).tb.levelLow = false ∧ (at_ 1998 0 998).tb.lowRun ≤ 64
    ∧ (∀ i, (at_ 1998 0 998).evaluates i = true →
        ((at_ 1998 0 998).faultPin i != ((at_ 1998 0 998).input i).activeLow) = ((at_ 1998 0 998).inputRecord i).active)
    ∧ (at_ 1999 78 0).period ≤ 1999 + 1 ∧ 78 + 1 < (at_ 1999 78 0).epochLen ∧ (at_ 1999 79 0).epochLen ≤ 79 + 1
    ∧ 0 < memberState.period ∧ memberState.tb.b ≠ 0 ∧ (at_ 0 0 1000).tb.b = 0 ∧ (at_ 0 0 1000).tb.k = 0
    ∧ (at_ 0 0 1000).os.p = (at_ 0 0 1000).pu.length / 2 ∧ (at_ 0 0 1000).os.anchored = false
    ∧ (at_ 5 0 2000).pu.length ≤ (at_ 5 0 2000).os.p ∧ (at_ 5 0 2000).someClears = false
    ∧ clears.pu.length ≤ clears.os.p ∧ clears.someClears = true
    ∧ slow.phase + 1 < slow.prescale ∧ slow.prescale ≤ ({ slow with phase := 1 } : State).phase + 1
    ∧ memberState.pins.nrst = true ∧ memberState.sc.station ≠ .setup ∧ State.reset.sc.station = .setup := by
  intro at_ slow clears
  refine ⟨by decide, by decide, by decide, by decide, by decide, by decide, by decide, fun i => ?_, ?_⟩
  · cases i <;> decide
  · decide

set_option maxRecDepth 10000 in
/-- FLT0 with a filter of 3 at its second and third sample, either way; SBM at its second and third, and a low run that reaches
65; the mark drive in its last count; and the port's edges with a transaction of each kind. -/
theorem test_met_samples_and_edges :
    let seen := fun (active : Bool) (n : Nat) (pin : Bool) =>
      { withRecord (recordWith 1 0x00) memberState with
        fu := { FaultUnit.reset with flt0 := ⟨active, n, false, false, 0⟩ }, pins := { Pins.idle with flt0 := pin } }
    let mark := fun (low : Bool) (n run : Nat) =>
      { memberState with tb := { memberState.tb with levelLow := low, filterRun := n, lowRun := run } }
    let port := fun (x : Option Transaction) (scsWas scs sckWas sck : Bool) =>
      { memberState with
        sp := { memberState.sp with transaction := x, scsWas := scsWas, sckWas := sckWas }
        pins := { Pins.idle with scs := scs, sck := sck } }
    let stop : Transaction := ⟨byteBits 0x12, false, [], false⟩
    (seen false 1 true).evaluates .flt0 = true ∧ memberState.evaluates .flt0 = false
    ∧ (1 : Nat) + 1 < ((seen false 1 true).input .flt0).filter ∧ ((seen false 2 true).input .flt0).filter ≤ 2 + 1
    ∧ ((seen false 2 true).faultPin .flt0 != ((seen false 2 true).input .flt0).activeLow) = true
    ∧ ((seen false 2 true).inputRecord .flt0).active = false ∧ ((seen true 2 false).inputRecord .flt0).active = true
    ∧ ((seen true 2 false).faultPin .flt0 != ((seen true 2 false).input .flt0).activeLow) = false
    ∧ (mark false 1 0).tb.filterRun < 2 ∧ 2 ≤ (mark false 2 0).tb.filterRun ∧ (mark false 2 0).tb.levelLow = false
    ∧ (mark true 2 9).tb.levelLow = true ∧ min 65 ((mark true 0 64).tb.lowRun + 1) = 65 ∧ (mark true 0 63).tb.lowRun + 1 ≤ 64
    ∧ (mark true 0 64).tb.state ≠ .holdover
    ∧ ({ memberState.tb with driveLeft := 1 } : TimeBase).driveLeft = 1 ∧ memberState.tb.driveLeft ≠ 1
    ∧ completeCommand stop = some (0x12, []) ∧ completeCommand ⟨[true], false, [], false⟩ = none
    ∧ (port (some stop) true false false true).sp.transaction = some stop ∧ stop.evaluated = false
    ∧ (port none true false false false).sp.scsWas = true ∧ (port none true false false false).pins.scs = false
    ∧ (port (some { stop with evaluated := true }) false true false false).sp.scsWas = false
    ∧ (port none false true false false).pins.scs = true ∧ (port (some stop) false false true false).sp.sckWas = true
    ∧ (port (some stop) false false false true).pins.sck = true := by decide

theorem test_met_LocalCycleStart : memberState.sc.station ≠ .setup ∧ memberState.pu.target = some 0
    ∧ (inState .listen).pu.target = none
    ∧ (({ memberState with pu := { memberState.pu with offset := 5 } } : State).cycleStart true).pu.offset ≠ 0 := by
  decide

/-- A duty above the limit in RUN, met with and without its clamp record; a duty below it; and a station in OFF. -/
theorem test_met_CLAMP :
    let s := fun (duty : Word) (mode : OutputMode) (r : Option Word) => { memberState with
      cq := { memberState.cq with duty := duty }, os := { OutputStage.reset with mode := mode, clampRecord := r } }
    ((s 0xFFFF .run none).cycleStart true).os.mode = .run ∧ ((s 0xFFFF .run none).cycleStart true).os.clampFlag = true
    ∧ (s 0xFFFF .run (some 0xFFFF)).os.clampRecord = some (s 0xFFFF .run (some 0xFFFF)).cq.duty
    ∧ (s 0xFFFF .run none).os.clampRecord ≠ some (s 0xFFFF .run none).cq.duty
    ∧ ((s 0 .run none).cycleStart true).os.clampFlag = false
    ∧ (({ inState .listen with os := OutputStage.reset } : State).cycleStart true).os.mode ≠ .run := by decide

/-- The rows of the adjustment at their edges, PERIOD 2000, L 2000 and MIN_PULSE 40. -/
theorem test_met_CompareAdjustment : (0 : Nat) ≠ 2000 ∧ 1 ≠ 0 ∧ 1 < 40 ∧ 39 < 40 ∧ 40 ≤ 40 ∧ 40 + 40 ≤ 2000
    ∧ 1960 + 40 ≤ 2000 ∧ 2000 < 1961 + 40 ∧ startValid defaultRecord :=
  ⟨by decide, by decide, by decide, by decide, by decide, by decide, by decide, by decide, test_met_StartChecks.2.2.2⟩

theorem test_met_SlewStepChoice : 0 < 1999 ∧ (0 : Nat) < 1999 ∧ 1998 < 1999 := by decide

/-- A target of 0: the same one, its loss, a retarget of a running station with O on it and off it, and a jump. -/
theorem test_met_recomputation :
    let s := fun (target : Option Nat) (offset : Nat) (mode : OutputMode) => { memberState with
      pu := { PlacementUnit.reset with target := target, offset := offset }
      os := { OutputStage.reset with mode := mode } }
    let shed := fun s => withOwn .shed s
    (s (some 5) 0 .run).ownEntry.state = .active ∧ (s (some 5) 0 .run).ownEntry.kind = .phase
    ∧ (s (some 0) 0 .run).targetNow = (s (some 0) 0 .run).pu.target
    ∧ (shed (s (some 0) 0 .off)).targetNow = none ∧ (shed (s (some 0) 0 .off)).ownEntry.state ≠ .active
    ∧ (s (some 5) 0 .run).pu.target = some 5 ∧ (s (some 5) 0 .run).targetNow = some 0 ∧ (s (some 5) 0 .run).os.mode = .run
    ∧ (s (some 5) 0 .run).os.blanking = false ∧ (s (some 5) 0 .run).pu.offset = 0 ∧ (s (some 5) 0 .run).pu.step = 0
    ∧ (s (some 5) 5 .run).pu.offset ≠ 0 ∧ (s (some 5) 5 .off).targetNow = some 0 ∧ (s (some 5) 5 .off).os.mode ≠ .run
    ∧ (s none 5 .run).targetNow = some 0 ∧ (s none 5 .run).pu.target ≠ some 0 := by decide

theorem test_met_GateRule : ({ OutputStage.reset with gl := true } : OutputStage).gl = true
    ∧ OutputStage.reset.gh = false ∧ OutputStage.reset.gl = false := by decide

theorem test_met_CompareAndDeadtime :
    let s := { memberState with os := { OutputStage.reset with mode := .run, cmp := 1999, gh := true } }
    s.sc.station ≠ .setup ∧ s.os.mode = .run ∧ 0 < s.os.cmp ∧ s.os.cmp < s.pu.length ∧ s.os.blanking = false
    ∧ s.os.gl = false ∧ ({ s with os := { s.os with gh := false, gl := true } } : State).os.gl = true
    ∧ memberState.os.gh = false ∧ memberState.os.gl = false := by decide

theorem test_met_HalfCyclePoint :
    let s := withFlt0 false true true (withRecord (recordWith 1 0x40) (inState .listen))
    let shed := withFlt0 false true false (withRecord (recordWith 2 0x00) (withOwn .shed memberState))
    s.sc.station ≠ .setup ∧ (s.inputRecord .flt0).latched = true ∧ (s.inputRecord .flt0).active = false
    ∧ (s.inputRecord .flt0).ackArmed = true
    ∧ (shed.inputRecord .flt0).latched = true ∧ (shed.input .flt0).cls = .shed
    ∧ (∀ i ∈ allInputs, (shed.inputRecord i).latched = true → (shed.input i).cls = .shed → (shed.inputRecord i).active = false
        ∧ ((shed.input i).manual = false ∨ (shed.inputRecord i).ackArmed = true))
    ∧ shed.sc.station = .member ∧ shed.ownEntry.state = .shed ∧ shed.fu.readmitFrame = none ∧ shed.bi.queue.length < 6
    ∧ (∀ e ∈ shed.cq.entries, e.target = shed.ownId → e.content.changesStanding = false)
    ∧ (withFlt0 false false false shed).readmissionTestPassed = true ∧ shed.readmissionTestPassed = false := by decide

set_option maxRecDepth 10000 in
theorem test_met_FaultInputs :
    let trip := withRecord (recordWith 3 0x01) memberState
    let clamp := withRecord (recordWith 1 0x01) memberState
    (trip.input .flt0).cls = .trip ∧ (trip.inputRecord .flt0).active = false ∧ trip.isMember = true
    ∧ (clamp.input .flt0).cls = .localClass ∧ (clamp.input .flt0).lowClamp = true ∧ clamp.ownKind = .phase
    ∧ clamp.fu.tripSet = 0 ∧ clamp.os.mode ≠ .lowClamp
    ∧ (∀ j ∈ allInputs, (clamp.inputRecord j).latched = true → (clamp.input j).cls ≠ .trip ∧ (clamp.input j).lowClamp = true)
    ∧ ((withFlt0 true true false clamp).inputRecord .flt0).active = true := by decide

set_option maxRecDepth 10000 in
theorem test_met_shed_and_withdrawal :
    let shed := withRecord (recordWith 2 0x00) memberState
    let joiner := withEntry (admitEntry .openPhase) (tracking .joining false shed)
    let latched := withFlt0 true true false joiner
    (shed.input .flt0).cls = .shed ∧ shed.ownEntry.state = .active ∧ shed.ownEntry.kind = .phase
    ∧ (∀ e ∈ shed.cq.entries, e.target = shed.ownId → e.content ≠ .shed) ∧ shed.fu.shedFrame = none
    ∧ (∀ y ∈ shed.bi.queue, y.body.isRemoveOf shed.ownId = false) ∧ shed.bi.queue.length < 6
    ∧ (withFlt0 true true false shed).shedTestPassed = true ∧ shed.shedTestPassed = false
    ∧ joiner.ownAdmit = some (admitEntry .openPhase) ∧ joiner.withdrawalQueued ⟨0, 7⟩ = false
    ∧ latched.classLatched .shed = true ∧ latched.sc.station = .joining ∧ joiner.classLatched .shed = false
    ∧ shed.ownAdmit = none := by decide

theorem test_met_LineEvents :
    let stuck := { inState .listen with bi := { BusInterface.reset with line := .stuck } }
    stuck.sc.station ≠ .setup ∧ stuck.bi.line = .stuck ∧ (inState .listen).bi.line ≠ .stuck
    ∧ (inState .listen).bi.errorFlagLeft = 0 ∧ stuck.canIsolate = true ∧ stuck.bi.stuckEpochs + 1 < stuck.lossEpochs
    ∧ (let third := { stuck with bi := { stuck.bi with stuckEpochs := 2 } }
       third.lossEpochs ≤ third.bi.stuckEpochs + 1 ∧ third.canIsolate = true)
    ∧ (inState .halted).canIsolate = false := by decide

theorem test_met_entries_to_MEMBER :
    let latched := fun s => withFlt0 false true false (withRecord (recordWith 2 0x00) s)
    let back := latched (tracking .leaving false memberState)
    let founder := latched (inState .listen)
    let shed := tracking .leaving false (withOwn .shed memberState)
    back.sc.station ≠ .member ∧ back.sc.leavePending = false ∧ back.bi.queue.length < 6 ∧ back.ownEntry.state = .active
    ∧ back.ownEntry.kind = .phase ∧ back.classLatched .shed = true ∧ back.fu.shedFrame = none
    ∧ (∀ y ∈ back.bi.queue, y.body.isRemoveOf back.ownId = false) ∧ (∀ e ∈ back.cq.entries, e.target ≠ back.ownId)
    ∧ founder.ownKind = .phase ∧ founder.classLatched .shed = true ∧ founder.sc.station ≠ .member
    ∧ founder.fu.shedFrame = none ∧ founder.bi.queue.length < 6
    ∧ shed.ownEntry.state = .shed ∧ shed.classLatched .shed = false ∧ shed.fu.readmitFrame = none
    ∧ shed.sc.station ≠ .member ∧ shed.bi.queue.length < 6 := by decide

set_option maxRecDepth 10000 in
/-- One clock of SBD, BT being 32: the timers and ages at the last clock before a range and at its first, the bits of the own
query that arbitrate and those that do not, and a receive context of each kind. -/
theorem test_met_a_clock_of_SBD :
    let on := fun (rx : RxContext) (s : State) => { s with bi := { s.bi with line := .busy, rx := some rx } }
    let slot := fun n => { RxContext.fresh with slotAge := some n }
    let own := fun n => { sent (.rosterQueryAccepted 0) false memberState with bi := { memberState.bi with
      attempt := some ⟨.rosterQueryAccepted 0, frameBitsOf (.rosterQueryAccepted 0), false, n⟩ } }
    memberState.bitTime = 32 ∧ memberState.bi.line = .idle ∧ memberState.bi.wasDominant = false
    ∧ 11 * memberState.bitTime + memberState.bitTime / 4 = 360
    ∧ (on RxContext.fresh memberState).bi.line ≠ .idle ∧ (on RxContext.fresh memberState).bi.rx = some RxContext.fresh
    ∧ bodyRead (List.replicate 33 false) = true ∧ bodyRead (List.replicate 32 false) = false
    ∧ RxContext.fresh.lost = false ∧ RxContext.fresh.slotAge = none ∧ RxContext.fresh.taken < 2
    ∧ (14 : Nat) ∈ [7 * memberState.bitTime / 16, 8 * memberState.bitTime / 16, 9 * memberState.bitTime / 16]
    ∧ headerRead (List.replicate 16 true ++ [true]) = true ∧ 20 < heardLength (List.replicate 16 true ++ [true])
    ∧ headerRead (List.replicate 17 false) = true ∧ heardLength (List.replicate 17 false) ≤ 20
    ∧ ((own 17).bi.attempt.map (·.age)) = some 17 ∧ (own 17).bi.rx = none ∧ 17 < 9 * (own 17).bitTime / 16
    ∧ 9 * (own 18).bitTime / 16 ≤ 18
    ∧ ((own 0).bi.attempt.bind (·.bits[0]?)) = some false ∧ ((own 0).bi.attempt.bind (·.bits[1]?)) = some true
    ∧ ((own 0).bi.attempt.bind (·.bits[8]?)) = some true ∧ ((own 0).bi.attempt.bind (·.bits[99]?)) = none
    ∧ (slot 63).slotAge = some 63 ∧ 63 < 2 * memberState.bitTime ∧ 2 * memberState.bitTime ≤ 64 ∧ (slot 32).slotAge = some 32
    ∧ ({ slot 64 with accepted := some true, error := true } : RxContext).accepted = some true
    ∧ (on (slot 64) followerState).isFollower = true ∧ (on (slot 64) memberState).isFollower = false
    ∧ (on (slot 64) memberState).bi.attempt = none ∧ (slot 64).accepted ≠ some true
    ∧ ({ RxContext.fresh with lost := true, sawEdge := true } : RxContext).sawFlag = false := by decide

theorem test_met_TransmissionAttempt :
    let s := withQueue [queued (.beat (beat 0 2 0))] { memberState with tb := { memberState.tb with k := 1 } }
    let tripped := { s with bi := { s.bi with tripSlot := some ⟨⟨0, 0⟩, 0, false⟩ } }
    s.isMember = true ∧ s.bi.attempt = none ∧ s.bi.line = .idle ∧ s.nextFrame = some (.beatAccepted 0 (beat 0 2 0))
    ∧ s.lockWindow + 16 ≤ s.pos
    ∧ (35 + 8 * frameLength (.beatAccepted 0 (beat 0 2 0))) * s.bitTime + (s.lockWindow + 16) * s.prescale
        ≤ (s.epochCounts - s.pos) * s.prescale
    ∧ (let late := { s with tb := { s.tb with b := 1990, k := 79 } }
       late.nextFrame = some (.beatAccepted 0 (beat 0 2 0)) ∧ (late.epochCounts - late.pos) * late.prescale
         < (35 + 8 * frameLength (.beatAccepted 0 (beat 0 2 0))) * late.bitTime + (late.lockWindow + 16) * late.prescale)
    ∧ memberState.nextFrame = none ∧ tripped.isMember = true ∧ tripped.bi.tripSlot = some ⟨⟨0, 0⟩, 0, false⟩
    ∧ s.bi.tripSlot = none
    ∧ s.bi.queue.find? (fun y => s.eligible y.body) = some (queued (.beat (beat 0 2 0))) := by decide

/-- In a member every frame but a ROSTER_QUERY is the first that R56 allows; with a query alone there is none. -/
theorem test_met_choice_of_a_frame :
    let first := fun b => (withQueue [queued .query, queued b] memberState).bi.queue.find?
      fun y => (withQueue [queued .query, queued b] memberState).eligible y.body
    (∀ b ∈ [QueuedBody.propose 1 (.admission 5 .phase), .propose 1 (.admission 5 .observer), .propose 1 (.remove 3 .left),
      .propose 1 (.remove 3 .lost), .propose 1 .shed, .propose 1 (.demand 5), .propose 1 (.clearTrip 3),
      .object ⟨3, 1⟩ .dutyLimit, .object ⟨3, 1⟩ .withdrawn, .object ⟨3, 1⟩ .stillActive, .object ⟨3, 1⟩ .present, .reply 3],
      first b = some (queued b))
    ∧ memberState.bi.tripSlot = none
    ∧ (withQueue [queued .query] (inState .listen)).bi.queue.find?
        (fun y => (withQueue [queued .query] (inState .listen)).eligible y.body) = some (queued .query)
    ∧ (∀ y ∈ (withQueue [queued .query] memberState).bi.queue,
        (withQueue [queued .query] memberState).eligible y.body = false) := by decide

theorem test_met_ArbitrationLost :
    let s := sending (queued .query) memberState
    let proposing := sending (queued (.propose 7 (.remove 0 .left)))
    let leaver := sending (queued (.propose 7 (.admission 0 .phase))) (tracking .joining true (inState .joining))
    let leaving := proposing (withTickets [leaveTicket true] (tracking .leaving false memberState))
    s.sc.station ≠ .setup ∧ s.bi.attempt ≠ none ∧ s.bi.queue.find? (·.inFlight) = some { queued .query with inFlight := true }
    ∧ (∀ y ∈ s.bi.queue, y.inFlight = true → y = { queued .query with inFlight := true }) ∧ memberState.bi.attempt = none
    ∧ (sendingTrip memberState).bi.attempt ≠ none ∧ (∀ y ∈ (sendingTrip memberState).bi.queue, y.inFlight = false)
    ∧ leaver.sc.tracked = some ⟨leaver.ownId, 7⟩ ∧ leaver.sc.leavePending = true ∧ leaver.bi.attempt ≠ none
    ∧ leaver.bi.queue.find? (·.inFlight) = some { queued (.propose 7 (.admission 0 .phase)) with inFlight := true }
    ∧ leaving.isMember = true ∧ leaving.sc.station = .leaving ∧ leaving.sc.tracked = some ⟨leaving.ownId, 7⟩
    ∧ leaving.sc.leavePending = false ∧ leaving.bi.attempt ≠ none
    ∧ leaving.bi.queue.find? (·.inFlight) = some { queued (.propose 7 (.remove 0 .left)) with inFlight := true }
    ∧ (leaveTicket true).unfinished = true ∧ (leaveTicket true).number = 7
    ∧ (leaveTicket true).kind.fits (.remove 0 .left) = true ∧ (leaveTicket true).reserved = false
    ∧ (∀ z ∈ (proposing (withTickets [leaveTicket false] memberState)).sp.tickets, z.withdrawRequest = false) := by
  decide

theorem test_met_FailedAttempts :
    let s := sending { queued .query with attempts := 3 } memberState
    let second := { s with bi := { s.bi with clashWindow := some 16 } }
    let third := { s with bi := { s.bi with abandonCount := 2 } }
    s.bi.clashWindow = none ∧ s.sc.station ≠ .setup ∧ (s.bi.attempt.map (·.beatReplaced)) = some false
    ∧ s.bi.queue.find? (·.inFlight) = some { queued .query with attempts := 3, inFlight := true }
    ∧ (∀ y ∈ s.bi.queue, y.inFlight = true → y = { queued .query with attempts := 3, inFlight := true })
    ∧ s.bi.abandonCount < 2 ∧ third.bi.abandonCount = 2 ∧ third.canIsolate = true
    ∧ second.bi.attempt ≠ none ∧ second.bi.clashWindow = some 16
    ∧ (sendingTrip memberState).bi.clashWindow = none ∧ (∀ y ∈ (sendingTrip memberState).bi.queue, y.inFlight = false)
    ∧ s.followsFrames = true ∧ s.bi.rejectCount < 7 ∧ (sendingTrip memberState).followsFrames = true := by
  decide

theorem test_met_FailedAttempts_of_a_proposal :
    let admission := fun n => { queued (.propose 7 (.admission 0 .phase)) with attempts := n }
    let removal := fun n => { queued (.propose 7 (.remove 0 .left)) with attempts := n }
    let join := fun leave n => sending (admission n) (tracking .joining leave (inState .joining))
    let leaving := fun request n =>
      sending (removal n) (withTickets [leaveTicket request] (tracking .leaving false memberState))
    (join false 2).sc.tracked = some ⟨(join false 2).ownId, 7⟩ ∧ (join false 3).sc.leavePending = false
    ∧ (join true 0).sc.leavePending = true ∧ (join true 3).bi.abandonCount < 2
    ∧ (leaving false 3).sc.station = .leaving ∧ (leaving false 3).sc.tracked = some ⟨(leaving false 3).ownId, 7⟩
    ∧ (leaving true 2).isMember = true ∧ leaveTicket true ∈ (leaving true 2).sp.tickets
    ∧ ((leaving true 2).bi.attempt.map (·.beatReplaced)) = some false
    ∧ (leaving true 2).bi.queue.find? (·.inFlight) = some { removal 2 with inFlight := true }
    ∧ (∀ y ∈ (leaving true 2).bi.queue, y.inFlight = true → y = { removal 2 with inFlight := true })
    ∧ memberState.sc.tracked ≠ some ⟨memberState.ownId, 7⟩ := by decide

/-- The context of a frame whose reject vote this station drives, `n` station clocks into the slot. -/
def rejecting (n : Nat) : RxContext := { RxContext.fresh with rejecting := true, slotAge := some n }

theorem test_met_ErrorsAndDiscards :
    let full := { memberState with bi := { BusInterface.reset with rejectCount := 7, errorFlagLeft := 1 } }
    let voting := fun n => { memberState with bi := { BusInterface.reset with rx := some (rejecting n) } }
    memberState.isMember = true ∧ memberState.NotSending ∧ memberState.bi.rejectCount < 7 ∧ 7 ≤ full.bi.rejectCount
    ∧ full.NotSending ∧ full.bi.errorFlagLeft ≠ 0 ∧ followerState.isFollower = true ∧ followerState.NotSending
    ∧ followerState.followsFrames = true ∧ followerState.isMember = false ∧ memberState.followsFrames = true
    ∧ (inState .dormant).NotSending ∧ (inState .dormant).sc.station = .dormant
    ∧ ({ memberState with tb := { memberState.tb with b := 23 } } : State).slotInGuard = true
    ∧ ({ memberState with tb := { memberState.tb with b := 24 } } : State).slotInGuard = false
    ∧ memberState.voteCounted = false ∧ 0 < memberState.bitTime ∧ 3 * memberState.bitTime / 4 = 24
    ∧ (voting 24).voteCounted = false ∧ (voting 25).voteCounted = true ∧ (rejecting 24).rejecting = true
    ∧ (rejecting 24).slotAge = some 24 := by
  refine ⟨by decide, notSending rfl rfl, by decide, by decide, notSending rfl rfl, by decide, by decide,
    notSending rfl rfl, by decide, by decide, by decide, notSending rfl rfl, by decide, by decide, by decide, by decide,
    by decide, by decide, by decide, by decide, by decide, by decide⟩

theorem test_met_MissedFrame : followerState.sc.station ∈ [StationState.listen, .resync]
    ∧ (inState .joining).sc.station = .joining ∧ (inState .joining).sc.leavePending = false
    ∧ memberState.isFollower = false := by decide

/-- The lowest ACTIVE ID of the copy is 3: a group at 2 is heard below it, one at 3 is not. -/
theorem test_met_a_lower_group :
    let s := fun st leave (n : Nat) key => { followerState with
      sc := { followerState.sc with station := st, leavePending := leave }
      rt := { followerState.rt with heardGroup := some n, expectedKey := key } }
    (s .listen false 2 none).referenceId = some 3 ∧ (s .listen false 2 none).rt.expectedKey = none
    ∧ (s .listen false 2 none).rt.copySource ≠ .none ∧ (inState .listen).rt.copySource = .none
    ∧ (s .listen false 2 none).lowerGroup = some 2 ∧ (s .listen false 3 none).lowerGroup = none
    ∧ (s .listen false 2 none).hasCopy = true ∧ (s .resync false 2 (some 4)).lowerGroup = some 2
    ∧ (s .resync false 2 (some 4)).sc.station = .resync ∧ (s .resync false 2 (some 4)).rt.copySource = .reply
    ∧ (s .joining false 2 none).lowerGroup = some 2 ∧ (s .joining true 2 none).lowerGroup = some 2
    ∧ (s .joining true 2 none).sc.leavePending = true := by decide

/-- The own frames of a member, a BEAT in RESYNC among them, in flight. -/
theorem test_met_own_frames :
    let resync := { tracking .resync false (withOwn .active followerState) with
      pu := { PlacementUnit.reset with target := some 0 } }
    let b := fun r => ({ beat 0 2 0 with resync := r } : BeatFields)
    (∀ c ∈ [Instr.beatAccepted 0 (b false), .proposeAccepted 0 ⟨4, 0, 9, 2, 0xFFFF00⟩, .objectAccepted 0 ⟨3, 9, 1⟩,
        .tripAccepted 0 ⟨0, 0⟩, .rosterQueryAccepted 0, .rosterReplyAccepted 0 ⟨3, 0, 0, 0, 0, 0, 0⟩],
      (sent c false memberState).InFlight 0 c)
    ∧ (∀ replaced, (sent (.beatAccepted 0 (b true)) replaced resync).InFlight 0 (.beatAccepted 0 (b true))
        ∧ (sent (.beatAccepted 0 (b true)) replaced resync).Settled)
    ∧ (sent (.rosterQueryAccepted 0) false followerState).InFlight 0 (.rosterQueryAccepted 0)
    ∧ resync.sc.station = .resync ∧ (b true).resync = true ∧ (resync.entry 0).state ≠ .absent
    ∧ resync.rt.entries.length = 16 ∧ (sent (.tripAccepted 0 ⟨0, 0⟩) false followerState).isFollower = true
    ∧ (b true).depth.toNat ≤ 8 ∧ (b true).lowestActive.toNat ≤ 16 ∧ (b true).activeCount.toNat ≤ 16 := by
  refine ⟨?_, ?_, inFlight (by decide) rfl rfl, by decide, by decide, by decide, by decide, by decide, by decide, by decide,
    by decide⟩
  · intro c hc
    refine inFlight (by decide +revert) rfl ?_
    revert c
    decide
  · intro replaced
    refine ⟨inFlight (by decide +revert) rfl rfl, ?_⟩
    unfold State.Settled
    cases replaced <;> decide

theorem test_met_frames_at_a_member : memberState.isMember = true ∧ memberState.NotSending ∧ memberState.Settled
    ∧ memberState.rt.entries.length = 16 ∧ (memberState.entry 3).state ≠ .absent ∧ (memberState.entry 5).state = .absent := by
  refine ⟨by decide, notSending rfl rfl, ?_, by decide, by decide, by decide⟩
  unfold State.Settled
  decide

theorem test_met_StrangerRule : State.beatInRange (beat 16 16 0) = true ∧ State.beatInRange (beat 0 3 0) = true
    ∧ (beat 0 3 0).resync = false ∧ memberState.admitPending 5 = false
    ∧ (beat 0 3 0).lowestActive.toNat = lowestActive memberState.rt.entries
    ∧ activeCount memberState.rt.entries < (beat 0 3 0).activeCount.toNat
    ∧ (beat 1 3 0).lowestActive.toNat ≥ lowestActive memberState.rt.entries
    ∧ memberState.strangerRanksFirst (beat 16 16 0) = false := by decide

theorem test_met_BeatAtTheFollower :
    let fresh := inState .listen
    fresh.tb.enAdopted = false ∧ fresh.rt.copySource = .none ∧ (fresh.entry 3).state = .absent ∧ fresh.NotSending
    ∧ (3 : StationId) ≠ fresh.ownId ∧ followerState.tb.enAdopted = true ∧ followerState.hasCopy = true
    ∧ followerState.rt.armed = true ∧ (followerState.entry 3).state ≠ .absent ∧ (beat 3 1 0).en = followerState.tb.en
    ∧ (beat 3 1 0).digest = followerState.rt.epochDigest ∧ (beat 3 1 0).depth = 0 ∧ followerState.sc.standing = .held
    ∧ followerState.tb.state ≠ .locked ∧ ({ beat 3 1 0 with en := 1 } : BeatFields).en ≠ followerState.tb.en := by
  refine ⟨by decide, by decide, by decide, notSending rfl rfl, by decide, by decide, by decide, by decide, by decide,
    by decide, by decide, by decide, by decide, by decide, by decide⟩

/-- A BEAT of a station outside the roster with another EN, at a follower whose queue holds an own DEMAND with its ticket. -/
theorem test_met_another_epoch :
    let e : QueueEntry := ⟨⟨0, 9⟩, .demand 1, 4, .openPhase, true⟩
    let s := withEntry e (withTickets [ticket 9 .openState] { followerState with tb := TimeBase.reset })
    s.sc.station ∈ [StationState.listen, .resync] ∧ s.tb.enAdopted = false ∧ (s.entry 5).state = .absent
    ∧ ({ beat 3 1 0 with en := 1 } : BeatFields).en ≠ s.tb.en ∧ e.isLocal = true ∧ (ticket 9 .openState).unfinished = true
    ∧ (ticket 9 .openState).number = e.id.seq ∧ (ticket 9 .openState).kind.fits e.content = true
    ∧ (ticket 9 .openState).reserved = false ∧ s.NotSending := by
  refine ⟨by decide, by decide, by decide, by decide, by decide, by decide, by decide, by decide, by decide,
    notSending rfl rfl⟩

/-- A LOCKED listener with and without its own entry, and the same in RESYNC. -/
theorem test_met_entry_to_the_group :
    let locked := { followerState with tb := { followerState.tb with state := .locked } }
    let resync := { locked with sc := { locked.sc with station := .resync } }
    locked.isFollower = true ∧ locked.NotSending ∧ locked.tb.enAdopted = true ∧ locked.hasCopy = true
    ∧ locked.rt.armed = true ∧ locked.sc.standing = .held ∧ locked.sc.leavePending = false ∧ locked.sc.joinHoldoff = 0
    ∧ locked.ownEntry.state = .absent ∧ (withOwn .active locked).ownEntry.state ≠ .absent
    ∧ locked.classLatched .shed = false ∧ locked.bi.queue.length < 6 ∧ resync.sc.station = .resync
    ∧ resync.NotSending ∧ (beat 3 1 5).digest ≠ locked.rt.epochDigest
    ∧ ({ beat 3 1 5 with depth := 1 } : BeatFields).depth ≠ 0
    ∧ (tracking .joining false locked).isFollower = true
    ∧ (let sure := { locked with sc := { locked.sc with standing := .confirmed } }
       sure.sc.standing = .confirmed ∧ sure.sc.station = .listen ∧ sure.tb.state = .locked ∧ sure.sc.joinHoldoff = 0
       ∧ (withOwn .active sure).ownEntry.state ≠ .absent)
    ∧ 6 ≤ (withQueue (List.replicate 6 (queued .query)) locked).bi.queue.length := by
  refine ⟨by decide, notSending rfl rfl, by decide, by decide, by decide, by decide, by decide, by decide, by decide,
    by decide, by decide, by decide, by decide, notSending rfl rfl, by decide, by decide, by decide, by decide, by decide⟩

set_option maxRecDepth 10000 in
/-- F 1, 2, 15 and 16 epochs ahead, and the four kinds that have a condition of their own. -/
theorem test_met_ArrivalChecks :
    let at_ := fun (f : Word) (kind : BitVec 4) (value : BitVec 24) => (⟨kind, 0, 9, f, value⟩ : ProposeFields)
    memberState.lateCheck (at_ 1 4 0) ≠ none ∧ memberState.lateCheck (at_ 2 4 0) = none
    ∧ memberState.lateCheck (at_ 15 4 0) = none ∧ memberState.lateCheck (at_ 16 4 0) ≠ none
    ∧ (memberState.entry 5).state ≠ .active ∧ memberState.memberCheck 3 (at_ 2 4 0) = none
    ∧ contentOf (at_ 2 6 0) = none ∧ contentOf (at_ 2 1 0x000100) = some (.admission 1 .phase)
    ∧ (memberState.entry 3).state = .active ∧ memberState.memberCheck 5 (at_ 2 1 0x000100) = none
    ∧ (1 : Word) ≠ memberState.referenceFingerprint ∧ contentOf (at_ 2 2 0x010000) = some (.remove 0 .left)
    ∧ contentOf (at_ 2 3 0) = some .shed ∧ contentOf (at_ 2 5 0) = some (.clearTrip 0)
    ∧ memberState.fu.tripSet.getLsbD 0 = false ∧ memberState.kindCheck 3 (some (.demand 0)) = none
    ∧ (∃ e ∈ (withEntry { admitEntry .openPhase with id := ⟨3, 9⟩ } memberState).cq.entries, e.id = ⟨3, 9⟩)
    ∧ (∀ e ∈ memberState.cq.entries, e.id ≠ (⟨3, 9⟩ : ProposalId))
    ∧ memberState.memberCheck 5 (at_ 2 4 0) ≠ none ∧ followerState.isMember = false := by decide

set_option maxRecDepth 10000 in
theorem test_met_ProposeAccepted :
    let p : ProposeFields := ⟨4, 0, 9, 2, 0xFFFF00⟩
    memberState.arrivalRefusal 3 p = none ∧ contentOf p = some (.demand 0xFFFF)
    ∧ memberState.dutyMax < 0xFFFF ∧ memberState.ownEntry.holdsSlot = true ∧ memberState.bi.queue.length < 6
    ∧ (3 : StationId) ≠ memberState.ownId ∧ memberState.arrivalRefusal 3 { p with f := 1 } ≠ none
    ∧ followerState.isFollower = true ∧ followerState.hasCopy = true ∧ (inState .listen).hasCopy = false
    ∧ followerState.arrivalRefusal 3 p = none ∧ followerState.arrivalRefusal 5 p ≠ none
    ∧ contentOf ⟨5, 0, 9, 2, 0⟩ = some (.clearTrip memberState.ownId)
    ∧ contentOf ⟨2, 0, 9, 2, 0x020000⟩ = some (.remove memberState.ownId .lost)
    ∧ memberState.arrivalRefusal 3 ⟨2, 0, 9, 2, 0x020000⟩ = none := by decide

set_option maxRecDepth 10000 in
/-- The own DEMAND 9 and REMOVE(LEFT) 7 in flight, and the own ADMIT 7 of a joiner, refused for each kind of reason. -/
theorem test_met_ProposeAccepted_at_the_origin :
    let demand : ProposeFields := ⟨4, 0, 9, 2, 0x000100⟩
    let removal : ProposeFields := ⟨2, 0, 7, 1, 0x010000⟩
    let admission := fun (f : Word) (fp : Word) => (⟨1, 0, 7, f, fp ++ 0x00#8⟩ : ProposeFields)
    let sent := fun (p : ProposeFields) => sent (.proposeAccepted 0 p) false
    let s := sent demand (withTickets [ticket 9 .waiting] memberState)
    let leaving := sent removal (withTickets [leaveTicket false] (tracking .leaving false memberState))
    let joiner := sent (admission 2 0) (tracking .joining false followerState)
    (s.bi.attempt.map (·.frame)) = some (.proposeAccepted s.ownId demand) ∧ s.arrivalRefusal 0 demand = none
    ∧ (ticket 9 .waiting).unfinished = true ∧ (ticket 9 .waiting).number = demand.seq
    ∧ (ticket 9 .waiting).kind.fits (.demand 1) = true ∧ contentOf demand = some (.demand 1)
    ∧ leaving.arrivalRefusal 0 removal = some .late ∧ contentOf removal = some (.remove 0 .left)
    ∧ leaving.sc.station = .leaving ∧ leaving.sc.tracked = some ⟨0, removal.seq⟩ ∧ leaving.sc.leavePending = false
    ∧ joiner.sc.station = .joining ∧ joiner.hasCopy = true ∧ joiner.sc.tracked = some ⟨joiner.ownId, 7⟩
    ∧ joiner.arrivalRefusal joiner.ownId (admission 1 defaultFingerprint) = some .late
    ∧ joiner.arrivalRefusal joiner.ownId (admission 2 1) = some .fingerprint
    ∧ (let p := admission 2 defaultFingerprint
       let stopped := sent p (tracking .joining true followerState)
       stopped.isFollower = true ∧ contentOf p = some (.admission defaultFingerprint .phase)
       ∧ stopped.sc.leavePending = true ∧ stopped.arrivalRefusal 0 p = none ∧ stopped.sc.tracked = some ⟨0, p.seq⟩ ∧ stopped.withdrawalQueued ⟨0, 7⟩ = false
       ∧ stopped.busAfterOwn.queue.length < 6)
    ∧ s.busAfterOwn.queue.length < 6 ∧ s.sc.tracked ≠ some ⟨0, demand.seq⟩ := by decide

theorem test_met_ObjectAccepted :
    let e : QueueEntry := ⟨⟨3, 9⟩, .demand 5, 4, .openPhase, false⟩
    let s := withEntry e memberState
    s.cq.entries.find? (·.id = ⟨stationOfNibble 3, 9⟩) = some e ∧ objectReasonOf 1 = some .dutyLimit
    ∧ objectReasonOf 2 = some .withdrawn ∧ objectReasonOf 5 = none ∧ (s.entry 3).holdsSlot = true
    ∧ (3 : StationId) = e.id.origin ∧ e.phase = .openPhase
    ∧ memberState.cq.entries.find? (·.id = ⟨stationOfNibble 3, 9⟩) = none := by decide

set_option maxRecDepth 10000 in
/-- The own DEMAND 9 with its ticket, the tracked REMOVE(LEFT) 7 and ADMIT 7 each withdrawn, and a REMOVE(LOST) of station 3
that station 3 answers. -/
theorem test_met_ObjectAccepted_at_the_origin :
    let demand : QueueEntry := ⟨⟨0, 9⟩, .demand 1, 4, .openPhase, true⟩
    let removal : QueueEntry := ⟨⟨0, 7⟩, .remove 0 .left, 4, .openPhase, true⟩
    let loss : QueueEntry := ⟨⟨0, 9⟩, .remove 3 .lost, 4, .openPhase, true⟩
    let s := withEntry demand (withTickets [ticket 9 .openState] memberState)
    let leaving := withEntry removal (tracking .leaving false memberState)
    let joiner := fun leave => withEntry (admitEntry .openPhase) (tracking .joining leave followerState)
    s.cq.entries.find? (·.id = ⟨0, 9⟩) = some demand ∧ demand.isLocal = true ∧ s.objectionHolds demand 3 .dutyLimit
    ∧ (ticket 9 .openState).unfinished = true ∧ (ticket 9 .openState).number = demand.id.seq
    ∧ (ticket 9 .openState).kind.fits demand.content = true ∧ s.sc.tracked ≠ some demand.id
    ∧ leaving.cq.entries.find? (·.id = ⟨0, 7⟩) = some removal ∧ leaving.sc.tracked = some removal.id
    ∧ leaving.objectionHolds removal 0 .withdrawn ∧ leaving.sc.leavePending = false ∧ leaving.isMember = true
    ∧ (∀ leave, (joiner leave).cq.entries.find? (·.id = ⟨0, 7⟩) = some (admitEntry .openPhase)
        ∧ (joiner leave).sc.tracked = some (admitEntry .openPhase).id ∧ (joiner leave).hasCopy = true
        ∧ (joiner leave).objectionHolds (admitEntry .openPhase) 0 .withdrawn
        ∧ (sent (.objectAccepted 0 ⟨0, 7, 2⟩) false (joiner leave)).InFlight 0 (.objectAccepted 0 ⟨0, 7, 2⟩))
    ∧ (withEntry loss memberState).objectionHolds loss 3 .present ∧ (memberState.entry 3).state ≠ .absent
    ∧ ¬ s.objectionHolds demand 3 .withdrawn := by
  refine ⟨by decide, by decide, ⟨rfl, .inl ⟨rfl, by decide, 1, rfl⟩⟩, by decide, by decide, by decide, by decide, by decide,
    by decide, ⟨rfl, .inr (.inl ⟨rfl, rfl⟩)⟩, by decide, by decide, ?_, ⟨rfl, .inr (.inr (.inr ⟨rfl, rfl, 3, rfl⟩))⟩,
    by decide, ?_⟩
  · intro leave
    exact ⟨by cases leave <;> decide, rfl, rfl, ⟨rfl, .inr (.inl ⟨rfl, rfl⟩)⟩,
      inFlight (by decide +revert) rfl rfl⟩
  · rintro ⟨-, ⟨h, -⟩ | ⟨-, h⟩ | ⟨h, -⟩ | ⟨h, -⟩⟩ <;> revert h <;> decide

set_option maxRecDepth 10000 in
/-- A withdrawal owed and one asked for, with the entry OPEN, with room and without. -/
theorem test_met_offers_of_a_boundary :
    let owing := withEntry (admitEntry .openPhase) { tracking .joining true followerState with
      sc := { (tracking .joining true followerState).sc with withdrawOwed := true } }
    let asking := { ticket 9 .openState with withdrawRequest := true }
    let demand : QueueEntry := ⟨⟨0, 9⟩, .demand 1, 4, .openPhase, true⟩
    owing.sc.withdrawOwed = true ∧ owing.ownAdmit = some (admitEntry .openPhase)
    ∧ owing.withdrawalQueued ⟨0, 7⟩ = false ∧ owing.bi.queue.length < 6
    ∧ 6 ≤ (withQueue (List.replicate 6 (queued .query)) owing).bi.queue.length
    ∧ (withEntry (admitEntry .firm) owing).ownAdmit = some (admitEntry .firm) ∧ memberState.ownAdmit = none
    ∧ demand.isLocal = true ∧ demand.phase = .openPhase ∧ asking ∈ (withTickets [asking] memberState).sp.tickets
    ∧ asking.unfinished = true ∧ asking.number = demand.id.seq ∧ asking.kind.fits demand.content = true
    ∧ asking.withdrawRequest = true ∧ asking.withdrawQueued = false ∧ asking.reserved = false
    ∧ memberState.sc.withdrawOwed = false := by decide

theorem test_met_TripAccepted : followerState.isFollower = true ∧ followerState.hasCopy = true ∧ followerState.NotSending
    ∧ (3 : StationId) ≠ followerState.ownId ∧ followerState.fu.tripSet = 0 ∧ (inState .dormant).isMember = false
    ∧ (inState .dormant).isFollower = false ∧ (inState .dormant).NotSending := by
  refine ⟨by decide, by decide, notSending rfl rfl, by decide, by decide, by decide, by decide, notSending rfl rfl⟩

/-- The own CLEAR_TRIP of station 3 with its ticket, when station 3 trips again. -/
theorem test_met_a_second_trip :
    let e : QueueEntry := ⟨⟨0, 9⟩, .clearTrip 3, 4, .openPhase, true⟩
    let z := { ticket 9 .openState with kind := .clearTrip 3 }
    let s := withEntry e (withTickets [z] memberState)
    e ∈ s.cq.entries ∧ e.content = .clearTrip 3 ∧ e.isLocal = true ∧ z.unfinished = true ∧ z.number = e.id.seq
    ∧ z.kind.fits e.content = true ∧ z.reserved = false ∧ s.isMember = true := by decide

/-- Replies that pend, and the need for a roster with the countdown at 0, 1 and 2. -/
theorem test_met_replies_and_queries :
    let pends := { memberState with rt := { memberState.rt with pendingReplies := 8 } }
    let asks := fun n => { inState .listen with
      tb := { TimeBase.reset with state := .locked }, rt := { RosterTable.reset with countdown := n } }
    pends.isMember = true ∧ pends.rt.pendingReplies.getLsbD 3 = true ∧ pends.hasQueued (·.repliesTo 3) = false
    ∧ pends.bi.queue.length < 6 ∧ (withQueue [queued (.reply 3)] pends).hasQueued (·.repliesTo 3) = true
    ∧ 6 ≤ (withQueue (List.replicate 6 (queued (.reply 1))) pends).bi.queue.length
    ∧ memberState.rt.pendingReplies.getLsbD 3 = false ∧ (asks 2).needsRoster = true ∧ 1 < (asks 2).rt.countdown
    ∧ (asks 1).needsRoster = true ∧ (asks 1).rt.countdown ≤ 1 ∧ (asks 1).hasQueued (·.isQuery) = false
    ∧ (withQueue [queued .query] (asks 0)).hasQueued (·.isQuery) = true ∧ (asks 0).bi.queue.length < 6
    ∧ 6 ≤ (withQueue (List.replicate 6 (queued (.reply 1))) (asks 0)).bi.queue.length
    ∧ (inState .listen).needsRoster = false ∧ (inState .listen).isFollower = true ∧ memberState.isFollower = false := by
  decide

theorem test_met_RosterQueryAccepted :
    let owing := withQueue [queued (.reply 3)] memberState
    let crowded := withQueue (List.replicate 6 (queued (.reply 1))) memberState
    (0 : StationId) = memberState.ownId ∧ owing.hasQueued (·.repliesTo 3) = true
    ∧ memberState.hasQueued (·.repliesTo 3) = false ∧ memberState.bi.queue.length < 6
    ∧ crowded.hasQueued (·.repliesTo 3) = false ∧ 6 ≤ crowded.bi.queue.length := by decide

set_option maxRecDepth 10000 in
theorem test_met_RosterReplyAccepted :
    let r : ReplyFields := ⟨0, 7, 0x4000000000000000, 0, 0, digestOfCode 0x4000000000000000 0 0, 0⟩
    (inState .listen).sc.station = .listen ∧ (inState .listen).rt.copySource = .none
    ∧ (inState .listen).rt.expectedKey = none ∧ (3 : StationId) ≠ (inState .listen).ownId
    ∧ (State.entriesOfCode r.roster r.en).isSome = true ∧ stationOfNibble r.asker = (inState .listen).ownId
    ∧ r.digest = digestOfCode r.roster r.duty r.tripSet
    ∧ State.entriesOfCode 0x1000000000000000 0 = none ∧ stationOfNibble 1 ≠ (inState .listen).ownId
    ∧ (let resync := fun key => { inState .resync with
         rt := { RosterTable.reset with copySource := .old, expectedKey := some key } }
       (resync 0).isFollower = true ∧ (resync 0).sc.station = .resync ∧ (resync 0).rt.copySource = .old
       ∧ (State.entriesOfCode r.roster r.en).map lowestActive = some 0
       ∧ (State.entriesOfCode r.roster r.en).bind (slotOf · (resync 0).ownId) = some 0
       ∧ (State.entriesOfCode 0x0400000000000000 r.en).bind (slotOf · (resync 1).ownId) = none
       ∧ (State.entriesOfCode 0x0400000000000000 r.en).map lowestActive = some 1) := by decide

/-- A BEAT out of range in each of the three fields, by one; and the stations that a frame of no block leaves as they were. -/
theorem test_met_FramesHandedToNoBlock : followerState.NotSending ∧ followerState.Settled ∧ followerState.sc.station = .listen
    ∧ (3 : StationId) ≠ followerState.ownId ∧ memberState.Settled ∧ memberState.isMember = true
    ∧ (inState .resync).sc.station = .resync ∧ (inState .joining).Settled
    ∧ 8 < ({ beat 0 1 0 with depth := 9 } : BeatFields).depth.toNat ∧ 16 < (beat 17 1 0).lowestActive.toNat
    ∧ 16 < (beat 0 17 0).activeCount.toNat
    ∧ (inState .joining).NotSending ∧ (inState .joining).ownId = 0
    ∧ (inState .joining).sc.station ∈ [StationState.listen, .joining] ∧ (inState .dormant).sc.station = .dormant := by
  unfold State.Settled
  refine ⟨notSending rfl rfl, by decide, by decide, by decide, by decide, by decide, by decide, by decide, by decide, by decide,
    by decide, notSending rfl rfl, by decide, by decide, by decide⟩

theorem test_met_round_trips : encodeFrame (.rosterQueryAccepted 15) = some (15, ⟨5, 0xC, 0⟩, [])
    ∧ encodeCommand (.readTicket 255) = some [0x08, 0xFF] ∧ (Instr.readTicket 255).wf = true := by decide

theorem test_met_RosterCoding :
    let four := (((List.replicate 16 RosterEntry.absentEntry).set 1 (present .active)).set 3 (present .active)).set 6
      (present .active) |>.set 8 (present .active)
    ∀ i : StationId, (four.getD i.val RosterEntry.absentEntry).state
        = (if i ∈ [(1 : StationId), 3, 6, 8] then .active else .absent)
      ∧ (four.getD i.val RosterEntry.absentEntry).kind = .phase := by decide

theorem test_met_SlotsAreRanks : slotOf memberState.rt.entries 0 = some 0 ∧ slotOf memberState.rt.entries 3 = some 1
    ∧ (0 : Nat) < phaseCount memberState.rt.entries := by decide

theorem test_met_StepKeepsInv : memberState.Inv := by
  refine ⟨by unfold OutputStage.GatesOk; decide, ?_, by unfold State.LockOk; decide, ⟨by decide, by decide, by decide, by decide⟩⟩
  unfold State.Settled
  decide

theorem test_met_InvKeepsOutputsSafe : (inState .listen).isMember = false
    ∧ ({ memberState with fu := { FaultUnit.reset with tripSet := 1 } } : State).fu.tripSet ≠ 0 := by decide

theorem test_met_CommandFrame : Instr.stop ≠ .deviceReset ∧ (inState .listen).sp.locked = true
    ∧ exec .readId memberState = .next (memberState.withResponse [0x00, 0x0F, 0x3A, 0x04, 0x16, 0x01])
    ∧ ({ memberState with sp := { memberState.sp with events := 1 } } : State).hasEvent .state = true := by
  refine ⟨by decide, by decide, rfl, by decide⟩

theorem test_met_NothingHappensInSetup : State.reset.sc.station = .setup ∧ encodeCommand .naturalBoundary = none
    ∧ Instr.naturalBoundary ≠ .deviceReset ∧ Instr.naturalBoundary ≠ .portAbort := by decide

end Sys2Proof.Tests
end

section
/-! The adjustment of the raw compare (R142): one equation per row of its table, the duty whose compare is the whole
period (R140), and what check 12 of START says of MIN_PULSE (R175). -/

namespace Sys2Proof.Machine

/-! ### The rows of the adjustment (R142) -/

@[simp] theorem adjustCompare_period (period length minPulse : Nat) :
    adjustCompare period period length minPulse = length := if_pos rfl

@[simp] theorem adjustCompare_zero {period : Nat} (length minPulse : Nat) (hp : 0 ≠ period) :
    adjustCompare 0 period length minPulse = 0 := by
  simp [adjustCompare, hp]

theorem adjustCompare_of_lt_minPulse {raw period minPulse : Nat} (length : Nat) (hp : raw ≠ period)
    (hlow : raw < minPulse) : adjustCompare raw period length minPulse = 0 := by
  simp [adjustCompare, hp, hlow]

theorem adjustCompare_of_length_lt {raw period length minPulse : Nat} (hp : raw ≠ period) (h0 : raw ≠ 0)
    (hlow : minPulse ≤ raw) (hhigh : length < raw + minPulse) :
    adjustCompare raw period length minPulse = length := by
  simp [adjustCompare, hp, h0, Nat.not_lt.mpr hlow, hhigh]

theorem adjustCompare_of_fits {raw period length minPulse : Nat} (hp : raw ≠ period) (h0 : raw ≠ 0)
    (hlow : minPulse ≤ raw) (hfits : raw + minPulse ≤ length) :
    adjustCompare raw period length minPulse = raw := by
  simp [adjustCompare, hp, h0, Nat.not_lt.mpr hlow, Nat.not_lt.mpr hfits]

/-- Only the last row keeps the raw compare, and there both pulses have room; every other row drops a pulse. -/
theorem adjustCompare_pulses (raw period length minPulse : Nat) :
    let cmp := adjustCompare raw period length minPulse
    cmp = 0 ∨ cmp = length ∨ (minPulse ≤ cmp ∧ cmp + minPulse ≤ length) := by
  intro cmp
  obtain rfl | hp := eq_or_ne raw period
  · exact .inr (.inl (adjustCompare_period ..))
  obtain rfl | h0 := eq_or_ne raw 0
  · exact .inl (adjustCompare_zero _ _ hp)
  obtain hlow | hlow := Nat.lt_or_ge raw minPulse
  · exact .inl (adjustCompare_of_lt_minPulse _ hp hlow)
  obtain hhigh | hfits := Nat.lt_or_ge length (raw + minPulse)
  · exact .inr (.inl (adjustCompare_of_length_lt hp h0 hlow hhigh))
  · have hkept : cmp = raw := adjustCompare_of_fits hp h0 hlow hfits
    exact .inr (.inr (hkept ▸ ⟨hlow, hfits⟩))

/-! ### The compare of a duty against the period (R140) -/

theorem compareOf_le_period (duty : Word) (period : Nat) : compareOf duty period ≤ period := by
  have hduty : duty.toNat ≤ 65535 := Nat.le_of_lt_succ duty.isLt
  calc duty.toNat * period / 65535
      ≤ 65535 * period / 65535 := Nat.div_le_div_right (Nat.mul_le_mul_right period hduty)
    _ = period := Nat.mul_div_cancel_left period (by decide)

theorem compareOf_eq_period_iff {duty : Word} {period : Nat} (hpos : 0 < period) :
    compareOf duty period = period ↔ duty = 0xFFFF := by
  have hreach : period ≤ compareOf duty period ↔ 65535 ≤ duty.toNat := by
    rw [compareOf, Nat.le_div_iff_mul_le (by decide), Nat.mul_comm period, Nat.mul_le_mul_right_iff hpos]
  have hle := compareOf_le_period duty period
  constructor
  · intro heq
    have hfull := hreach.mp heq.ge
    bv_omega
  · rintro rfl
    exact le_antisymm hle (hreach.mpr (by decide))

/-- Neither compare exceeds the period, so the smaller of the two is the period only if both are. -/
theorem rawCompare_eq_period_iff {duty dutyMax : Word} {period : Nat} (hpos : 0 < period) :
    min (compareOf duty period) (compareOf dutyMax period) = period ↔ duty = 0xFFFF ∧ dutyMax = 0xFFFF := by
  have hduty := compareOf_le_period duty period
  have hlimit := compareOf_le_period dutyMax period
  rw [← compareOf_eq_period_iff (duty := duty) hpos, ← compareOf_eq_period_iff (duty := dutyMax) hpos]
  omega

/-! ### What check 12 of START gives (R175) -/

theorem startValid_minPulse {r : SetupRecord} (h : startValid r) :
    2 * recordNat2 r 10 ≤ recordNat2 r 12 ∧ 2 * (recordNat2 r 10 + recordNat2 r 12) < recordNat2 r 4 := by
  obtain ⟨-, -, hroom, hmin⟩ := h 12
  exact ⟨hmin, hroom⟩

/-- Settles O28: the rows and their consequence by the lemmas of the adjustment, the worked table by evaluation. -/
theorem compareAdjustment : Obligations.CompareAdjustment := by
  unfold Obligations.CompareAdjustment
  refine ⟨fun raw period length minPulse => ⟨?whole, ?absent, ?short, ?high, ?kept, ?pulses⟩,
    fun _ _ _ hpos => rawCompare_eq_period_iff hpos, fun _ => startValid_minPulse, ?table⟩
  case whole => rintro rfl; exact adjustCompare_period ..
  case absent => rintro hp rfl; exact adjustCompare_zero _ _ hp
  case short => exact adjustCompare_of_lt_minPulse length
  case high => exact adjustCompare_of_length_lt
  case kept => exact adjustCompare_of_fits
  case pulses => exact adjustCompare_pulses ..
  case table => decide

end Sys2Proof.Machine
end

section
/-! The record of one fault input (R152): what its update and the work of an activation (R154, R165, R167) do to the three
records. FAULT_ACK by the first condition that applies (R157): one equation per row of its table. -/

namespace Sys2Proof.Machine
namespace State

variable {b : Byte} {i j : InputNo} {s t : State}

/-! ### The input records after the update of one (R152) -/

@[simp] theorem inputRecord_modInput_same (i : InputNo) (f : InputRecord → InputRecord) (s : State) :
    (s.modInput i f).inputRecord i = f (s.inputRecord i) := by
  cases i <;> rfl

theorem inputRecord_modInput_ne (f : InputRecord → InputRecord) (s : State) (hne : j ≠ i) :
    (s.modInput i f).inputRecord j = s.inputRecord j := by
  cases i <;> cases j <;> simp [modInput, inputRecord] at hne ⊢

/-- Outside the input records `modInput` changes nothing. -/
theorem modInput_frame (i : InputNo) (f : InputRecord → InputRecord) (s : State) : ∃ r0 r1 r2,
    s.modInput i f = { s with fu := { s.fu with flt0 := r0, flt1 := r1, flt2 := r2 } } := by
  cases i <;> exact ⟨_, _, _, rfl⟩

/-! ### What keeps the input records -/

/-- The three input records lie in the Fault Unit, apart from its shed frame and its readmit frame. -/
theorem inputRecord_of_fu {shed readmit : Option ProposalId}
    (h : t.fu = { s.fu with shedFrame := shed, readmitFrame := readmit }) (i : InputNo) :
    t.inputRecord i = s.inputRecord i := by
  cases i <;> simp only [inputRecord, h]

@[simp] theorem inputRecord_withResponse (bytes : List Byte) (s : State) (i : InputNo) :
    (s.withResponse bytes).inputRecord i = s.inputRecord i :=
  inputRecord_of_fu rfl i

@[simp] theorem inputRecord_raise (e : Event) (s : State) (i : InputNo) :
    (s.raise e).inputRecord i = s.inputRecord i :=
  inputRecord_of_fu rfl i

@[simp] theorem inputRecord_settle (s : State) (i : InputNo) : s.settle.inputRecord i = s.inputRecord i := by
  obtain ⟨pu, os, ev, h, -, -⟩ := settle_frame s
  exact inputRecord_of_fu (by rw [h]) i

@[simp] theorem inputRecord_shedTest (s : State) (i : InputNo) : s.shedTest.inputRecord i = s.inputRecord i := by
  obtain ⟨q, seq, shed, readmit, h⟩ := shedTest_frame s
  exact inputRecord_of_fu (by rw [h]) i

@[simp] theorem inputRecord_withdrawalTest (s : State) (i : InputNo) :
    s.withdrawalTest.inputRecord i = s.inputRecord i := by
  obtain ⟨q, shed, readmit, h⟩ := withdrawalTest_frame s
  exact inputRecord_of_fu (by rw [h]) i

@[simp] theorem inputRecord_fillTripSlot (f : TripFields) (s : State) (i : InputNo) :
    (s.fillTripSlot f).inputRecord i = s.inputRecord i :=
  inputRecord_of_fu rfl i

/-- The class effects of an activation leave every input record as the activation made it (R154). -/
@[simp] theorem inputRecord_activationEffects (i j : InputNo) (s : State) :
    (s.activationEffects i).inputRecord j = s.inputRecord j := by
  unfold activationEffects
  split
  · rw [inputRecord_withdrawalTest, inputRecord_shedTest]
  · exact doIf_keeps (P := (inputRecord · j)) (inputRecord_fillTripSlot ..)
  · rfl
  · rfl

/-! ### Activation (R154) -/

/-- The record of an input after its activation. -/
theorem inputRecord_activateInput_same (i : InputNo) (s : State) : (s.activateInput i).inputRecord i
    = { active := true, disagree := 0, latched := true, ackArmed := false
        activations := min 255 ((s.inputRecord i).activations + 1) } := by
  simp [activateInput]

theorem faultActivation_of_inactive (hev : s.evaluates i = true) (hact : (s.inputRecord i).active = false) :
    s.faultActivation i = s.activateInput i := by
  simp [faultActivation, hev, hact]

/-! ### FAULT_ACK (R157) -/

theorem inputOfByte_eq_none (hb : 2 < b.toNat) : inputOfByte b = none := by
  unfold inputOfByte
  split
  case h_4 => rfl
  all_goals omega

theorem respond_nil (st : Status) (s : State) : s.respond st [] = s.withResponse [st.code] := rfl

theorem faultAck_of_setup (b : Byte) (hsetup : s.sc.station = .setup) : s.faultAck b = s.withResponse [0x10] := by
  simp [faultAck, hsetup, respond_nil, Status.code]

theorem faultAck_of_no_input (hst : s.sc.station ≠ .setup) (hb : inputOfByte b = none) :
    s.faultAck b = s.withResponse [0x30] := by
  simp [faultAck, hst, hb, respond_nil, Status.code]

theorem faultAck_of_not_latched (hst : s.sc.station ≠ .setup) (hb : inputOfByte b = some i)
    (hl : (s.inputRecord i).latched = false) : s.faultAck b = s.withResponse [0x31] := by
  simp [faultAck, hst, hb, hl, respond_nil, Status.code]

theorem faultAck_of_auto (hst : s.sc.station ≠ .setup) (hb : inputOfByte b = some i)
    (hl : (s.inputRecord i).latched = true) (hm : (s.input i).manual = false) :
    s.faultAck b = s.withResponse [0x32] := by
  simp [faultAck, hst, hb, hl, hm, respond_nil, Status.code]

theorem faultAck_of_active (hst : s.sc.station ≠ .setup) (hb : inputOfByte b = some i)
    (hl : (s.inputRecord i).latched = true) (hm : (s.input i).manual = true) (ha : (s.inputRecord i).active = true) :
    s.faultAck b = s.withResponse [0x33] := by
  simp [faultAck, hst, hb, hl, hm, ha, respond_nil, Status.code]

theorem faultAck_accepted (hst : s.sc.station ≠ .setup) (hb : inputOfByte b = some i)
    (hl : (s.inputRecord i).latched = true) (hm : (s.input i).manual = true) (ha : (s.inputRecord i).active = false) :
    s.faultAck b = (s.modInput i fun r => { r with ackArmed := true }).withResponse [0x00] := by
  simp [faultAck, hst, hb, hl, hm, ha, respond_nil, Status.code]

/-- What an acceptance changes and what it leaves: one mark of one input record, and the response. -/
theorem acknowledged_frame (i : InputNo) (s : State) :
    let t := (s.modInput i fun r => { r with ackArmed := true }).withResponse [0x00]
    t.sp = { s.sp with response := [0x00] } ∧ t.inputRecord i = { s.inputRecord i with ackArmed := true }
      ∧ (∀ j, j ≠ i → t.inputRecord j = s.inputRecord j)
      ∧ t.fu.tripSet = s.fu.tripSet ∧ t.fu.lastTrip = s.fu.lastTrip
      ∧ t.fu.shedFrame = s.fu.shedFrame ∧ t.fu.readmitFrame = s.fu.readmitFrame
      ∧ t = { s with fu := t.fu, sp := t.sp } := by
  intro t
  obtain ⟨htrip, hlast, hshed, hreadmit⟩ : t.fu.tripSet = s.fu.tripSet ∧ t.fu.lastTrip = s.fu.lastTrip
      ∧ t.fu.shedFrame = s.fu.shedFrame ∧ t.fu.readmitFrame = s.fu.readmitFrame := by
    obtain ⟨r0, r1, r2, h⟩ := modInput_frame i (fun r => { r with ackArmed := true }) s
    simp [t, h, withResponse]
  have hsame : t.inputRecord i = { s.inputRecord i with ackArmed := true } := by simp [t]
  have hother (j : InputNo) (hne : j ≠ i) : t.inputRecord j = s.inputRecord j := by
    simp [t, inputRecord_modInput_ne _ _ hne]
  exact ⟨rfl, hsame, hother, htrip, hlast, hshed, hreadmit, rfl⟩

end State

/-! ### The two commands -/

theorem exec_faultAck (b : Byte) (s : State) : exec (.faultAck b) s = .next (s.faultAck b) := rfl

theorem exec_faultActivation (i : InputNo) (s : State) :
    exec (.faultActivation i) s = .next (s.faultActivation i) := rfl

/-- Settles O18, row by row of R157's table; that an activation consumes the acknowledgement is the record it leaves
(R154). -/
theorem faultAcknowledge : Obligations.FaultAcknowledge := by
  unfold Obligations.FaultAcknowledge
  intro b s
  simp only [exec_faultAck, exec_faultActivation]
  refine ⟨fun hsetup => ?setup, fun hst hb => ?noInput, fun i hst hb =>
    ⟨fun hl => ?notLatched, fun hl hm => ?auto, fun hl hm ha => ?active, fun hl hm ha => ?accepted,
      fun hev ha => ?consumed⟩⟩
  case setup => rw [State.faultAck_of_setup b hsetup]
  case noInput => rw [State.faultAck_of_no_input hst (State.inputOfByte_eq_none hb)]
  case notLatched => rw [State.faultAck_of_not_latched hst hb hl]
  case auto => rw [State.faultAck_of_auto hst hb hl hm]
  case active => rw [State.faultAck_of_active hst hb hl hm ha]
  case accepted => exact ⟨_, congrArg _ (State.faultAck_accepted hst hb hl hm ha), State.acknowledged_frame i s⟩
  case consumed =>
    refine ⟨_, congrArg _ (State.faultActivation_of_inactive hev ha), ?_⟩
    rw [State.inputRecord_activateInput_same]

end Sys2Proof.Machine
end

section
/-! The event set as a set of bits (R186, R187): which bit a raise sets, which bits CLEAR_EVENTS and SET_EVENT_MASK leave,
and when ATTN is asserted. READ_ID's fixed answer (R188). -/

namespace Sys2Proof.Machine

/-! ### Bits and bytes -/

/-- Every bit of the event set stands for an event (R196). -/
theorem Event.exists_index_eq {i : Nat} (hi : i < 17) : ∃ e : Event, e.index = i := by
  interval_cases i
  exacts [⟨.state, rfl⟩, ⟨.lock, rfl⟩, ⟨.timeStep, rfl⟩, ⟨.strayMark, rfl⟩, ⟨.roster, rfl⟩, ⟨.placed, rfl⟩,
    ⟨.ticket, rfl⟩, ⟨.faultOn, rfl⟩, ⟨.faultOff, rfl⟩, ⟨.tripOn, rfl⟩, ⟨.tripOff, rfl⟩, ⟨.clamp, rfl⟩,
    ⟨.lateObjection, rfl⟩, ⟨.txAbandoned, rfl⟩, ⟨.bodyClash, rfl⟩, ⟨.line, rfl⟩, ⟨.portAbort, rfl⟩]

theorem Event.index_lt (e : Event) : e.index < 17 := by cases e <;> decide

@[simp] theorem Event.getLsbD_bit_index (e : Event) : e.bit.getLsbD e.index = true := by cases e <;> rfl

/-- Two sets of bits have a common bit exactly where their intersection is not empty. -/
theorem and_ne_zero_iff_exists_getLsbD {w : Nat} (x y : BitVec w) :
    x &&& y ≠ 0#w ↔ ∃ i < w, x.getLsbD i = true ∧ y.getLsbD i = true := by
  have hempty : x &&& y = 0#w ↔ ∀ i < w, (x &&& y).getLsbD i = false := by
    constructor
    · intro h i _
      rw [h, BitVec.getLsbD_zero]
    · intro h
      exact BitVec.eq_of_getLsbD_eq fun i hi => by rw [h i hi, BitVec.getLsbD_zero]
  simp [hempty]

theorem toNat_append_byte {w : Nat} (x : BitVec w) (b : Byte) : (x ++ b).toNat = 256 * x.toNat + b.toNat := by
  rw [BitVec.toNat_append, ← Nat.shiftLeft_add_eq_or_of_lt b.isLt, Nat.shiftLeft_eq, Nat.mul_comm]

/-- The three bytes of a number, joined again, are its low 24 bits. -/
theorem threeBytes_join (n : Nat) :
    BitVec.ofNat 8 (n / 65536) ++ BitVec.ofNat 8 (n / 256) ++ BitVec.ofNat 8 n = BitVec.ofNat 24 n := by
  apply BitVec.eq_of_toNat_eq
  simp only [toNat_append_byte, BitVec.toNat_ofNat]
  omega

namespace State

/-! ### The event set (R187) -/

variable {s : State}

theorem hasEvent_raise_same (e : Event) (s : State) : (s.raise e).hasEvent e = true := by
  simp [hasEvent]

theorem getLsbD_events_clearEvents {i : Nat} (hi : i < 17) (m : BitVec 24) (s : State) :
    (s.clearEvents m).sp.events.getLsbD i = (s.sp.events.getLsbD i && !m.getLsbD i) := by
  simp [clearEvents, hi]

theorem hasEvent_clearEvents (e : Event) (m : BitVec 24) (s : State) :
    (s.clearEvents m).hasEvent e = (s.hasEvent e && !m.getLsbD e.index) :=
  getLsbD_events_clearEvents e.index_lt m s

theorem attn_iff (s : State) : s.attn = true ↔ ∃ e : Event, s.hasEvent e = true ∧ s.sp.mask.getLsbD e.index = true := by
  rw [attn, decide_eq_true_iff, and_ne_zero_iff_exists_getLsbD]
  constructor
  · rintro ⟨i, hi, hset, hmask⟩
    obtain ⟨e, rfl⟩ := Event.exists_index_eq hi
    exact ⟨e, hset, hmask⟩
  · rintro ⟨e, hset, hmask⟩
    exact ⟨e.index, e.index_lt, hset, hmask⟩

/-- ATTN is active low, and high whatever the events while NRST is low (R187). -/
theorem attnPin_of_nrst_high (h : s.pins.nrst = true) : s.attnPin = !s.attn := by simp [attnPin, h]

theorem attnPin_of_nrst_low (h : s.pins.nrst = false) : s.attnPin = true := by simp [attnPin, h]

end State

/-! ### The commands on events and identification (R187, R188) -/

theorem exec_readEvents (s : State) : exec .readEvents s = .next (s.respond .accepted (threeBytes s.sp.events.toNat)) :=
  rfl

theorem exec_clearEvents (m : BitVec 24) (s : State) : exec (.clearEvents m) s = .next (s.clearEvents m) := rfl

theorem exec_setEventMask (m : BitVec 24) (s : State) : exec (.setEventMask m) s = .next (s.setEventMask m) := rfl

theorem exec_readId (s : State) : exec .readId s = .next (s.respond .accepted [0x0F, 0x3A, 0x04, 0x16, 0x01]) := rfl

/-- Settles O6: the three commands bit by bit, and ATTN by the events that stand in both sets. -/
theorem eventCommands : Obligations.EventCommands := by
  unfold Obligations.EventCommands
  refine ⟨fun s => ⟨_, _, _, ?read, exec_readEvents s⟩, fun m s => ⟨_, fun i hi => ?cleared, exec_clearEvents m s⟩,
    fun m s => ⟨_, fun i hi => ?masked, exec_setEventMask m s⟩,
    fun m e s => ⟨State.hasEvent_raise_same e _, fun hm => ?raisedThenCleared⟩, State.attn_iff,
    fun s => ⟨State.attnPin_of_nrst_high, State.attnPin_of_nrst_low⟩, rfl⟩
  case read => rw [threeBytes_join, BitVec.ofNat_toNat]
  case cleared => exact State.getLsbD_events_clearEvents hi m s
  case masked => simp [hi]
  case raisedThenCleared => rw [State.hasEvent_clearEvents, hm, Bool.not_true, Bool.and_false]

/-- Settles O5: the answer reads nothing of the state, so it is the same in every one. -/
theorem readIdentification : Obligations.ReadIdentification := by
  unfold Obligations.ReadIdentification
  exact exec_readId

end Sys2Proof.Machine
end

section
/-! The end of a transaction (R171, R172): a rise of SCS that finds a transaction in progress, and the byte that names no
command. -/

namespace Sys2Proof.Machine

/-! ### The bits of a byte -/

theorem bitsNat_byteBits (b : Byte) : bitsNat (byteBits b) = b.toNat := by
  have hstep (i : Nat) : 2 * (b.toNat / 2 ^ (i + 1)) + (b.getLsbD i).toNat = b.toNat / 2 ^ i := by
    rw [BitVec.getLsbD, Nat.toNat_testBit, pow_succ, ← Nat.div_div_eq_div_mul, Nat.div_add_mod]
  have htop : 2 * 0 + (b.getLsbD 7).toNat = b.toNat / 2 ^ 7 := by
    rw [← hstep 7, Nat.div_eq_of_lt b.isLt]
  simp only [byteBits, bitsNat, List.foldl_cons, List.foldl_nil]
  rw [htop, hstep 6, hstep 5, hstep 4, hstep 3, hstep 2, hstep 1, hstep 0, pow_zero, Nat.div_one]

@[simp] theorem bitsBytes_byteBits (b : Byte) : bitsBytes 1 (byteBits b) = [b] := by
  have htake : (byteBits b).take 8 = byteBits b := rfl
  simp [bitsBytes, htake, bitsNat_byteBits]

/-! ### Bytes that name no command (R172, R196) -/

/-- A byte without an entry in the table of commands has none of the codes that are decoded. -/
theorem decodeCommand_of_unnamed {code : Byte} (h : commandArgs code = none) :
    decodeCommand code [] = .unknownCommand code := by
  have hcode {n : Nat} (hn : code.toNat = n) : commandArgs (BitVec.ofNat 8 n) = none := by
    rwa [← hn, BitVec.ofNat_toNat, BitVec.setWidth_eq]
  unfold decodeCommand
  split
  case h_19 => rfl
  all_goals exact absurd (hcode ‹_›) (by decide)

namespace State

variable {x : Transaction} {s : State}

/-- A byte that names no command takes no arguments, so that the transaction is complete with it. -/
theorem completeCommand_of_unnamed {code : Byte} (h : commandArgs code = none) (hx : x.received = byteBits code) :
    completeCommand x = some (code, []) := by
  simp only [completeCommand, hx, bitsBytes_byteBits, h]
  rfl

/-! ### SCS rises (R172) -/

theorem portSelect_of_rise (hwas : s.sp.scsWas = false) (hscs : s.pins.scs = true) (hx : s.sp.transaction = some x) :
    s.portSelect = if !x.evaluated && !x.received.isEmpty then s.portAbort
      else s.modSp fun p => { p with transaction := none } := by
  simp [portSelect, hwas, hscs, hx]

theorem portSelect_of_incomplete (hwas : s.sp.scsWas = false) (hscs : s.pins.scs = true)
    (hx : s.sp.transaction = some x) (hev : x.evaluated = false) (hrec : x.received ≠ []) :
    s.portSelect = s.portAbort := by
  simp [portSelect_of_rise hwas hscs hx, hev, hrec]

theorem portSelect_of_no_bit (hwas : s.sp.scsWas = false) (hscs : s.pins.scs = true) (hx : s.sp.transaction = some x)
    (hrec : x.received = []) : s.portSelect = { s with sp := { s.sp with transaction := none } } := by
  simp [portSelect_of_rise hwas hscs hx, hrec, modSp]

end State

/-! ### The two commands -/

theorem exec_portAbort (s : State) : exec .portAbort s = .next s.portAbort := rfl

theorem exec_unknownCommand (code : Byte) (s : State) :
    exec (.unknownCommand code) s = .next (s.respond .unknownCommand []) := rfl

/-- Settles O7: the ends of a transaction by the cases of a rise of SCS, the unknown byte by the table of commands. -/
theorem abortedAndUnknownCommands : Obligations.AbortedAndUnknownCommands := by
  unfold Obligations.AbortedAndUnknownCommands
  refine ⟨exec_portAbort, fun x s hwas hscs hx hev hrec => ?incomplete, fun x s => State.portSelect_of_no_bit,
    exec_unknownCommand, fun code hcode =>
      ⟨decodeCommand_of_unnamed hcode, fun x => State.completeCommand_of_unnamed hcode⟩⟩
  case incomplete => rw [exec_portAbort, State.portSelect_of_incomplete hwas hscs hx hev hrec]

end Sys2Proof.Machine
end

section
/-! START in SETUP (R3, R175): the fifteen checks of the model against those of R175 one by one, the order number of the
first that fails, and what START with a valid record leaves behind. -/

namespace Sys2Proof.Machine

/-! ### The checks of R175, one by one -/

theorem inRange_iff {lo n hi : Nat} : inRange lo n hi = true ↔ lo ≤ n ∧ n ≤ hi := by simp [inRange]

/-- The action code of an input's mode byte is its number modulo 4 (R195). -/
theorem toNat_actionCode (b : Byte) : (b.extractLsb' 0 2).toNat = b.toNat % 4 := by simp [BitVec.extractLsb'_toNat]

theorem classOfByte_eq_shed_iff {b : Byte} : classOfByte b = .shed ↔ b.toNat = 2 := by
  unfold classOfByte
  split <;> simp_all

theorem inputCodesOk_iff (r : SetupRecord) (i : InputNo) : inputCodesOk r i = true ↔
    1 ≤ recordNat r (inputBase i) ∧ recordNat r (inputBase i) ≤ 15 ∧ recordNat r (inputBase i + 1) ≤ 3
      ∧ recordNat r (inputBase i + 2) % 4 ≤ 1 := by
  simp only [inputCodesOk, Bool.and_eq_true, inRange_iff, decide_eq_true_iff, toNat_actionCode, and_assoc]
  rfl

theorem observerInputOk_iff (r : SetupRecord) (i : InputNo) : observerInputOk r i = true ↔
    recordNat r (inputBase i + 1) ≠ 2 ∧ recordNat r (inputBase i + 2) % 4 ≠ 1 := by
  have haction : (recordByte r (inputBase i + 2)).extractLsb' 0 2 = 1#2 ↔ recordNat r (inputBase i + 2) % 4 = 1 := by
    rw [← BitVec.toNat_inj, toNat_actionCode]
    rfl
  have hclass : classOfByte (recordByte r (inputBase i + 1)) = .shed ↔ recordNat r (inputBase i + 1) = 2 :=
    classOfByte_eq_shed_iff
  simp [observerInputOk, inputSettings, hclass, haction]

/-- What holds of every input holds at each of the three places the record keeps them (R195). -/
theorem all_allInputs_iff {test : InputNo → Bool} {P : Nat → Prop} (h : ∀ i, test i = true ↔ P (inputBase i)) :
    allInputs.all test = true ↔ ∀ b ∈ [23, 26, 29], P b := by
  simp [allInputs, h, inputBase]

/-- Each of the model's checks is the check of R175 with its order number. -/
theorem getElem_setupChecks (r : SetupRecord) (i : Nat) (hi : i < (setupChecks r).length) :
    (setupChecks r)[i] = true ↔ startCheck r (i + 1) :=
  match i with
  | 0 => inRange_iff.trans (and_iff_right (Nat.zero_le _))
  | 1 => decide_eq_true_iff
  | 2 => by simp [setupChecks, startCheck]
  | 3 => decide_eq_true_iff
  | 4 | 5 | 6 | 7 | 8 => inRange_iff
  | 9 => all_allInputs_iff (inputCodesOk_iff r)
  | 10 => decide_eq_true_iff
  | 11 => by simp [setupChecks, startCheck, and_assoc]
  | 12 | 13 => inRange_iff
  | 14 => by
    have hinputs := all_allInputs_iff (P := fun b => recordNat r (b + 1) ≠ 2 ∧ recordNat r (b + 2) % 4 ≠ 1)
      (observerInputOk_iff r)
    simp only [setupChecks, startCheck, List.getElem_cons_succ, List.getElem_cons_zero, Bool.or_eq_true,
      decide_eq_true_iff, hinputs, ← imp_iff_not_or, ne_eq]
  | _ + 15 => absurd hi (by simp [setupChecks])

/-! ### The first check that fails -/

/-- The last check is number 15. -/
theorem startCheck_of_fifteen_lt {r : SetupRecord} {n : Nat} (h : 15 < n) : startCheck r n := by
  obtain ⟨k, rfl⟩ := Nat.exists_eq_add_of_lt h
  rw [show 15 + k + 1 = k + 16 by omega]
  trivial

/-- What is refused is refused with the order number of a check that fails after others that pass. -/
theorem validateSetup_some {r : SetupRecord} {n : Nat} (h : validateSetup r = some n) :
    ¬ startCheck r n ∧ ∀ m < n, startCheck r m := by
  obtain ⟨i, hfind, rfl⟩ := Option.map_eq_some_iff.mp h
  obtain ⟨hi, hfail, hbefore⟩ := List.findIdx?_eq_some_iff_getElem.mp hfind
  refine ⟨fun hok => ?fails, fun m hm => ?passes⟩
  case fails => simp [(getElem_setupChecks r i hi).mpr hok] at hfail
  case passes =>
    cases m with
    | zero => trivial
    | succ m =>
      have hm' : m < i := Nat.lt_of_succ_lt_succ hm
      exact (getElem_setupChecks r m (hm'.trans hi)).mp (by simpa using hbefore m hm')

/-- START is accepted exactly when every check passes (R175). -/
theorem validateSetup_eq_none_iff {r : SetupRecord} : validateSetup r = none ↔ startValid r := by
  constructor
  · intro h n
    have hpass : ∀ ok ∈ setupChecks r, ok = true := by
      simpa [validateSetup, firstFailure] using h
    cases n with
    | zero => trivial
    | succ i =>
      obtain hi | hi := Nat.lt_or_ge i (setupChecks r).length
      · exact (getElem_setupChecks r i hi).mp (hpass _ (List.getElem_mem hi))
      · exact startCheck_of_fifteen_lt (Nat.lt_succ_of_le hi)
  · intro hvalid
    cases h : validateSetup r with
    | none => rfl
    | some n => exact absurd (hvalid n) (validateSetup_some h).1

/-- START is refused with the order number of the first check that fails (R175), which is one number only. -/
theorem validateSetup_eq_some_iff {r : SetupRecord} {n : Nat} :
    validateSetup r = some n ↔ ¬ startCheck r n ∧ ∀ m < n, startCheck r m := by
  refine ⟨validateSetup_some, fun ⟨hfail, hbefore⟩ => ?_⟩
  cases h : validateSetup r with
  | none => exact absurd (validateSetup_eq_none_iff.mp h n) hfail
  | some k =>
    obtain ⟨hfail', hbefore'⟩ := validateSetup_some h
    have hkn : k = n := le_antisymm (Nat.le_of_not_lt fun hlt => hfail (hbefore' n hlt))
      (Nat.le_of_not_lt fun hlt => hfail' (hbefore k hlt))
    rw [hkn]

namespace State

variable {s : State}

/-! ### What a local cycle start leaves of the Station Controller -/

theorem settle_sc (s : State) : s.settle.sc = s.sc := samePlan_settle.sc

theorem reachTest_sc (s : State) : s.reachTest.sc = s.sc := by
  unfold reachTest
  repeat' split
  exacts [rfl, doIf_keeps (P := sc) rfl, rfl]

theorem enterRun_sc (s : State) : s.enterRun.sc = s.sc := by
  unfold enterRun
  split <;> rfl

theorem clampEvent_sc (s : State) : s.clampEvent.sc = s.sc := by
  unfold clampEvent
  repeat' split
  all_goals rfl

theorem placeCycle_sc (s : State) : s.placeCycle.sc = s.sc := by
  simp only [placeCycle, modPu_sc, reachTest_sc]

theorem cycleStart_sc (e : Bool) (s : State) : (s.cycleStart e).sc = s.sc := by
  simp only [cycleStart, regate, latchCompare, modOs_sc, clampEvent_sc, enterRun_sc, placeCycle_sc]

theorem pointForInput_sc (s : State) (i : InputNo) : (s.pointForInput i).sc = s.sc := by
  unfold pointForInput
  split
  · refine (doIf_keeps (P := sc) ?_).trans ?_
    · obtain ⟨q, seq, shed, readmit, h⟩ := readmissionTest_frame
        ((s.modInput i fun r => { r with latched := false, ackArmed := false }).raise .faultOff)
      rw [h]
    · rfl
  · rfl

theorem halfPoint_sc (s : State) : s.halfPoint.sc = s.sc :=
  (settle_sc _).trans (foldl_keeps (P := sc) pointForInput_sc _ s)

theorem startWithPoint_sc (e : Bool) (s : State) : (s.startWithPoint e).sc = s.sc := by
  simp only [startWithPoint, crossStart]
  repeat' split
  all_goals simp only [cycleStart_sc, halfPoint_sc, nextFree_sc]

/-! ### START from SETUP (R3) -/

theorem moveTo_station (new : StationState) (s : State) : (s.moveTo new).sc.station = new := by
  obtain ⟨bi, tb, key, replies, objections, shed, readmit, tickets, ev, h, -⟩ := moveTo_frame new s
  rw [h]

theorem enterListen_station (standing : FollowStanding) (holdoff : Nat) (s : State) :
    (s.enterListen standing holdoff).sc.station = .listen :=
  moveTo_station .listen s

theorem startFromSetup_station (s : State) : s.startFromSetup.sc.station = .listen := by
  simp only [startFromSetup, startWithPoint_sc, settle_sc, enterListen_station]

/-- The record in force: the record as written, locked, with its fingerprint (R3, R174, R176). -/
def lockRecord (s : State) : State :=
  s.modSp fun p => { p with locked := true, fingerprint := fingerprintOf p.record }

theorem steady_zeroPhase {w : Bool} {a b : State} (h : Steady w a b) : Steady w a { b with phase := 0 } :=
  ⟨h.record, h.locked, h.mask, h.events, h.pins, h.pending, h.gates, fun k => (h.capacities k).of id id id id, h.setup,
    h.counters⟩

theorem gatesOk_reset_inactiveRun (n : Nat) : ({ OutputStage.reset with inactiveRun := n } : OutputStage).GatesOk :=
  ⟨by simp [OutputStage.reset], fun _ => ⟨rfl, rfl⟩⟩

/-- Once it has locked the record, START leaves record and lock as they are. -/
theorem steady_startFromSetup (s : State) : Steady false s.lockRecord s.startFromSetup := by
  have htimeAndBus := steady_modBi (g := fun _ => { BusInterface.reset with line := .busy })
    (steady_modTb (g := fun _ => .reset) (Steady.rfl' (w := false) (a := s.lockRecord)) nofun) fun _ => Nat.zero_le 6
  have houtput := steady_modOs (g := fun _ => { OutputStage.reset with inactiveRun := s.lockRecord.deadtime })
    (steady_modPu (g := fun _ => { PlacementUnit.reset with length := s.lockRecord.period }) htimeAndBus)
    fun _ => gatesOk_reset_inactiveRun _
  have hforgotten := steady_forgetQueue (steady_forgetRoster (steady_modFu (g := fun _ => .reset) houtput))
  exact steady_startWithPoint (steady_settle (steady_enterListen (steady_zeroPhase hforgotten)))

theorem startFromSetup_locked (s : State) : s.startFromSetup.sp.locked = true := (steady_startFromSetup s).locked

theorem startFromSetup_record (s : State) : s.startFromSetup.sp.record = s.sp.record := (steady_startFromSetup s).record

theorem startCommand_of_refused {n : Nat} (hst : s.sc.station = .setup) (h : validateSetup s.sp.record = some n) :
    s.startCommand = s.withResponse [0x12, BitVec.ofNat 8 n] := by
  simp only [startCommand, hst, h]
  rfl

theorem startCommand_of_valid (hst : s.sc.station = .setup) (h : startValid s.sp.record) :
    s.startCommand = s.startFromSetup.respond .accepted [] := by
  simp only [startCommand, hst, validateSetup_eq_none_iff.mpr h]

end State

/-! ### The command -/

theorem exec_start (s : State) : exec .start s = .next s.startCommand := rfl

/-- The worked record of R175: PERIOD 1000 with the default EPOCH_LEN, 80. -/
theorem validateSetup_period_1000 : validateSetup
    0x00000103_03E8_0050_0020_0014_0028_F332_0010_0008_03_04_00_030000_030000_030000#256 = some 11 := by decide

/-- The same with EPOCH_LEN 132. -/
theorem validateSetup_period_1000_epochLen_132 : validateSetup
    0x00000103_03E8_0084_0020_0014_0028_F332_0010_0008_03_04_00_030000_030000_030000#256 = none := by decide

theorem validateSetup_defaultRecord : validateSetup defaultRecord = none := by decide

/-- Settles O8: each refusal and the acceptance by the validation, the worked records by evaluating it. -/
theorem startChecks : Obligations.StartChecks := by
  unfold Obligations.StartChecks
  simp only [exec_start]
  refine ⟨fun s n hst hfail hbefore => ?refused, fun s hst hvalid => ?accepted,
    validateSetup_eq_none_iff.mp validateSetup_defaultRecord, fun s hst hrec => ?period1000,
    validateSetup_eq_none_iff.mp validateSetup_period_1000_epochLen_132 11⟩
  case refused => rw [State.startCommand_of_refused hst (validateSetup_eq_some_iff.mpr ⟨hfail, hbefore⟩)]
  case accepted =>
    rw [State.startCommand_of_valid hst hvalid]
    refine ⟨_, rfl, ?_⟩
    simp [State.startFromSetup_station, State.startFromSetup_locked, State.startFromSetup_record, Status.code]
  case period1000 => rw [State.startCommand_of_refused hst (hrec ▸ validateSetup_period_1000)]; rfl

end Sys2Proof.Machine
end

section
/-! The check word (R189): its computation byte by byte, its step for each bit, its worked value and the bytes
that its three uses cover. -/

namespace Sys2Proof

/-! ### The bits of a byte -/

/-- Bit 7 is the first of a byte, bit 0 the last. -/
theorem byteBits_eq_map_range (b : Byte) : byteBits b = (List.range 8).map fun i => b.getLsbD (7 - i) := rfl

/-! ### The register -/

/-- The step of R189: the feedback is the exclusive or of the register's bit 15 and the data bit. -/
theorem checkBit_eq (reg : Word) (d : Bool) :
    checkBit reg d = if (reg.getLsbD 15 ^^ d) = true then (reg <<< 1) ^^^ 0x1021#16 else reg <<< 1 := by
  rw [checkBit, Bool.bne_eq_xor]

@[simp] theorem checkWord_nil : checkWord [] = 0xFFFF#16 := rfl

/-- The eight steps of one byte, bit 7 first. -/
def checkByte (reg : Word) (b : Byte) : Word := (byteBits b).foldl checkBit reg

/-- The check word is computed byte by byte. -/
theorem checkWord_eq_foldl_checkByte (bs : List Byte) : checkWord bs = bs.foldl checkByte 0xFFFF#16 := by
  rw [checkWord, bytesBits, List.foldl_flatMap]
  rfl

theorem checkWord_concat (bs : List Byte) (b : Byte) :
    checkWord (bs ++ [b]) = (byteBits b).foldl checkBit (checkWord bs) := by
  rw [checkWord_eq_foldl_checkByte, List.foldl_concat, ← checkWord_eq_foldl_checkByte, checkByte]

/-- The worked value of R189 over the bytes 31h to 39h, with the register after each of them. -/
theorem checkWord_digits : checkWord [0x31, 0x32, 0x33, 0x34, 0x35, 0x36, 0x37, 0x38, 0x39] = 0x29B1#16 := by
  have h1 : checkByte 0xFFFF#16 0x31 = 0xC782#16 := by decide
  have h2 : checkByte 0xC782#16 0x32 = 0x3DBA#16 := by decide
  have h3 : checkByte 0x3DBA#16 0x33 = 0x5BCE#16 := by decide
  have h4 : checkByte 0x5BCE#16 0x34 = 0x5349#16 := by decide
  have h5 : checkByte 0x5349#16 0x35 = 0x4560#16 := by decide
  have h6 : checkByte 0x4560#16 0x36 = 0x2EF4#16 := by decide
  have h7 : checkByte 0x2EF4#16 0x37 = 0x7718#16 := by decide
  have h8 : checkByte 0x7718#16 0x38 = 0xA12B#16 := by decide
  have h9 : checkByte 0xA12B#16 0x39 = 0x29B1#16 := by decide
  simp only [checkWord_eq_foldl_checkByte, List.foldl_cons, List.foldl_nil, h1, h2, h3, h4, h5, h6, h7, h8, h9]

/-! ### The three uses -/

/-- The frame check covers the header bytes and the payload, and is sent after them (R190). -/
theorem frameBits_eq (i : StationId) (h : FrameHeader) (payload : List Byte) : frameBits i h payload
    = false :: bytesBits (headerBytes i h ++ payload ++ wordBytes (checkWord (headerBytes i h ++ payload))) ++ [true] :=
  rfl

namespace Machine

theorem digestOfCode_eq (roster : BitVec 64) (duty trips : Word) :
    digestOfCode roster duty trips = checkWord (rosterBytes roster ++ wordBytes duty ++ wordBytes trips) := rfl

theorem fingerprintBytes_eq (r : SetupRecord) : fingerprintBytes r
    = [recordByte r 4, recordByte r 5, recordByte r 2, recordByte r 6, recordByte r 7, recordByte r 8, recordByte r 9,
      recordByte r 3, recordByte r 20, recordByte r 18, recordByte r 19] := rfl

/-- Settles O51: the computation by its steps over one bit and one byte, the worked value by evaluating it, the three uses
by the bytes each covers. (The name `checkWord` itself is the function's.) -/
theorem checkWord_spec : Obligations.CheckWord := by
  unfold Obligations.CheckWord
  refine ⟨checkWord_nil, checkWord_concat, byteBits_eq_map_range, checkBit_eq, checkWord_digits, frameBits_eq,
    digestOfCode_eq, fun r => ?fingerprint⟩
  case fingerprint => rw [fingerprintOf, fingerprintBytes_eq]

end Machine
end Sys2Proof
end

section
/-! Each command as the state it leaves (R-table of spec/opcode_table.json), what a step is, and the commands whose
statement is their definition read off: DEVICE_RESET (R1), WRITE_SETUP and READ_SETUP (R174, R176). -/

namespace Sys2Proof.Machine

/-! ### The state a command leaves -/

@[simp] theorem nextOf_next (t s : State) : nextOf (.next t) s = t := rfl

/-- Every command goes on: no row of the table stops the machine. -/
theorem exec_eq_next (c : Instr) (s : State) : exec c s = .next (nextOf (exec c s) s) := by
  cases c <;> rfl

theorem exec_eq_next_iff {c : Instr} {s t : State} : exec c s = .next t ↔ nextOf (exec c s) s = t := by
  rw [exec_eq_next c s]
  simp

@[simp] theorem exec_deviceReset (s : State) : exec .deviceReset s = .next s.deviceReset := rfl
@[simp] theorem exec_writeSetup (r : SetupRecord) (s : State) : exec (.writeSetup r) s = .next (s.writeSetup r) := rfl
@[simp] theorem exec_readSetup (s : State) : exec .readSetup s = .next s.readSetup := rfl
@[simp] theorem exec_stop (s : State) : exec .stop s = .next s.stopCommand := rfl
@[simp] theorem exec_restart (s : State) : exec .restart s = .next s.restartCommand := rfl
@[simp] theorem exec_readStatus (s : State) : exec .readStatus s = .next s.readStatus := rfl
@[simp] theorem exec_readRoster (s : State) : exec .readRoster s = .next s.readRoster := rfl
@[simp] theorem exec_readQueue (s : State) : exec .readQueue s = .next s.readQueue := rfl
@[simp] theorem exec_readFaults (s : State) : exec .readFaults s = .next s.readFaults := rfl
@[simp] theorem exec_submitDemand (d : Word) (s : State) : exec (.submitDemand d) s = .next (s.submitDemand d) := rfl
@[simp] theorem exec_submitClearTrip (b : Byte) (s : State) :
    exec (.submitClearTrip b) s = .next (s.submitClearTrip b) := rfl
@[simp] theorem exec_withdraw (n : Byte) (s : State) : exec (.withdraw n) s = .next (s.withdrawTicket n) := rfl
@[simp] theorem exec_readTicket (n : Byte) (s : State) : exec (.readTicket n) s = .next (s.readTicket n) := rfl
@[simp] theorem exec_naturalBoundary (s : State) : exec .naturalBoundary s = .next s.naturalBoundary := rfl
@[simp] theorem exec_markEdge (s : State) : exec .markEdge s = .next s.markEdge := rfl
@[simp] theorem exec_markRelease (s : State) : exec .markRelease s = .next s.markRelease := rfl
@[simp] theorem exec_holdoverEntry (s : State) : exec .holdoverEntry s = .next s.holdoverEntry := rfl
@[simp] theorem exec_markDriveEnd (h : Bool) (s : State) : exec (.markDriveEnd h) s = .next (s.markDriveEnd h) := rfl
@[simp] theorem exec_localCycleStart (s : State) : exec .localCycleStart s = .next s.localCycleStart := rfl
@[simp] theorem exec_compareMatch (s : State) : exec .compareMatch s = .next s.compareMatch := rfl
@[simp] theorem exec_deadtimeExpiry (s : State) : exec .deadtimeExpiry s = .next s.deadtimeExpiry := rfl
@[simp] theorem exec_halfCyclePoint (s : State) : exec .halfCyclePoint s = .next s.halfCyclePoint := rfl
@[simp] theorem exec_faultRelease (i : InputNo) (s : State) : exec (.faultRelease i) s = .next (s.faultRelease i) := rfl
@[simp] theorem exec_lineIdle (s : State) : exec .lineIdle s = .next s.lineIdle := rfl
@[simp] theorem exec_lineStuck (s : State) : exec .lineStuck s = .next s.lineStuck := rfl
@[simp] theorem exec_lineStuckRelease (s : State) : exec .lineStuckRelease s = .next s.lineStuckRelease := rfl
@[simp] theorem exec_transmissionAttempt (j : Bool) (s : State) :
    exec (.transmissionAttempt j) s = .next (s.transmissionAttempt j) := rfl
@[simp] theorem exec_arbitrationLost (s : State) : exec .arbitrationLost s = .next s.arbitrationLost := rfl
@[simp] theorem exec_bodyClash (s : State) : exec .bodyClash s = .next s.bodyClash := rfl
@[simp] theorem exec_driveReadbackFail (s : State) : exec .driveReadbackFail s = .next s.driveReadbackFail := rfl
@[simp] theorem exec_formatError (s : State) : exec .formatError s = .next s.formatError := rfl
@[simp] theorem exec_errorFlagEnd (s : State) : exec .errorFlagEnd s = .next s.errorFlagEnd := rfl
@[simp] theorem exec_frameDiscarded (r m : Bool) (s : State) :
    exec (.frameDiscarded r m) s = .next (s.frameDiscarded r m) := rfl
@[simp] theorem exec_frameMissed (v : Bool) (s : State) : exec (.frameMissed v) s = .next (s.frameMissed v) := rfl
@[simp] theorem exec_beatAccepted (i : StationId) (f : BeatFields) (s : State) : exec (.beatAccepted i f) s
    = .next (s.acceptFrame i (.beatAccepted i f) (State.handleBeat i f)) := rfl
@[simp] theorem exec_proposeAccepted (i : StationId) (p : ProposeFields) (s : State) : exec (.proposeAccepted i p) s
    = .next (s.acceptFrame i (.proposeAccepted i p) (State.handlePropose i p)) := rfl
@[simp] theorem exec_objectAccepted (i : StationId) (o : ObjectFields) (s : State) : exec (.objectAccepted i o) s
    = .next (s.acceptFrame i (.objectAccepted i o) (State.handleObject i o)) := rfl
@[simp] theorem exec_tripAccepted (i : StationId) (f : TripFields) (s : State) : exec (.tripAccepted i f) s
    = .next (s.acceptFrame i (.tripAccepted i f) (State.handleTrip i f)) := rfl
@[simp] theorem exec_rosterQueryAccepted (i : StationId) (s : State) : exec (.rosterQueryAccepted i) s
    = .next (s.acceptFrame i (.rosterQueryAccepted i) (State.handleQuery i)) := rfl
@[simp] theorem exec_rosterReplyAccepted (i : StationId) (r : ReplyFields) (s : State) :
    exec (.rosterReplyAccepted i r) s
      = .next (s.acceptFrame i (.rosterReplyAccepted i r) (State.handleReply r)) := rfl
@[simp] theorem exec_unownedFrameAccepted (i : StationId) (h : FrameHeader) (s : State) :
    exec (.unownedFrameAccepted i h) s = .next (s.acceptFrame i (.unownedFrameAccepted i h) id) := rfl

/-! ### The step -/

theorem step_of_pending {c : Instr} {rest : List Instr} {s : State} (h : s.pending = c :: rest) :
    step s = exec c { s with pending := rest } := by
  simp only [step, h]

theorem step_of_empty {s : State} (h : s.pending = []) : step s = .next s.tick := by
  simp only [step, h]

theorem step_continues (s : State) : Continues s := by
  cases h : s.pending with
  | nil => exact ⟨_, step_of_empty h⟩
  | cons c rest => exact ⟨_, (step_of_pending h).trans (exec_eq_next ..)⟩

/-- Settles O1. -/
theorem stepRunsTheFrontCommand : Obligations.StepRunsTheFrontCommand := by
  unfold Obligations.StepRunsTheFrontCommand
  exact ⟨fun _ _ _ => step_of_pending, fun _ => step_of_empty, step_continues⟩

/-! ### DEVICE_RESET (R1) -/

/-- The bytes of the default record (R195). -/
theorem recordBytes_defaultRecord : recordBytes defaultRecord =
    [0x00, 0x00, 0x01, 0x03, 0x07, 0xD0, 0x00, 0x50, 0x00, 0x20, 0x00, 0x14, 0x00, 0x28, 0xF3, 0x32,
     0x00, 0x10, 0x00, 0x08, 0x03, 0x04, 0x00, 0x03, 0x00, 0x00, 0x03, 0x00, 0x00, 0x03, 0x00, 0x00] := by decide

theorem fingerprintOf_defaultRecord : fingerprintOf defaultRecord = defaultFingerprint := by
  rw [fingerprintOf, fingerprintBytes, defaultFingerprint]

theorem period_deviceReset (s : State) : s.deviceReset.period = 2000 := by
  change recordNat2 defaultRecord 4 = 2000
  decide

theorem deadtime_deviceReset (s : State) : s.deviceReset.deadtime = 20 := by
  change recordNat2 defaultRecord 10 = 20
  decide

/-- Settles O2: every field but five is the reset value by its definition; PERIOD and DT are read from the default
record. -/
theorem deviceResetValues : Obligations.DeviceResetValues := by
  unfold Obligations.DeviceResetValues
  intro s
  have hinput (i : InputNo) : s.deviceReset.inputRecord i = ⟨false, 0, false, false, 0⟩ := by cases i <;> rfl
  have hfingerprint : s.deviceReset.sp.fingerprint = fingerprintOf s.deviceReset.sp.record := by
    simp only [State.deviceReset, State.reset, SetupPort.reset, fingerprintOf_defaultRecord]
  have hpins (h : s.deviceReset.pins.nrst = false) : s.deviceReset.ghPin = false ∧ s.deviceReset.glPin = false
      ∧ s.deviceReset.genPin = false ∧ s.deviceReset.attnPin = true := by
    simp [State.ghPin, State.glPin, State.genPin, State.attnPin, h]
  refine ⟨s.deviceReset, rfl, rfl, rfl, rfl, rfl, ?_⟩
  rw [period_deviceReset, deadtime_deviceReset]
  refine ⟨rfl, rfl, rfl, rfl, rfl, rfl, rfl, rfl, rfl, rfl, rfl, rfl, rfl, rfl, rfl, rfl, rfl, rfl, rfl, rfl, rfl, rfl,
    rfl, rfl, rfl, rfl, rfl, rfl, rfl, rfl, rfl, rfl, rfl, rfl, rfl, rfl, rfl, rfl, rfl, rfl, rfl, rfl, rfl, rfl, rfl,
    rfl, rfl, rfl, rfl, rfl, rfl, rfl, rfl, rfl, rfl, rfl, rfl, rfl, rfl, hinput, rfl, rfl, rfl, rfl,
    recordBytes_defaultRecord, rfl, hfingerprint, rfl, rfl, rfl, rfl, rfl, hpins⟩

/-! ### The setup record (R174, R176) -/

namespace State

theorem writeSetup_of_locked {s : State} (r : SetupRecord) (h : s.sp.locked = true) :
    s.writeSetup r = s.withResponse [0x11] := by
  rw [writeSetup, if_pos h]
  rfl

theorem writeSetup_of_unlocked {s : State} (r : SetupRecord) (h : s.sp.locked = false) : s.writeSetup r
    = { s with sp := { s.sp with record := r, fingerprint := fingerprintOf r, response := [0x00] } } := by
  rw [writeSetup, h, if_neg Bool.false_ne_true]
  rfl

end State

/-- Settles O3. -/
theorem setupRecordCommands : Obligations.SetupRecordCommands := by
  unfold Obligations.SetupRecordCommands
  intro r s
  refine ⟨fun hlocked => ?_, fun hunlocked => ?_, rfl, rfl⟩
  · rw [exec_writeSetup, State.writeSetup_of_locked r hlocked]
  · rw [exec_writeSetup, State.writeSetup_of_unlocked r hunlocked, fingerprintOf, fingerprintBytes_eq]

end Sys2Proof.Machine
end

section
/-! What every command keeps: each is steady (Laws/Steady.lean) but for those that write what steadiness keeps, and in
SETUP no event of the outside has an effect. -/

namespace Sys2Proof.Machine

variable {w : Bool} {c : Instr} {s t : State}

/-! ### Steadiness, command by command -/

/-- The commands that write what every other command keeps: the record, the lock, the event mask or a raised event. -/
def writesKept : Instr → Bool
  | .deviceReset | .writeSetup _ | .start | .clearEvents _ | .setEventMask _ => true
  | _ => false

/-- The commands that move the counters, EN or the last lead: a boundary, a mark edge, and the two frames that carry
an EN. -/
def movesClock : Instr → Bool
  | .naturalBoundary | .markEdge | .beatAccepted _ _ | .rosterReplyAccepted _ _ => true
  | _ => false

open State in
/-- Every command but those of `writesKept` is steady; those of `movesClock` with the clock apart. -/
theorem steady_exec (hc : writesKept c = false) (hw : movesClock c = true → w = false) (s : State) :
    Steady w s (nextOf (exec c s) s) :=
  match c with
  | .readSetup | .readRoster | .readQueue | .readFaults | .readEvents | .readId | .unknownCommand _ =>
    steady_respond .rfl'
  | .stop => steady_stopCommand
  | .restart => steady_restartCommand
  | .readStatus => steady_readStatus
  | .submitDemand _ => steady_submit _ _
  | .submitClearTrip b => steady_submitClearTrip b
  | .withdraw n => steady_withdrawTicket n
  | .readTicket n => steady_readTicket n
  | .faultAck b => steady_faultAck b
  | .portAbort => steady_portAbort
  | .naturalBoundary => hw rfl ▸ steady_naturalBoundary
  | .markEdge => hw rfl ▸ steady_markEdge
  | .markRelease => steady_markRelease
  | .holdoverEntry => steady_holdoverEntry
  | .markDriveEnd h => steady_markDriveEnd h
  | .localCycleStart => steady_localCycleStart
  | .compareMatch => steady_compareMatch
  | .deadtimeExpiry => steady_deadtimeExpiry
  | .halfCyclePoint => steady_halfCyclePoint
  | .faultActivation i => steady_faultActivation i
  | .faultRelease i => steady_faultRelease i
  | .lineIdle => steady_lineIdle
  | .lineStuck => steady_lineStuck
  | .lineStuckRelease => steady_lineStuckRelease
  | .transmissionAttempt _ => steady_transmissionAttempt .rfl'
  | .arbitrationLost => steady_arbitrationLost
  | .bodyClash => steady_bodyClash
  | .driveReadbackFail => steady_driveReadbackFail
  | .formatError => steady_formatError
  | .errorFlagEnd => steady_errorFlagEnd
  | .frameDiscarded r m => steady_frameDiscarded r m
  | .frameMissed v => steady_frameMissed v
  | .beatAccepted _ _ => hw rfl ▸ steady_acceptFrame fun _ => steady_handleBeat .rfl'
  | .proposeAccepted _ _ => steady_acceptFrame fun _ => steady_handlePropose .rfl'
  | .objectAccepted _ _ => steady_acceptFrame fun _ => steady_handleObject .rfl'
  | .tripAccepted _ _ => steady_acceptFrame fun _ => steady_handleTrip .rfl'
  | .rosterQueryAccepted _ => steady_acceptFrame fun _ => steady_handleQuery .rfl'
  | .rosterReplyAccepted _ _ => hw rfl ▸ steady_acceptFrame fun _ => steady_handleReply .rfl'
  | .unownedFrameAccepted _ _ => steady_acceptFrame fun _ => .rfl'

/-- START outside SETUP is steady. -/
theorem steady_startCommand (hs : s.sc.station ≠ .setup) : Steady w s s.startCommand := by
  unfold State.startCommand
  split
  case h_1 h => exact absurd h hs
  case h_2 => exact State.steady_respond (State.steady_startFromDormant .rfl')
  case h_3 => exact State.steady_respond .rfl'

/-- START in SETUP is refused, or it is steady once the record is locked. -/
theorem startCommand_of_setup (hs : s.sc.station = .setup) :
    Steady w s s.startCommand
      ∨ (s.startCommand = s.startFromSetup.respond .accepted [] ∧ startValid s.sp.record) := by
  simp only [State.startCommand, hs]
  split
  next n h => exact .inl (State.steady_respond .rfl')
  next h => exact .inr ⟨rfl, validateSetup_eq_none_iff.mp h⟩

/-! ### What a command leaves unchanged -/

/-- Part of O59 that a steady command meets. -/
structure KeepsFrame (c : Instr) (s t : State) : Prop where
  pins : t.pins = s.pins
  pending : t.pending = s.pending
  record : (∀ r, c ≠ .writeSetup r) → t.sp.record = s.sp.record
  locked : s.sp.locked = true → t.sp.record = s.sp.record ∧ t.sp.locked = true
  mask : (∀ m, c ≠ .setEventMask m) → t.sp.mask = s.sp.mask
  events : (∀ m, c ≠ .clearEvents m) → ∀ e : Event, s.hasEvent e = true → t.hasEvent e = true

theorem Steady.hasEvent {e : Event} (h : Steady w s t) (he : s.hasEvent e = true) : t.hasEvent e = true := by
  have hbit : (s.sp.events &&& t.sp.events).getLsbD e.index = true := by rw [h.events]; exact he
  rw [BitVec.getLsbD_and, Bool.and_eq_true] at hbit
  exact hbit.2

theorem Steady.keepsFrame (h : Steady w s t) : KeepsFrame c s t where
  pins := h.pins
  pending := h.pending
  record _ := h.record
  locked hl := ⟨h.record, h.locked.trans hl⟩
  mask _ := h.mask
  events _ _ := h.hasEvent

theorem keepsFrame_writeSetup (r : SetupRecord) (s : State) : KeepsFrame (.writeSetup r) s (s.writeSetup r) := by
  cases hl : s.sp.locked with
  | true =>
    rw [State.writeSetup_of_locked r hl]
    exact ⟨rfl, rfl, fun _ => rfl, fun _ => ⟨rfl, hl⟩, fun _ => rfl, fun _ _ => id⟩
  | false =>
    rw [State.writeSetup_of_unlocked r hl]
    exact ⟨rfl, rfl, fun h => absurd rfl (h r), fun h => absurd (hl.symm.trans h) Bool.false_ne_true, fun _ => rfl,
      fun _ _ => id⟩

theorem keepsFrame_start (s : State) : KeepsFrame .start s s.startCommand := by
  obtain hs | hs := eq_or_ne s.sc.station .setup
  · obtain h | ⟨h, -⟩ := startCommand_of_setup (w := false) hs
    · exact h.keepsFrame
    · rw [h]
      have hk := State.steady_respond (st := .accepted) (data := []) (State.steady_startFromSetup s)
      exact ⟨hk.pins, hk.pending, fun _ => hk.record, fun _ => ⟨hk.record, hk.locked⟩, fun _ => hk.mask,
        fun _ _ he => hk.hasEvent he⟩
  · exact (steady_startCommand (w := false) hs).keepsFrame

theorem keepsFrame_exec (hc : c ≠ .deviceReset) (s : State) : KeepsFrame c s (nextOf (exec c s) s) := by
  cases hw : writesKept c with
  | false => exact (steady_exec (w := false) hw (fun _ => rfl) s).keepsFrame
  | true =>
    cases c with
    | deviceReset => exact absurd rfl hc
    | writeSetup r => exact keepsFrame_writeSetup r s
    | start => exact keepsFrame_start s
    | clearEvents m => exact ⟨rfl, rfl, fun _ => rfl, fun h => ⟨rfl, h⟩, fun _ => rfl, fun h => absurd rfl (h m)⟩
    | setEventMask m => exact ⟨rfl, rfl, fun _ => rfl, fun h => ⟨rfl, h⟩, fun h => absurd rfl (h m), fun _ _ => id⟩
    | _ => cases hw

/-- Outside START and `movesClock` no command but DEVICE_RESET moves the counters, EN or the last lead. -/
theorem sameCounters_exec (hc : c ≠ .deviceReset) (hstart : c ≠ .start) (hclock : movesClock c = false) (s : State) :
    (nextOf (exec c s) s).SameCounters s ∧ (nextOf (exec c s) s).tb.lastLead = s.tb.lastLead := by
  cases hw : writesKept c with
  | false =>
    have hsteady : Steady true s (nextOf (exec c s) s) := steady_exec hw (fun h => absurd (hclock.symm.trans h) nofun) s
    obtain ⟨hb, hk, hen, hlead⟩ := hsteady.counters rfl
    exact ⟨⟨hb.symm, hk.symm, hen.symm⟩, hlead⟩
  | true =>
    cases c with
    | deviceReset => exact absurd rfl hc
    | start => exact absurd rfl hstart
    | writeSetup r => cases hl : s.sp.locked <;> simp [State.writeSetup, hl] <;> exact ⟨rfl, rfl, rfl⟩
    | clearEvents m => exact ⟨⟨rfl, rfl, rfl⟩, rfl⟩
    | setEventMask m => exact ⟨⟨rfl, rfl, rfl⟩, rfl⟩
    | _ => cases hw

/-- Settles O59: the frame of each command, and the counters of those that do not move them. -/
theorem commandFrame : Obligations.CommandFrame := by
  unfold Obligations.CommandFrame
  intro c s t hc hexec
  obtain rfl := exec_eq_next_iff.mp hexec
  obtain ⟨hpins, hpending, hrecord, hlocked, hmask, hevents⟩ := keepsFrame_exec hc s
  refine ⟨hpins, hpending, hrecord, hlocked, hmask, hevents, fun hstart hboundary hedge hbeat hreply => ?_⟩
  refine sameCounters_exec hc hstart ?_ s
  cases c with
  | naturalBoundary => exact absurd rfl hboundary
  | markEdge => exact absurd rfl hedge
  | beatAccepted i f => exact absurd rfl (hbeat i f)
  | rosterReplyAccepted i r => exact absurd rfl (hreply i r)
  | _ => rfl

/-! ### SETUP (R3, R21, R27, R42, R153) -/

namespace State

theorem evaluates_of_setup (hs : s.sc.station = .setup) (i : InputNo) : s.evaluates i = false := by
  simp [evaluates, hs]

theorem isMember_of_setup (hs : s.sc.station = .setup) : s.isMember = false := by simp [isMember, hs]

theorem isFollower_of_setup (hs : s.sc.station = .setup) : s.isFollower = false := by simp [isFollower, hs]

theorem followsFrames_of_setup (hs : s.sc.station = .setup) : s.followsFrames = false := by simp [followsFrames, hs]

theorem transmissionAttempt_of_setup (hs : s.sc.station = .setup) (joining : Bool) :
    s.transmissionAttempt joining = s := by
  unfold transmissionAttempt
  split
  · simp [mayBegin, transmits, isMember_of_setup hs, isFollower_of_setup hs]
  · rfl

theorem acceptFrame_of_not_following (h : s.followsFrames = false) (i : StationId) (frame : Instr)
    (handle : State → State) : s.acceptFrame i frame handle = s := by
  simp [acceptFrame, h]

end State

open State in
/-- Settles O60: each time, line, fault or frame row looks at SETUP first, directly or through what the station follows,
sends and evaluates. -/
theorem nothingHappensInSetup : Obligations.NothingHappensInSetup := by
  unfold Obligations.NothingHappensInSetup
  intro c s hs henc hreset habort
  rw [exec_eq_next_iff]
  have hframe := acceptFrame_of_not_following (followsFrames_of_setup hs)
  cases c with
  | deviceReset => exact absurd rfl hreset
  | portAbort => exact absurd rfl habort
  | naturalBoundary => exact if_pos hs
  | markEdge => simp [markEdge, hs]
  | markRelease => exact if_pos hs
  | holdoverEntry => exact if_pos hs
  | markDriveEnd allHigh => simp [markDriveEnd, hs]
  | localCycleStart => exact if_pos hs
  | compareMatch => simp [compareMatch, hs]
  | deadtimeExpiry => simp [deadtimeExpiry, hs]
  | halfCyclePoint => exact if_pos hs
  | faultActivation i => simp [exec_faultActivation, faultActivation, evaluates_of_setup hs]
  | faultRelease i => simp [faultRelease, evaluates_of_setup hs]
  | lineIdle => exact if_pos hs
  | lineStuck => simp [lineStuck, hs]
  | lineStuckRelease => simp [lineStuckRelease, hs]
  | transmissionAttempt joining => exact transmissionAttempt_of_setup hs joining
  | arbitrationLost => exact if_pos hs
  | bodyClash => simp [bodyClash, hs]
  | driveReadbackFail => simp [driveReadbackFail, hs]
  | formatError => simp [formatError, followsFrames_of_setup hs]
  | errorFlagEnd => simp [errorFlagEnd, hs]
  | frameDiscarded reachedSlot mismatch => simp [frameDiscarded, discardFrame, followsFrames_of_setup hs]
  | frameMissed slotSeen => simp [frameMissed, isFollower_of_setup hs]
  | beatAccepted i f => exact hframe ..
  | proposeAccepted i p => exact hframe ..
  | objectAccepted i o => exact hframe ..
  | tripAccepted i f => exact hframe ..
  | rosterQueryAccepted i => exact hframe ..
  | rosterReplyAccepted i r => exact hframe ..
  | unownedFrameAccepted i h => exact hframe ..
  | _ => cases henc

end Sys2Proof.Machine
end

section
/-! The invariant (Safety.lean): it holds after reset, a command keeps it, a station clock keeps it. The gates, the lock and
the sizes of the tables follow from steadiness; that a state is settled is shown command by command. -/

namespace Sys2Proof.Machine

variable {w : Bool} {c : Instr} {a b s t : State}

/-! ### Settled after each command -/

namespace State

theorem settled_respond {st : Status} {data : List Byte} (h : s.Settled) : (s.respond st data).Settled :=
  h.congr (basis_respond .rfl')

theorem settled_raise {e : Event} (h : s.Settled) : (s.raise e).Settled := h.congr (basis_raise .rfl')

theorem mayHaveTarget_of_setup (hs : s.sc.station = .setup) : s.mayHaveTarget = false := by
  simp [mayHaveTarget, isMember_of_setup hs, isFollower_of_setup hs]

/-- In SETUP the rules give no mode but OFF and no target, whatever the record says. -/
theorem settled_iff_of_setup (hs : s.sc.station = .setup) : s.Settled ↔ s.os.mode = .off ∧ s.pu.target = none := by
  have hchosen : s.chosenMode = .off := by simp [chosenMode, isMember_of_setup hs]
  have htarget : s.targetNow = none := by simp [targetNow, mayHaveTarget_of_setup hs]
  rw [Settled, hchosen, htarget, eq_comm (a := none)]
  simp

theorem settled_writeSetup (r : SetupRecord) (h : s.Settled) (hl : s.LockOk) : (s.writeSetup r).Settled := by
  cases hlocked : s.sp.locked with
  | true => rw [writeSetup, if_pos hlocked]; exact settled_respond h
  | false =>
    rw [writeSetup_of_unlocked r hlocked]
    have hs := hl hlocked
    rw [settled_iff_of_setup hs] at h
    rwa [settled_iff_of_setup (by exact hs)]

theorem settled_halfPoint : s.halfPoint.Settled := settle_settled _

/-- A local cycle start alone where no latch clears, else with its half-cycle point before or after it (R138, R148). -/
theorem startWithPoint_eq (e : Bool) (s : State) : s.startWithPoint e =
    if s.someClears = false then s.cycleStart e
    else if Config.pointBeforeStart s.freeCount = true then s.nextFree.halfPoint.cycleStart e
    else (s.nextFree.cycleStart e).halfPoint := by
  cases hclears : s.someClears with
  | false => simp [startWithPoint, crossStart, hclears]
  | true => cases hpoint : Config.pointBeforeStart s.freeCount <;> simp [startWithPoint, crossStart, hclears, hpoint]

theorem settled_startWithPoint (e : Bool) (h : s.Settled) : (s.startWithPoint e).Settled := by
  rw [startWithPoint_eq]
  split_ifs
  · exact settled_cycleStart e h
  · exact settled_cycleStart e settled_halfPoint
  · exact settled_halfPoint

theorem settled_startCommand (h : s.Settled) : s.startCommand.Settled := by
  unfold startCommand
  split
  · split
    · exact settled_respond h
    · exact settled_respond (settled_startWithPoint true (settle_settled _))
  · exact settled_respond (settle_settled _)
  · exact settled_respond h

theorem basis_setLeavePending (h : SameBasis a b) : SameBasis a b.setLeavePending := basis_modSc h rfl

theorem settled_stopJoining (h : s.Settled) : s.stopJoining.Settled := by
  unfold stopJoining
  split
  · split
    · exact h.congr (basis_respond (basis_setLeavePending .rfl'))
    · exact settled_respond settled_enterDormant
  · split
    · unfold stopOpen
      split
      next u ho =>
        split
        · exact h.congr (basis_respond (basis_setLeavePending (basis_modSc .rfl' rfl)))
        · exact h.congr (basis_respond (basis_setLeavePending (basis_modSc (basis_offer .rfl' ho) rfl)))
      next => exact settled_respond h
    · unfold stopFirm
      split
      · exact settled_respond h
      · split
        · exact h.congr (basis_respond (basis_setLeavePending (basis_modCq (basis_issueTicket .rfl'))))
        · exact settled_respond h
  · exact h.congr (basis_respond (basis_setLeavePending .rfl'))

theorem offer_sc {body : QueuedBody} (h : s.offer body = some t) : t.sc = s.sc := by
  obtain ⟨-, rfl⟩ := offer_frame h
  rfl

theorem offerPropose_sc {d : ProposalContent} (h : s.offerPropose d = some t) : t.sc = s.sc := by
  obtain ⟨-, rfl⟩ := offerPropose_frame h
  rfl

theorem updateTickets_sc (hit : Ticket → Bool) (f : Ticket → Ticket) (s : State) : (s.updateTickets hit f).sc = s.sc := by
  obtain ⟨ev, h⟩ := updateTickets_frame hit f s
  rw [h]

theorem settled_stopMember (h : s.Settled) (hm : s.sc.station = .member) : s.stopMember.Settled := by
  simp only [stopMember]
  split
  · split
    next u ho =>
      exact h.congr (basis_respond (basis_becomeLeaving (basis_updateTickets (basis_offer .rfl' ho))
        (by rw [updateTickets_sc, offer_sc ho, hm])))
    next => exact settled_respond h
  · split
    next => exact settled_respond h
    next u ho =>
      split
      · exact h.congr (basis_respond (basis_becomeLeaving (basis_issueTicket (basis_offerPropose .rfl' ho))
          ((congrArg StationController.station (offerPropose_sc ho)).trans hm)))
      · exact settled_respond h

theorem settled_stopCommand (h : s.Settled) : s.stopCommand.Settled := by
  unfold stopCommand
  split
  · exact settled_respond settled_enterDormant
  · exact settled_respond settled_enterDormant
  · exact settled_stopJoining h
  case h_4 hm => exact settled_stopMember h hm
  · exact settled_respond h

theorem settled_restartCommand (h : s.Settled) : s.restartCommand.Settled := by
  unfold restartCommand
  split
  · exact settled_respond (settle_settled _)
  · exact settled_respond h

theorem settled_submit (k : TicketKind) (d : ProposalContent) (h : s.Settled) : (s.submit k d).Settled := by
  simp only [submit]
  split
  · exact settled_respond h
  · split
    next => exact settled_respond h
    next u ho =>
      split
      · exact h.congr (basis_respond (basis_issueTicket (basis_offerPropose .rfl' ho)))
      · exact settled_respond h

theorem settled_submitClearTrip (n : Byte) (h : s.Settled) : (s.submitClearTrip n).Settled := by
  unfold submitClearTrip
  split
  · exact settled_respond h
  · exact settled_submit _ _ h

theorem settled_withdrawWaiting (x : Ticket) (h : s.Settled) : (s.withdrawWaiting x).Settled := by
  unfold withdrawWaiting
  split
  · split
    · exact h.congr (basis_updateTickets .rfl')
    · exact settled_doIf (h.congr (basis_updateTickets (basis_dropBodies .rfl'))) settled_returnToMember
  · exact settled_doIf (h.congr (basis_updateTickets .rfl')) (h.congr (basis_modSc (basis_updateTickets .rfl') rfl))

theorem settled_withdrawTicket (n : Byte) (h : s.Settled) : (s.withdrawTicket n).Settled := by
  simp only [withdrawTicket]
  split
  · exact settled_respond h
  · split_ifs
    · exact settled_respond h
    · exact settled_respond h
    · exact settled_respond (settled_withdrawWaiting _ h)
    · exact settled_respond h
    · split
      next u ho => exact h.congr (basis_respond (basis_updateTickets (basis_offer .rfl' ho)))
      next => exact settled_respond h

theorem settled_readTicket (n : Byte) (h : s.Settled) : (s.readTicket n).Settled := by
  unfold readTicket
  split
  · exact settled_respond h
  · exact settled_respond (settled_doIf h (h.congr (basis_modSp .rfl' rfl)))

theorem settled_faultAck (n : Byte) (h : s.Settled) : (s.faultAck n).Settled := by
  unfold faultAck
  split
  · exact settled_respond h
  · split
    · exact settled_respond h
    · split_ifs
      iterate 3 exact settled_respond h
      exact h.congr (basis_respond (basis_modInput .rfl' fun _ => rfl))

theorem settled_naturalBoundary (h : s.Settled) : s.naturalBoundary.Settled := by
  unfold naturalBoundary
  split
  · exact h
  · exact settle_settled _

theorem settled_markEdge (h : s.Settled) : s.markEdge.Settled := by
  unfold markEdge
  split
  · exact h
  · exact settle_settled _

theorem settled_markRelease (h : s.Settled) : s.markRelease.Settled := by
  unfold markRelease
  split
  · exact h
  · exact h.congr (basis_modTb .rfl')

theorem settled_holdoverEntry (h : s.Settled) : s.holdoverEntry.Settled := by
  unfold holdoverEntry
  split
  · exact h
  · exact h.congr (basis_enterHoldover (basis_modTb .rfl'))

theorem settled_markDriveEnd (allHigh : Bool) (h : s.Settled) : (s.markDriveEnd allHigh).Settled := by
  unfold markDriveEnd
  split_ifs
  · exact h
  · have hfailed := h.congr (basis_raise (e := .line) (basis_modTb
      (g := fun tb => { tb with failedDrives := s.tb.failedDrives + 1 }) (basis_stopDrive .rfl')))
    exact settled_doIf hfailed (settled_isolate _ hfailed)
  · exact h.congr (basis_modTb (basis_stopDrive .rfl'))

theorem settled_localCycleStart (h : s.Settled) : s.localCycleStart.Settled := by
  unfold localCycleStart
  split
  · exact h
  · exact settled_cycleStart true (h.congr (basis_modOs .rfl' rfl))

theorem settled_compareMatch (h : s.Settled) : s.compareMatch.Settled := by
  unfold compareMatch
  split
  · exact h.congr (basis_modOs (basis_modOs .rfl' rfl) rfl)
  · exact h

theorem settled_deadtimeExpiry (h : s.Settled) : s.deadtimeExpiry.Settled := by
  unfold deadtimeExpiry
  split
  · exact h
  · exact h.congr (basis_modOs (basis_modOs .rfl' rfl) rfl)

theorem settled_halfCyclePoint (h : s.Settled) : s.halfCyclePoint.Settled := by
  unfold halfCyclePoint
  split
  · exact h
  · exact settle_settled _

theorem settled_faultActivation (i : InputNo) (h : s.Settled) : (s.faultActivation i).Settled := by
  unfold faultActivation
  split
  · exact settle_settled _
  · exact h

theorem settled_faultRelease (i : InputNo) (h : s.Settled) : (s.faultRelease i).Settled := by
  unfold faultRelease
  split
  · exact h.congr (basis_modInput .rfl' fun _ => rfl)
  · exact h

theorem settled_lineIdle (h : s.Settled) : s.lineIdle.Settled := by
  unfold lineIdle
  split
  · exact h
  · exact h.congr (basis_modBi .rfl')

theorem settled_lineStuck (h : s.Settled) : s.lineStuck.Settled := by
  unfold lineStuck
  split
  · exact h
  · exact h.congr (basis_raise (basis_modBi .rfl'))

theorem settled_lineStuckRelease (h : s.Settled) : s.lineStuckRelease.Settled := by
  unfold lineStuckRelease
  split
  · exact h
  · exact h.congr (basis_modBi .rfl')

theorem settled_transmissionAttempt (joining : Bool) (h : s.Settled) : (s.transmissionAttempt joining).Settled := by
  unfold transmissionAttempt
  split
  · split
    · exact h.congr (basis_modBi (basis_doIf .rfl' (basis_modBi .rfl')))
    · exact h
  · exact h

theorem settled_arbitrationLost (h : s.Settled) : s.arbitrationLost.Settled := by
  unfold arbitrationLost
  split
  · exact h
  · exact settled_loseAttempt h

theorem settled_bodyClash (h : s.Settled) : s.bodyClash.Settled := by
  unfold bodyClash
  split_ifs
  · exact h
  · exact settled_enterHalted _
  · exact settled_rejectAttempt (h.congr (basis_modBi (basis_raise .rfl')))

theorem settled_driveReadbackFail (h : s.Settled) : s.driveReadbackFail.Settled := by
  unfold driveReadbackFail
  split
  · exact h
  · exact settled_rejectAttempt (settled_raise h)

theorem settled_formatError (h : s.Settled) : s.formatError.Settled := by
  unfold formatError
  split
  · exact h
  · exact (settled_rejectAttempt (h.congr (basis_doIf .rfl' (basis_modBi .rfl')))).congr (basis_modBi .rfl')

theorem settled_errorFlagEnd (h : s.Settled) : s.errorFlagEnd.Settled := by
  unfold errorFlagEnd
  split
  · exact h
  · have hended := h.congr (basis_modBi (g := fun bi => { bi with errorFlagLeft := 0 }) .rfl')
    exact settled_doIf hended (settled_countReject hended)

theorem settled_discardFrame (votes : Bool) (h : s.Settled) : (s.discardFrame votes).Settled := by
  unfold discardFrame
  split
  · exact h
  · exact (settled_rejectAttempt (settled_doIf h (settled_countReject h))).congr (basis_modBi .rfl')

theorem settled_frameMissed (slotSeen : Bool) (h : s.Settled) : (s.frameMissed slotSeen).Settled := by
  unfold frameMissed
  split
  · exact h
  · exact settled_missedFrame (h.congr (basis_modBi (basis_doIf .rfl' (basis_noteAcceptance .rfl'))))

theorem settled_acceptFrame (i : StationId) (frame : Instr) (handle : State → State) (h : s.Settled) :
    (s.acceptFrame i frame handle).Settled := by
  simp only [acceptFrame]
  split_ifs
  · exact h
  all_goals exact settle_settled _

end State

open State in
/-- Every command leaves a settled state settled (R123, R137). -/
theorem settled_exec (c : Instr) (h : s.Settled) (hl : s.LockOk) : (nextOf (exec c s) s).Settled :=
  match c with
  | .deviceReset => (settled_iff_of_setup rfl).mpr ⟨rfl, rfl⟩
  | .writeSetup r => settled_writeSetup r h hl
  | .readSetup | .readRoster | .readQueue | .readFaults | .readEvents | .readId | .unknownCommand _ => settled_respond h
  | .start => settled_startCommand h
  | .stop => settled_stopCommand h
  | .restart => settled_restartCommand h
  | .readStatus => h.congr (basis_respond (basis_modSp .rfl' rfl))
  | .submitDemand _ => settled_submit _ _ h
  | .submitClearTrip n => settled_submitClearTrip n h
  | .withdraw n => settled_withdrawTicket n h
  | .readTicket n => settled_readTicket n h
  | .faultAck n => settled_faultAck n h
  | .clearEvents _ | .setEventMask _ => h.congr (basis_respond (basis_modSp .rfl' rfl))
  | .portAbort => h.congr (basis_raise (basis_modSp .rfl' rfl))
  | .naturalBoundary => settled_naturalBoundary h
  | .markEdge => settled_markEdge h
  | .markRelease => settled_markRelease h
  | .holdoverEntry => settled_holdoverEntry h
  | .markDriveEnd q => settled_markDriveEnd q h
  | .localCycleStart => settled_localCycleStart h
  | .compareMatch => settled_compareMatch h
  | .deadtimeExpiry => settled_deadtimeExpiry h
  | .halfCyclePoint => settled_halfCyclePoint h
  | .faultActivation i => settled_faultActivation i h
  | .faultRelease i => settled_faultRelease i h
  | .lineIdle => settled_lineIdle h
  | .lineStuck => settled_lineStuck h
  | .lineStuckRelease => settled_lineStuckRelease h
  | .transmissionAttempt j => settled_transmissionAttempt j h
  | .arbitrationLost => settled_arbitrationLost h
  | .bodyClash => settled_bodyClash h
  | .driveReadbackFail => settled_driveReadbackFail h
  | .formatError => settled_formatError h
  | .errorFlagEnd => settled_errorFlagEnd h
  | .frameDiscarded _ _ => settled_discardFrame _ h
  | .frameMissed v => settled_frameMissed v h
  | .beatAccepted _ _ | .proposeAccepted _ _ | .objectAccepted _ _ | .tripAccepted _ _ | .rosterQueryAccepted _
  | .rosterReplyAccepted _ _ | .unownedFrameAccepted _ _ => settled_acceptFrame _ _ _ h

/-! ### A command keeps the invariant -/

theorem gatesOk_of_off {os : OutputStage} (hgh : os.gh = false) (hgl : os.gl = false) : os.GatesOk :=
  ⟨by simp [hgh], fun _ => ⟨hgh, hgl⟩⟩

/-- The state after reset, with any pins, queue and count of free values. -/
theorem inv_deviceReset (s : State) : s.deviceReset.Inv where
  gates := gatesOk_of_off rfl rfl
  settled := (State.settled_iff_of_setup rfl).mpr ⟨rfl, rfl⟩
  lock _ := rfl
  capacities := ⟨Nat.zero_le 6, Nat.zero_le 8, Nat.zero_le 4, rfl⟩

theorem Steady.inv_of_ne_setup (h : Steady w s t) (hi : s.Inv) (hs : s.sc.station ≠ .setup) (ht : t.Settled) : t.Inv where
  gates := h.gates hi.gates
  settled := ht
  lock hunlocked := absurd (hi.lock (h.locked.symm.trans hunlocked)) hs
  capacities := h.capacities hi.capacities

/-- In SETUP a steady command leaves the Station Controller as it is. -/
theorem sc_exec_of_setup (hc : writesKept c = false) (hs : s.sc.station = .setup) : (nextOf (exec c s) s).sc = s.sc := by
  have hm := State.isMember_of_setup hs
  cases henc : encodeCommand c with
  | none =>
    obtain rfl | habort := eq_or_ne c .portAbort
    · rfl
    · have hreset : c ≠ .deviceReset := fun h => by rw [h] at hc; cases hc
      rw [exec_eq_next_iff.mp (nothingHappensInSetup c s hs henc hreset habort)]
  | some bytes =>
    cases c with
    | readSetup | readStatus | readRoster | readQueue | readFaults | readEvents | readId | unknownCommand => rfl
    | stop => simp [State.stopCommand, hs]
    | restart => simp [State.restartCommand, hs]
    | submitDemand d => simp [State.submitDemand, State.submit, hs]
    | submitClearTrip n => by_cases h : 15 < n.toNat <;> simp [State.submitClearTrip, State.submit, hs, h]
    | withdraw n =>
      simp only [exec_withdraw, nextOf_next, State.withdrawTicket]
      repeat' split
      all_goals first | rfl | simp_all
    | readTicket n =>
      simp only [exec_readTicket, nextOf_next, State.readTicket]
      split
      · rfl
      · exact State.doIf_keeps (P := State.sc) rfl
    | faultAck n => simp [exec_faultAck, State.faultAck, hs]
    | writeSetup | start | clearEvents | setEventMask => cases hc
    | _ => cases henc

theorem lockOk_startCommand (h : s.LockOk) : s.startCommand.LockOk := by
  obtain hs | hs := eq_or_ne s.sc.station .setup
  · simp only [State.startCommand, hs]
    split
    · exact h
    · intro hunlocked
      rw [State.respond_sp, State.startFromSetup_locked] at hunlocked
      cases hunlocked
  · intro hunlocked
    exact absurd (h ((steady_startCommand (w := false) hs).locked.symm.trans hunlocked)) hs

theorem inv_startCommand (h : s.Inv) : s.startCommand.Inv := by
  have hsettled := State.settled_startCommand h.settled
  have hlock := lockOk_startCommand h.lock
  obtain hs | hs := eq_or_ne s.sc.station .setup
  · obtain hk | ⟨heq, -⟩ := startCommand_of_setup (w := false) hs
    · exact ⟨hk.gates h.gates, hsettled, hlock, hk.capacities h.capacities⟩
    · have hk := State.steady_respond (st := .accepted) (data := []) (State.steady_startFromSetup s)
      have hlocked : s.lockRecord.Capacities := h.capacities.of id id id id
      rw [heq] at hsettled hlock ⊢
      exact ⟨hk.gates h.gates, hsettled, hlock, hk.capacities hlocked⟩
  · exact (steady_startCommand (w := false) hs).inv_of_ne_setup h hs hsettled

theorem inv_exec (c : Instr) (h : s.Inv) : (nextOf (exec c s) s).Inv := by
  have hsettled := settled_exec c h.settled h.lock
  cases hw : writesKept c with
  | false =>
    have hk : Steady false s (nextOf (exec c s) s) := steady_exec hw (fun _ => rfl) s
    obtain hs | hs := eq_or_ne s.sc.station .setup
    · refine ⟨hk.gates h.gates, hsettled, fun _ => ?_, hk.capacities h.capacities⟩
      rw [sc_exec_of_setup hw hs, hs]
    · exact hk.inv_of_ne_setup h hs hsettled
  | true =>
    cases c with
    | deviceReset => exact inv_deviceReset s
    | start => exact inv_startCommand h
    | writeSetup r =>
      cases hl : s.sp.locked with
      | true =>
        rw [exec_writeSetup, State.writeSetup_of_locked r hl] at hsettled ⊢
        exact ⟨h.gates, hsettled, h.lock, h.capacities.of id id id id⟩
      | false =>
        rw [exec_writeSetup, State.writeSetup_of_unlocked r hl] at hsettled ⊢
        exact ⟨h.gates, hsettled, fun _ => h.lock hl, h.capacities.of id id id id⟩
    | clearEvents m => exact ⟨h.gates, hsettled, h.lock, h.capacities.of id id id id⟩
    | setEventMask m => exact ⟨h.gates, hsettled, h.lock, h.capacities.of id id id id⟩
    | _ => cases hw

end Sys2Proof.Machine
end

section
/-! One station clock keeps the invariant: the Setup Port by the command it evaluates, SBD and the count of the PWM clock by
steadiness, and the closing `settle` for what the rules derive. -/

namespace Sys2Proof.Machine

variable {w : Bool} {c : Instr} {a b s t : State}

/-! ### The Setup Port at one station clock (R171) -/

/-- A change of the transaction, the response or the pin samples touches nothing the invariant reads. -/
theorem Inv_modSp {g : SetupPort → SetupPort} (h : s.Inv) (hr : (g s.sp).record = s.sp.record)
    (hl : (g s.sp).locked = s.sp.locked) (ht : (g s.sp).tickets = s.sp.tickets) : (s.modSp g).Inv where
  gates := h.gates
  settled := h.settled.congr (State.basis_modSp .rfl' hr)
  lock hunlocked := h.lock (hl.symm.trans hunlocked)
  capacities := h.capacities.of id id (fun hle => (congrArg List.length ht).trans_le hle) id

theorem inv_evaluatePort (h : s.Inv) : s.evaluatePort.Inv := by
  unfold State.evaluatePort
  split
  · split
    · exact Inv_modSp (inv_exec _ h) rfl rfl rfl
    · exact h
  · exact h

theorem inv_portSelect (h : s.Inv) : s.portSelect.Inv := by
  unfold State.portSelect
  split_ifs
  · exact Inv_modSp h rfl rfl rfl
  · split
    · split
      · exact inv_exec .portAbort h
      · exact Inv_modSp h rfl rfl rfl
    · exact h
  · exact h

theorem inv_portClock (h : s.Inv) : s.portClock.Inv := by
  unfold State.portClock
  split_ifs
  · exact h
  · exact Inv_modSp h rfl rfl rfl
  · exact Inv_modSp h rfl rfl rfl
  · exact h

theorem inv_tickPort (h : s.Inv) : s.tickPort.Inv :=
  Inv_modSp (inv_portClock (inv_portSelect (inv_evaluatePort h))) rfl rfl rfl

/-! ### No command of the port but DEVICE_RESET leads to SETUP -/

theorem station_startCommand_ne_setup (hs : s.sc.station ≠ .setup) : s.startCommand.sc.station ≠ .setup :=
  fun h => hs ((steady_startCommand (w := false) hs).setup h)

theorem station_exec_ne_setup (hc : c ≠ .deviceReset) (hs : s.sc.station ≠ .setup) :
    (nextOf (exec c s) s).sc.station ≠ .setup := by
  cases hw : writesKept c with
  | false => exact fun h => hs ((steady_exec (w := false) hw (fun _ => rfl) s).setup h)
  | true =>
    cases c with
    | deviceReset => exact absurd rfl hc
    | start => exact station_startCommand_ne_setup hs
    | writeSetup r => cases hl : s.sp.locked <;> simpa [State.writeSetup, hl] using hs
    | clearEvents m => exact hs
    | setEventMask m => exact hs
    | _ => cases hw

/-- No bytes of a transaction spell a device reset (R196). -/
theorem decodeCommand_ne_deviceReset (code : Byte) (args : List Byte) : decodeCommand code args ≠ .deviceReset := by
  unfold decodeCommand
  split <;> exact Instr.noConfusion

theorem station_evaluatePort_ne_setup (hs : s.sc.station ≠ .setup) : s.evaluatePort.sc.station ≠ .setup := by
  unfold State.evaluatePort
  split
  · split
    · exact station_exec_ne_setup (decodeCommand_ne_deviceReset _ _) hs
    · exact hs
  · exact hs

theorem portSelect_sc (s : State) : s.portSelect.sc = s.sc := by
  unfold State.portSelect
  repeat' split
  all_goals rfl

theorem portClock_sc (s : State) : s.portClock.sc = s.sc := by
  unfold State.portClock
  repeat' split
  all_goals rfl

theorem station_tickPort_ne_setup (hs : s.sc.station ≠ .setup) : s.tickPort.sc.station ≠ .setup := by
  have h : s.tickPort.sc = s.evaluatePort.sc := (portClock_sc _).trans (portSelect_sc _)
  rw [h]
  exact station_evaluatePort_ne_setup hs

/-! ### SBD at one station clock is steady -/

namespace State

/-- What a command of the line, of a frame or of an own attempt does to a state reached steadily. -/
theorem steady_nextOf_exec (hc : writesKept c = false) (h : Steady false a b) : Steady false a (nextOf (exec c b) b) :=
  h.trans (steady_exec hc (fun _ => rfl) b)

theorem steady_modRx {f : RxContext → RxContext} (h : Steady w a b) : Steady w a (b.modRx f) :=
  steady_modBi h fun k => k

theorem steady_lineTimers {d : Bool} (h : Steady w a b) : Steady w a (b.lineTimers d) := steady_modBi h fun k => k

theorem steady_driveFlag (h : Steady false a b) : Steady false a b.driveFlag := by
  unfold driveFlag
  split
  · exact steady_nextOf_exec rfl h
  · exact steady_modBi h fun k => k

theorem steady_busEdge {n : Nat} (h : Steady false a b) : Steady false a (b.busEdge n) := by
  unfold busEdge
  split
  · simp only [startBitEdge]
    split
    · exact steady_nextOf_exec rfl (steady_startBit h)
    · exact steady_startBit h
  · split
    · split_ifs
      · exact steady_modRx h
      · exact h
      · exact steady_modRx h
      · exact steady_modRx h
    · exact h

theorem steady_readBack {n : Nat} {read : Bool} (h : Steady false a b) : Steady false a (b.readBack n read) := by
  unfold readBack
  split
  · split_ifs
    · exact h
    · exact steady_nextOf_exec rfl h
    · exact steady_nextOf_exec rfl h
    · exact steady_modRx h
  · exact h

theorem steady_decideBit {rx : RxContext} {read : Bool} (h : Steady false a b) : Steady false a (b.decideBit rx read) := by
  simp only [decideBit]
  split
  · exact steady_nextOf_exec rfl (steady_readBack (steady_modRx h))
  · exact steady_readBack (steady_modRx h)

theorem steady_busSample {d : Bool} (h : Steady false a b) : Steady false a (b.busSample d) := by
  unfold busSample
  split
  · simp only
    split_ifs
    · exact h
    · exact steady_modRx h
    · exact steady_modRx h
    · exact h
    · exact steady_decideBit h
  · unfold startUnread
    split
    · exact steady_nextOf_exec rfl h
    · exact h

theorem steady_busErrors {d : Bool} (h : Steady false a b) : Steady false a (b.busErrors d) := by
  unfold busErrors
  split
  · simp only
    split_ifs
    · exact steady_modRx h
    · exact h
    · exact steady_modRx (steady_nextOf_exec rfl h)
    · exact (steady_modRx h).trans steady_bodyClash
    · exact h
  · exact h

end State

/-- Received bits spell a frame, never a command of the Setup Port (R54, R190). -/
theorem writesKept_decodeFrame (i : StationId) (h : FrameHeader) (payload : List Byte) :
    writesKept (decodeFrame i h payload) = false := by
  have hdecoded {α : Type} (d : Option α) (f : α → Instr) (hf : ∀ x, writesKept (f x) = false) :
      writesKept (d.elim (.unownedFrameAccepted i h) f) = false := by
    cases d with
    | none => rfl
    | some x => exact hf x
  simp only [decodeFrame]
  split_ifs
  · exact hdecoded _ _ fun _ => rfl
  · exact hdecoded _ _ fun _ => rfl
  · exact hdecoded _ _ fun _ => rfl
  · exact hdecoded _ _ fun _ => rfl
  · exact hdecoded _ _ fun _ => rfl
  · rfl
  · rfl

theorem writesKept_heardFrame (bits : List Bool) : writesKept (heardFrame bits) = false := by
  unfold heardFrame
  split
  · exact writesKept_decodeFrame _ _ _
  · rfl

namespace State

theorem steady_slotOutcome {rx : RxContext} (h : Steady false a b) : Steady false a (b.slotOutcome rx) := by
  unfold slotOutcome
  split_ifs
  · exact steady_nextOf_exec (writesKept_heardFrame _) h
  · exact steady_nextOf_exec rfl h
  · exact steady_seeAcceptance h
  · exact steady_discardFrame h

theorem steady_busSlot (h : Steady false a b) : Steady false a b.busSlot := by
  unfold busSlot
  split
  · split
    · split_ifs
      · exact steady_slotOutcome h
      · refine steady_doIf ?slot (steady_countReject ?slot)
        exact steady_modRx (steady_doIf h (steady_modBi h fun k => k))
    · exact h
  · exact h

theorem steady_busLine (h : Steady false a b) : Steady false a b.busLine := by
  unfold busLine
  split_ifs
  · exact h
  · exact steady_nextOf_exec rfl h
  · exact steady_nextOf_exec rfl h
  · simp only [becomeIdle]
    split
    · exact steady_nextOf_exec rfl (steady_nextOf_exec rfl h)
    · exact steady_nextOf_exec rfl h
  · exact h

theorem steady_ageAttempt (h : Steady w a b) : Steady w a b.ageAttempt := steady_modBi h fun k => k

theorem steady_tickBus (h : Steady false a b) : Steady false a b.tickBus := by
  have htimed := steady_lineTimers (d := b.sbdDominant) (steady_driveFlag h)
  have hedge := steady_doIf (c := b.sbdDominant && !b.bi.wasDominant) htimed
    (steady_busEdge (n := b.bi.recessiveRun) htimed)
  have hdone := steady_ageAttempt (steady_busLine (steady_busSlot
    (steady_busErrors (d := b.sbdDominant) (steady_busSample (d := b.sbdDominant) hedge))))
  simp only [tickBus]
  split
  · exact steady_nextOf_exec rfl hdone
  · exact hdone

/-! ### A count of the PWM clock is steady -/

theorem steady_eitherOrder {choice : Nat → Bool} {f g : State → State} (hf : ∀ {u}, Steady false a u → Steady false a (f u))
    (hg : ∀ {u}, Steady false a u → Steady false a (g u)) (h : Steady false a b) :
    Steady false a (b.eitherOrder choice f g) := by
  simp only [eitherOrder]
  split_ifs
  · exact hg (hf h)
  · exact steady_nextFree (hg (hf h))
  · exact steady_nextFree (hf (hg h))

theorem steady_advanceCounters (h : Steady false a b) : Steady false a b.advanceCounters := by
  simp only [advanceCounters]
  exact steady_modOs (steady_modTb h nofun) fun k => k.of rfl rfl id

theorem steady_cycleAtCount (h : Steady false a b) : Steady false a b.cycleAtCount := by
  unfold cycleAtCount
  split
  · exact steady_startWithPoint h
  · exact steady_doIf h (steady_halfPoint h)

theorem steady_sampleInputs (h : Steady false a b) : Steady false a b.sampleInputs :=
  steady_foldl (fun _ _ => steady_sampleInput .rfl') _ h

theorem steady_cycleAndSamples (h : Steady false a b) : Steady false a b.cycleAndSamples := by
  unfold cycleAndSamples
  split
  · exact steady_eitherOrder steady_sampleInputs steady_cycleAtCount h
  · exact steady_sampleInputs h

theorem steady_countEvents (h : Steady false a b) : Steady false a b.countEvents := by
  unfold countEvents
  split
  · exact steady_eitherOrder steady_boundary steady_cycleAndSamples h
  · exact steady_cycleAndSamples h

theorem steady_driveCount (h : Steady false a b) : Steady false a b.driveCount := by
  unfold driveCount
  split
  · exact steady_nextOf_exec rfl h
  · exact steady_modTb h nofun

theorem steady_filterMark {low : Bool} (h : Steady false a b) : Steady false a (b.filterMark low) := by
  have hfilter : Steady false a
      (if low = b.tb.levelLow then b.modTb fun tb => { tb with filterRun := 0 }
      else if b.tb.filterRun < 2 then b.modTb fun tb => { tb with filterRun := tb.filterRun + 1 }
      else if low then b.markEdge
      else b.markRelease) := by
    split_ifs
    · exact steady_modTb h nofun
    · exact steady_modTb h nofun
    · exact h.trans steady_markEdge
    · exact h.trans steady_markRelease
  simp only [filterMark]
  have hrun := steady_doIf (c := low && b.tb.levelLow) hfilter
    (steady_modTb (g := fun tb => { tb with lowRun := min 65 (tb.lowRun + 1) }) hfilter nofun)
  exact steady_doIf hrun (hrun.trans steady_holdoverEntry)

theorem steady_markAtCount (h : Steady false a b) : Steady false a b.markAtCount :=
  steady_doIf (steady_filterMark h) (steady_modTb (steady_filterMark h) nofun)

theorem steady_tickPrescale (h : Steady false a b) : Steady false a b.tickPrescale := by
  have hphase (n : Nat) : Steady false a { b with phase := n } :=
    ⟨h.record, h.locked, h.mask, h.events, h.pins, h.pending, h.gates, fun k => (h.capacities k).of id id id id, h.setup,
      h.counters⟩
  unfold tickPrescale
  split
  · exact hphase _
  · exact steady_markAtCount (steady_regate (steady_countEvents (steady_advanceCounters (steady_driveCount (hphase 0)))))

end State

/-! ### The invariant -/

theorem inv_tick (h : s.Inv) : s.tick.Inv := by
  unfold State.tick
  split_ifs with hreset hs
  · exact inv_deviceReset s
  · exact inv_tickPort h
  · have hsteady : Steady false s.tickPort (s.tickPort.tickBus.tickPrescale).settle :=
      State.steady_settle (State.steady_tickPrescale (State.steady_tickBus .rfl'))
    exact hsteady.inv_of_ne_setup (inv_tickPort h) (station_tickPort_ne_setup hs) (State.settle_settled _)

/-- The waiting commands are none of the invariant's matter. -/
theorem inv_withPending (h : s.Inv) (rest : List Instr) : ({ s with pending := rest } : State).Inv :=
  ⟨h.gates, h.settled.congr ⟨rfl, rfl, rfl, fun _ => rfl, rfl, rfl, rfl, rfl⟩, h.lock, h.capacities.of id id id id⟩

/-- Settles O56: the front command by `inv_exec`, a station clock by `inv_tick`. -/
theorem stepKeepsInv : Obligations.StepKeepsInv := by
  unfold Obligations.StepKeepsInv
  intro s t h hstep
  cases hp : s.pending with
  | nil =>
    rw [step_of_empty hp] at hstep
    cases hstep
    exact inv_tick h
  | cons c rest =>
    rw [step_of_pending hp, exec_eq_next_iff] at hstep
    exact hstep ▸ inv_exec c (inv_withPending h rest)

/-- Settles O57: the state after reset is the one a device reset leaves. -/
theorem resetHasInv : Obligations.ResetHasInv := by
  unfold Obligations.ResetHasInv
  exact inv_deviceReset State.reset

/-- Settles O58: outside the group or with a trip held the chosen mode is OFF (R136), which a settled state has taken
(R137), and in OFF the gates are inactive. -/
theorem invKeepsOutputsSafe : Obligations.InvKeepsOutputsSafe := by
  unfold Obligations.InvKeepsOutputsSafe
  intro s h
  obtain ⟨hboth, hoff⟩ := h.gates
  refine ⟨hboth, fun hcause => ?_⟩
  have hchosen : s.chosenMode = .off := by
    unfold State.chosenMode
    obtain hm | ht := hcause
    · simp [hm]
    · simp [ht]
  have hmode : s.os.mode = .off := (h.settled.1 (by simp [hchosen])).trans hchosen
  obtain ⟨hgh, hgl⟩ := hoff hmode
  exact ⟨hgh, hgl, by simp [State.genAsserted, hmode]⟩

end Sys2Proof.Machine
end

section
/-! What each field of the state is after each of the shared operations: one lemma per operation, its fields in a
conjunction, so that `simp` reads a field of a state through the operations that made it. -/

namespace Sys2Proof.Machine

/-! ### Fields of a conditional block -/

section
variable {p : Prop} [Decidable p]
@[simp] theorem setupPort_record_ite (x y : SetupPort) : (if p then x else y).record = if p then x.record else y.record := apply_ite ..
@[simp] theorem setupPort_locked_ite (x y : SetupPort) : (if p then x else y).locked = if p then x.locked else y.locked := apply_ite ..
@[simp] theorem setupPort_fingerprint_ite (x y : SetupPort) : (if p then x else y).fingerprint = if p then x.fingerprint else y.fingerprint := apply_ite ..
@[simp] theorem setupPort_tickets_ite (x y : SetupPort) : (if p then x else y).tickets = if p then x.tickets else y.tickets := apply_ite ..
@[simp] theorem setupPort_response_ite (x y : SetupPort) : (if p then x else y).response = if p then x.response else y.response := apply_ite ..
@[simp] theorem setupPort_events_ite (x y : SetupPort) : (if p then x else y).events = if p then x.events else y.events := apply_ite ..
@[simp] theorem setupPort_mask_ite (x y : SetupPort) : (if p then x else y).mask = if p then x.mask else y.mask := apply_ite ..
@[simp] theorem setupPort_snapshot_ite (x y : SetupPort) : (if p then x else y).snapshot = if p then x.snapshot else y.snapshot := apply_ite ..
@[simp] theorem faultUnit_flt0_ite (x y : FaultUnit) : (if p then x else y).flt0 = if p then x.flt0 else y.flt0 := apply_ite ..
@[simp] theorem faultUnit_flt1_ite (x y : FaultUnit) : (if p then x else y).flt1 = if p then x.flt1 else y.flt1 := apply_ite ..
@[simp] theorem faultUnit_flt2_ite (x y : FaultUnit) : (if p then x else y).flt2 = if p then x.flt2 else y.flt2 := apply_ite ..
@[simp] theorem faultUnit_tripSet_ite (x y : FaultUnit) : (if p then x else y).tripSet = if p then x.tripSet else y.tripSet := apply_ite ..
@[simp] theorem faultUnit_lastTrip_ite (x y : FaultUnit) : (if p then x else y).lastTrip = if p then x.lastTrip else y.lastTrip := apply_ite ..
@[simp] theorem faultUnit_shedFrame_ite (x y : FaultUnit) : (if p then x else y).shedFrame = if p then x.shedFrame else y.shedFrame := apply_ite ..
@[simp] theorem faultUnit_readmitFrame_ite (x y : FaultUnit) : (if p then x else y).readmitFrame = if p then x.readmitFrame else y.readmitFrame := apply_ite ..
@[simp] theorem busInterface_line_ite (x y : BusInterface) : (if p then x else y).line = if p then x.line else y.line := apply_ite ..
@[simp] theorem busInterface_rx_ite (x y : BusInterface) : (if p then x else y).rx = if p then x.rx else y.rx := apply_ite ..
@[simp] theorem busInterface_attempt_ite (x y : BusInterface) : (if p then x else y).attempt = if p then x.attempt else y.attempt := apply_ite ..
@[simp] theorem busInterface_queue_ite (x y : BusInterface) : (if p then x else y).queue = if p then x.queue else y.queue := apply_ite ..
@[simp] theorem busInterface_tripSlot_ite (x y : BusInterface) : (if p then x else y).tripSlot = if p then x.tripSlot else y.tripSlot := apply_ite ..
@[simp] theorem busInterface_abandonCount_ite (x y : BusInterface) : (if p then x else y).abandonCount = if p then x.abandonCount else y.abandonCount := apply_ite ..
@[simp] theorem busInterface_rejectCount_ite (x y : BusInterface) : (if p then x else y).rejectCount = if p then x.rejectCount else y.rejectCount := apply_ite ..
@[simp] theorem busInterface_clashWindow_ite (x y : BusInterface) : (if p then x else y).clashWindow = if p then x.clashWindow else y.clashWindow := apply_ite ..
@[simp] theorem busInterface_stuckEpochs_ite (x y : BusInterface) : (if p then x else y).stuckEpochs = if p then x.stuckEpochs else y.stuckEpochs := apply_ite ..
@[simp] theorem busInterface_errorFlagLeft_ite (x y : BusInterface) : (if p then x else y).errorFlagLeft = if p then x.errorFlagLeft else y.errorFlagLeft := apply_ite ..
@[simp] theorem rosterTable_entries_ite (x y : RosterTable) : (if p then x else y).entries = if p then x.entries else y.entries := apply_ite ..
@[simp] theorem rosterTable_copySource_ite (x y : RosterTable) : (if p then x else y).copySource = if p then x.copySource else y.copySource := apply_ite ..
@[simp] theorem rosterTable_epochDigest_ite (x y : RosterTable) : (if p then x else y).epochDigest = if p then x.epochDigest else y.epochDigest := apply_ite ..
@[simp] theorem rosterTable_armed_ite (x y : RosterTable) : (if p then x else y).armed = if p then x.armed else y.armed := apply_ite ..
@[simp] theorem rosterTable_expectedKey_ite (x y : RosterTable) : (if p then x else y).expectedKey = if p then x.expectedKey else y.expectedKey := apply_ite ..
@[simp] theorem rosterTable_groupFingerprint_ite (x y : RosterTable) : (if p then x else y).groupFingerprint = if p then x.groupFingerprint else y.groupFingerprint := apply_ite ..
@[simp] theorem rosterTable_countdown_ite (x y : RosterTable) : (if p then x else y).countdown = if p then x.countdown else y.countdown := apply_ite ..
@[simp] theorem rosterTable_pendingReplies_ite (x y : RosterTable) : (if p then x else y).pendingReplies = if p then x.pendingReplies else y.pendingReplies := apply_ite ..
@[simp] theorem rosterTable_heardGroup_ite (x y : RosterTable) : (if p then x else y).heardGroup = if p then x.heardGroup else y.heardGroup := apply_ite ..
@[simp] theorem commitQueue_entries_ite (x y : CommitQueue) : (if p then x else y).entries = if p then x.entries else y.entries := apply_ite ..
@[simp] theorem commitQueue_duty_ite (x y : CommitQueue) : (if p then x else y).duty = if p then x.duty else y.duty := apply_ite ..
@[simp] theorem commitQueue_nextSeq_ite (x y : CommitQueue) : (if p then x else y).nextSeq = if p then x.nextSeq else y.nextSeq := apply_ite ..
@[simp] theorem commitQueue_pendingObjections_ite (x y : CommitQueue) : (if p then x else y).pendingObjections = if p then x.pendingObjections else y.pendingObjections := apply_ite ..
@[simp] theorem commitQueue_frozenRef_ite (x y : CommitQueue) : (if p then x else y).frozenRef = if p then x.frozenRef else y.frozenRef := apply_ite ..
@[simp] theorem stationController_station_ite (x y : StationController) : (if p then x else y).station = if p then x.station else y.station := apply_ite ..
@[simp] theorem stationController_reason_ite (x y : StationController) : (if p then x else y).reason = if p then x.reason else y.reason := apply_ite ..
@[simp] theorem stationController_quiet_ite (x y : StationController) : (if p then x else y).quiet = if p then x.quiet else y.quiet := apply_ite ..
@[simp] theorem stationController_unlocked_ite (x y : StationController) : (if p then x else y).unlocked = if p then x.unlocked else y.unlocked := apply_ite ..
@[simp] theorem stationController_joinHoldoff_ite (x y : StationController) : (if p then x else y).joinHoldoff = if p then x.joinHoldoff else y.joinHoldoff := apply_ite ..
@[simp] theorem stationController_standing_ite (x y : StationController) : (if p then x else y).standing = if p then x.standing else y.standing := apply_ite ..
@[simp] theorem stationController_leavePending_ite (x y : StationController) : (if p then x else y).leavePending = if p then x.leavePending else y.leavePending := apply_ite ..
@[simp] theorem stationController_tracked_ite (x y : StationController) : (if p then x else y).tracked = if p then x.tracked else y.tracked := apply_ite ..
@[simp] theorem stationController_frameSinceListen_ite (x y : StationController) : (if p then x else y).frameSinceListen = if p then x.frameSinceListen else y.frameSinceListen := apply_ite ..
@[simp] theorem stationController_withdrawOwed_ite (x y : StationController) : (if p then x else y).withdrawOwed = if p then x.withdrawOwed else y.withdrawOwed := apply_ite ..
@[simp] theorem timeBase_b_ite (x y : TimeBase) : (if p then x else y).b = if p then x.b else y.b := apply_ite ..
@[simp] theorem timeBase_k_ite (x y : TimeBase) : (if p then x else y).k = if p then x.k else y.k := apply_ite ..
@[simp] theorem timeBase_en_ite (x y : TimeBase) : (if p then x else y).en = if p then x.en else y.en := apply_ite ..
@[simp] theorem timeBase_state_ite (x y : TimeBase) : (if p then x else y).state = if p then x.state else y.state := apply_ite ..
@[simp] theorem timeBase_inWindow_ite (x y : TimeBase) : (if p then x else y).inWindow = if p then x.inWindow else y.inWindow := apply_ite ..
@[simp] theorem timeBase_lastLead_ite (x y : TimeBase) : (if p then x else y).lastLead = if p then x.lastLead else y.lastLead := apply_ite ..
@[simp] theorem timeBase_markSeen_ite (x y : TimeBase) : (if p then x else y).markSeen = if p then x.markSeen else y.markSeen := apply_ite ..
@[simp] theorem timeBase_enAdopted_ite (x y : TimeBase) : (if p then x else y).enAdopted = if p then x.enAdopted else y.enAdopted := apply_ite ..
@[simp] theorem timeBase_levelLow_ite (x y : TimeBase) : (if p then x else y).levelLow = if p then x.levelLow else y.levelLow := apply_ite ..
@[simp] theorem timeBase_lowRun_ite (x y : TimeBase) : (if p then x else y).lowRun = if p then x.lowRun else y.lowRun := apply_ite ..
@[simp] theorem timeBase_resume_ite (x y : TimeBase) : (if p then x else y).resume = if p then x.resume else y.resume := apply_ite ..
@[simp] theorem timeBase_holdoverEpochs_ite (x y : TimeBase) : (if p then x else y).holdoverEpochs = if p then x.holdoverEpochs else y.holdoverEpochs := apply_ite ..
@[simp] theorem timeBase_driveLeft_ite (x y : TimeBase) : (if p then x else y).driveLeft = if p then x.driveLeft else y.driveLeft := apply_ite ..
@[simp] theorem timeBase_failedDrives_ite (x y : TimeBase) : (if p then x else y).failedDrives = if p then x.failedDrives else y.failedDrives := apply_ite ..
@[simp] theorem timeBase_filterRun_ite (x y : TimeBase) : (if p then x else y).filterRun = if p then x.filterRun else y.filterRun := apply_ite ..
@[simp] theorem timeBase_driveReadLow_ite (x y : TimeBase) : (if p then x else y).driveReadLow = if p then x.driveReadLow else y.driveReadLow := apply_ite ..
@[simp] theorem outputStage_p_ite (x y : OutputStage) : (if p then x else y).p = if p then x.p else y.p := apply_ite ..
@[simp] theorem outputStage_mode_ite (x y : OutputStage) : (if p then x else y).mode = if p then x.mode else y.mode := apply_ite ..
@[simp] theorem outputStage_cmp_ite (x y : OutputStage) : (if p then x else y).cmp = if p then x.cmp else y.cmp := apply_ite ..
@[simp] theorem outputStage_clampFlag_ite (x y : OutputStage) : (if p then x else y).clampFlag = if p then x.clampFlag else y.clampFlag := apply_ite ..
@[simp] theorem outputStage_clampRecord_ite (x y : OutputStage) : (if p then x else y).clampRecord = if p then x.clampRecord else y.clampRecord := apply_ite ..
@[simp] theorem outputStage_gh_ite (x y : OutputStage) : (if p then x else y).gh = if p then x.gh else y.gh := apply_ite ..
@[simp] theorem outputStage_gl_ite (x y : OutputStage) : (if p then x else y).gl = if p then x.gl else y.gl := apply_ite ..
@[simp] theorem outputStage_inactiveRun_ite (x y : OutputStage) : (if p then x else y).inactiveRun = if p then x.inactiveRun else y.inactiveRun := apply_ite ..
@[simp] theorem outputStage_blanking_ite (x y : OutputStage) : (if p then x else y).blanking = if p then x.blanking else y.blanking := apply_ite ..
@[simp] theorem outputStage_ghWas_ite (x y : OutputStage) : (if p then x else y).ghWas = if p then x.ghWas else y.ghWas := apply_ite ..
@[simp] theorem outputStage_glWas_ite (x y : OutputStage) : (if p then x else y).glWas = if p then x.glWas else y.glWas := apply_ite ..
@[simp] theorem outputStage_released_ite (x y : OutputStage) : (if p then x else y).released = if p then x.released else y.released := apply_ite ..
@[simp] theorem outputStage_anchored_ite (x y : OutputStage) : (if p then x else y).anchored = if p then x.anchored else y.anchored := apply_ite ..
@[simp] theorem placementUnit_target_ite (x y : PlacementUnit) : (if p then x else y).target = if p then x.target else y.target := apply_ite ..
@[simp] theorem placementUnit_offset_ite (x y : PlacementUnit) : (if p then x else y).offset = if p then x.offset else y.offset := apply_ite ..
@[simp] theorem placementUnit_slewing_ite (x y : PlacementUnit) : (if p then x else y).slewing = if p then x.slewing else y.slewing := apply_ite ..
@[simp] theorem placementUnit_step_ite (x y : PlacementUnit) : (if p then x else y).step = if p then x.step else y.step := apply_ite ..
@[simp] theorem placementUnit_length_ite (x y : PlacementUnit) : (if p then x else y).length = if p then x.length else y.length := apply_ite ..

end

namespace State

/-! ### Conditional work -/

/-- A field after conditional work is the field after the work or before it. -/
@[simp] theorem doIf_fields (c : Bool) (f : State → State) (s : State) :
    (s.doIf c f).sc = (if c then (f s).sc else s.sc) ∧ (s.doIf c f).tb = (if c then (f s).tb else s.tb)
      ∧ (s.doIf c f).bi = (if c then (f s).bi else s.bi) ∧ (s.doIf c f).rt = (if c then (f s).rt else s.rt)
      ∧ (s.doIf c f).cq = (if c then (f s).cq else s.cq) ∧ (s.doIf c f).pu = (if c then (f s).pu else s.pu)
      ∧ (s.doIf c f).os = (if c then (f s).os else s.os) ∧ (s.doIf c f).fu = (if c then (f s).fu else s.fu)
      ∧ (s.doIf c f).sp = (if c then (f s).sp else s.sp)
      ∧ (s.doIf c f).freeCount = (if c then (f s).freeCount else s.freeCount) := by
  cases c <;> simp

/-! ### Derived values -/

theorem isMember_congr {s t : State} (h : t.sc.station = s.sc.station) : t.isMember = s.isMember := by
  simp only [isMember, h]

theorem isFollower_congr {s t : State} (h : t.sc.station = s.sc.station) : t.isFollower = s.isFollower := by
  simp only [isFollower, h]

theorem ownId_congr {s t : State} (h : t.sp.record = s.sp.record) : t.ownId = s.ownId := by
  simp only [ownId, h]

theorem inputRecord_congr {s t : State} (h0 : t.fu.flt0 = s.fu.flt0) (h1 : t.fu.flt1 = s.fu.flt1)
    (h2 : t.fu.flt2 = s.fu.flt2) (i : InputNo) : t.inputRecord i = s.inputRecord i := by
  cases i
  exacts [h0, h1, h2]

/-! ### Events, tickets, roster and trip set -/

@[simp] theorem updateTickets_kept (hit : Ticket → Bool) (f : Ticket → Ticket) (s : State) :
    (s.updateTickets hit f).sc = s.sc ∧ (s.updateTickets hit f).tb = s.tb ∧ (s.updateTickets hit f).bi = s.bi
      ∧ (s.updateTickets hit f).rt = s.rt ∧ (s.updateTickets hit f).cq = s.cq ∧ (s.updateTickets hit f).pu = s.pu
      ∧ (s.updateTickets hit f).os = s.os ∧ (s.updateTickets hit f).fu = s.fu
      ∧ (s.updateTickets hit f).sp.record = s.sp.record ∧ (s.updateTickets hit f).sp.locked = s.sp.locked
      ∧ (s.updateTickets hit f).sp.fingerprint = s.sp.fingerprint
      ∧ (s.updateTickets hit f).sp.response = s.sp.response ∧ (s.updateTickets hit f).freeCount = s.freeCount
      ∧ (s.updateTickets hit f).sp.tickets = s.sp.tickets.map fun x => if x.unfinished && hit x then f x else x := by
  simp [updateTickets]

@[simp] theorem reportTicket_kept (n : Byte) (d : ProposalContent) (f : Ticket → Ticket) (s : State) :
    (s.reportTicket n d f).sc = s.sc ∧ (s.reportTicket n d f).tb = s.tb ∧ (s.reportTicket n d f).bi = s.bi
      ∧ (s.reportTicket n d f).rt = s.rt ∧ (s.reportTicket n d f).cq = s.cq ∧ (s.reportTicket n d f).pu = s.pu
      ∧ (s.reportTicket n d f).os = s.os ∧ (s.reportTicket n d f).fu = s.fu
      ∧ (s.reportTicket n d f).sp.record = s.sp.record ∧ (s.reportTicket n d f).sp.locked = s.sp.locked
      ∧ (s.reportTicket n d f).sp.fingerprint = s.sp.fingerprint ∧ (s.reportTicket n d f).sp.response = s.sp.response
      ∧ (s.reportTicket n d f).freeCount = s.freeCount := by
  simp [reportTicket]

@[simp] theorem voidTickets_kept (r : VoidReason) (s : State) :
    (s.voidTickets r).sc = s.sc ∧ (s.voidTickets r).tb = s.tb ∧ (s.voidTickets r).bi = s.bi
      ∧ (s.voidTickets r).rt = s.rt ∧ (s.voidTickets r).cq = s.cq ∧ (s.voidTickets r).pu = s.pu
      ∧ (s.voidTickets r).os = s.os ∧ (s.voidTickets r).fu = s.fu ∧ (s.voidTickets r).sp.record = s.sp.record
      ∧ (s.voidTickets r).sp.locked = s.sp.locked ∧ (s.voidTickets r).sp.fingerprint = s.sp.fingerprint
      ∧ (s.voidTickets r).sp.response = s.sp.response ∧ (s.voidTickets r).freeCount = s.freeCount
      ∧ (s.voidTickets r).sp.tickets = s.ticketsVoided r := by
  simp [voidTickets, ticketsVoided, Ticket.finish]

@[simp] theorem abandonReserved_kept (s : State) :
    (s.abandonReserved).sc = s.sc ∧ (s.abandonReserved).tb = s.tb ∧ (s.abandonReserved).bi = s.bi
      ∧ (s.abandonReserved).rt = s.rt ∧ (s.abandonReserved).cq = s.cq ∧ (s.abandonReserved).pu = s.pu
      ∧ (s.abandonReserved).os = s.os ∧ (s.abandonReserved).fu = s.fu ∧ (s.abandonReserved).sp.record = s.sp.record
      ∧ (s.abandonReserved).sp.locked = s.sp.locked ∧ (s.abandonReserved).sp.fingerprint = s.sp.fingerprint
      ∧ (s.abandonReserved).sp.response = s.sp.response ∧ (s.abandonReserved).freeCount = s.freeCount := by
  simp [abandonReserved]

@[simp] theorem issueTicket_kept (n : Byte) (k : TicketKind) (r : Bool) (s : State) :
    (s.issueTicket n k r).sc = s.sc ∧ (s.issueTicket n k r).tb = s.tb ∧ (s.issueTicket n k r).bi = s.bi
      ∧ (s.issueTicket n k r).rt = s.rt ∧ (s.issueTicket n k r).cq = s.cq ∧ (s.issueTicket n k r).pu = s.pu
      ∧ (s.issueTicket n k r).os = s.os ∧ (s.issueTicket n k r).fu = s.fu
      ∧ (s.issueTicket n k r).sp.record = s.sp.record ∧ (s.issueTicket n k r).sp.locked = s.sp.locked
      ∧ (s.issueTicket n k r).sp.fingerprint = s.sp.fingerprint ∧ (s.issueTicket n k r).sp.response = s.sp.response
      ∧ (s.issueTicket n k r).sp.events = s.sp.events ∧ (s.issueTicket n k r).freeCount = s.freeCount
      ∧ (s.issueTicket n k r).sp.tickets = issueInto ⟨n, k, .waiting, none, false, false, r⟩ s.sp.tickets := by
  simp [issueTicket]

@[simp] theorem setRoster_kept (l : List RosterEntry) (s : State) :
    (s.setRoster l).sc = s.sc ∧ (s.setRoster l).tb = s.tb ∧ (s.setRoster l).bi = s.bi ∧ (s.setRoster l).cq = s.cq
      ∧ (s.setRoster l).pu = s.pu ∧ (s.setRoster l).os = s.os ∧ (s.setRoster l).fu = s.fu
      ∧ (s.setRoster l).sp.record = s.sp.record ∧ (s.setRoster l).sp.locked = s.sp.locked
      ∧ (s.setRoster l).sp.fingerprint = s.sp.fingerprint ∧ (s.setRoster l).sp.tickets = s.sp.tickets
      ∧ (s.setRoster l).sp.response = s.sp.response ∧ (s.setRoster l).freeCount = s.freeCount
      ∧ (s.setRoster l).rt = { s.rt with entries := l } := by
  simp [setRoster]

@[simp] theorem setEntry_kept (i : StationId) (e : RosterEntry) (s : State) :
    (s.setEntry i e).sc = s.sc ∧ (s.setEntry i e).tb = s.tb ∧ (s.setEntry i e).bi = s.bi ∧ (s.setEntry i e).cq = s.cq
      ∧ (s.setEntry i e).pu = s.pu ∧ (s.setEntry i e).os = s.os ∧ (s.setEntry i e).fu = s.fu
      ∧ (s.setEntry i e).sp.record = s.sp.record ∧ (s.setEntry i e).sp.locked = s.sp.locked
      ∧ (s.setEntry i e).sp.fingerprint = s.sp.fingerprint ∧ (s.setEntry i e).sp.tickets = s.sp.tickets
      ∧ (s.setEntry i e).sp.response = s.sp.response ∧ (s.setEntry i e).freeCount = s.freeCount
      ∧ (s.setEntry i e).rt = { s.rt with entries := s.rt.entries.set i.val e } := by
  simp [setEntry]

@[simp] theorem clearRoster_kept (s : State) :
    (s.clearRoster).sc = s.sc ∧ (s.clearRoster).tb = s.tb ∧ (s.clearRoster).bi = s.bi ∧ (s.clearRoster).cq = s.cq
      ∧ (s.clearRoster).pu = s.pu ∧ (s.clearRoster).os = s.os ∧ (s.clearRoster).fu = s.fu
      ∧ (s.clearRoster).sp.record = s.sp.record ∧ (s.clearRoster).sp.locked = s.sp.locked
      ∧ (s.clearRoster).sp.fingerprint = s.sp.fingerprint ∧ (s.clearRoster).sp.tickets = s.sp.tickets
      ∧ (s.clearRoster).sp.response = s.sp.response ∧ (s.clearRoster).freeCount = s.freeCount
      ∧ (s.clearRoster).rt = { s.rt with entries := List.replicate 16 .absentEntry } := by
  simp [clearRoster]

@[simp] theorem setTripSet_kept (m : StationMask) (s : State) :
    (s.setTripSet m).sc = s.sc ∧ (s.setTripSet m).tb = s.tb ∧ (s.setTripSet m).bi = s.bi ∧ (s.setTripSet m).rt = s.rt
      ∧ (s.setTripSet m).cq = s.cq ∧ (s.setTripSet m).pu = s.pu ∧ (s.setTripSet m).os = s.os
      ∧ (s.setTripSet m).sp.record = s.sp.record ∧ (s.setTripSet m).sp.locked = s.sp.locked
      ∧ (s.setTripSet m).sp.fingerprint = s.sp.fingerprint ∧ (s.setTripSet m).sp.tickets = s.sp.tickets
      ∧ (s.setTripSet m).sp.response = s.sp.response ∧ (s.setTripSet m).freeCount = s.freeCount
      ∧ (s.setTripSet m).fu = { s.fu with tripSet := m } := by
  simp [setTripSet]

/-! ### The transmit queue -/

@[simp] theorem syncFaultFrames_kept (s : State) :
    (s.syncFaultFrames).sc = s.sc ∧ (s.syncFaultFrames).tb = s.tb ∧ (s.syncFaultFrames).bi = s.bi
      ∧ (s.syncFaultFrames).rt = s.rt ∧ (s.syncFaultFrames).cq = s.cq ∧ (s.syncFaultFrames).pu = s.pu
      ∧ (s.syncFaultFrames).os = s.os ∧ (s.syncFaultFrames).sp = s.sp ∧ (s.syncFaultFrames).freeCount = s.freeCount
      ∧ (s.syncFaultFrames).fu.flt0 = s.fu.flt0 ∧ (s.syncFaultFrames).fu.flt1 = s.fu.flt1
      ∧ (s.syncFaultFrames).fu.flt2 = s.fu.flt2 ∧ (s.syncFaultFrames).fu.tripSet = s.fu.tripSet
      ∧ (s.syncFaultFrames).fu.lastTrip = s.fu.lastTrip := by
  simp [syncFaultFrames]

@[simp] theorem setQueue_kept (q : List QueuedFrame) (s : State) :
    (s.setQueue q).sc = s.sc ∧ (s.setQueue q).tb = s.tb ∧ (s.setQueue q).rt = s.rt ∧ (s.setQueue q).cq = s.cq
      ∧ (s.setQueue q).pu = s.pu ∧ (s.setQueue q).os = s.os ∧ (s.setQueue q).sp = s.sp
      ∧ (s.setQueue q).freeCount = s.freeCount ∧ (s.setQueue q).fu.flt0 = s.fu.flt0
      ∧ (s.setQueue q).fu.flt1 = s.fu.flt1 ∧ (s.setQueue q).fu.flt2 = s.fu.flt2
      ∧ (s.setQueue q).fu.tripSet = s.fu.tripSet ∧ (s.setQueue q).fu.lastTrip = s.fu.lastTrip
      ∧ (s.setQueue q).bi = { s.bi with queue := q } := by
  simp [setQueue]

@[simp] theorem dropFrames_kept (test : QueuedFrame → Bool) (s : State) :
    (s.dropFrames test).sc = s.sc ∧ (s.dropFrames test).tb = s.tb ∧ (s.dropFrames test).rt = s.rt
      ∧ (s.dropFrames test).cq = s.cq ∧ (s.dropFrames test).pu = s.pu ∧ (s.dropFrames test).os = s.os
      ∧ (s.dropFrames test).sp = s.sp ∧ (s.dropFrames test).freeCount = s.freeCount
      ∧ (s.dropFrames test).fu.flt0 = s.fu.flt0 ∧ (s.dropFrames test).fu.flt1 = s.fu.flt1
      ∧ (s.dropFrames test).fu.flt2 = s.fu.flt2 ∧ (s.dropFrames test).fu.tripSet = s.fu.tripSet
      ∧ (s.dropFrames test).fu.lastTrip = s.fu.lastTrip ∧ (s.dropFrames test).bi.line = s.bi.line
      ∧ (s.dropFrames test).bi.tripSlot = s.bi.tripSlot ∧ (s.dropFrames test).bi.abandonCount = s.bi.abandonCount
      ∧ (s.dropFrames test).bi.rejectCount = s.bi.rejectCount ∧ (s.dropFrames test).bi.clashWindow = s.bi.clashWindow
      ∧ (s.dropFrames test).bi.stuckEpochs = s.bi.stuckEpochs
      ∧ (s.dropFrames test).bi.errorFlagLeft = s.bi.errorFlagLeft
      ∧ (s.dropFrames test).bi.queue = s.bi.queue.filter fun x => !test x := by
  simp [dropFrames, BusInterface.dropAttempt]

@[simp] theorem dropBodies_kept (test : QueuedBody → Bool) (s : State) :
    (s.dropBodies test).sc = s.sc ∧ (s.dropBodies test).tb = s.tb ∧ (s.dropBodies test).rt = s.rt
      ∧ (s.dropBodies test).cq = s.cq ∧ (s.dropBodies test).pu = s.pu ∧ (s.dropBodies test).os = s.os
      ∧ (s.dropBodies test).sp = s.sp ∧ (s.dropBodies test).freeCount = s.freeCount
      ∧ (s.dropBodies test).fu.flt0 = s.fu.flt0 ∧ (s.dropBodies test).fu.flt1 = s.fu.flt1
      ∧ (s.dropBodies test).fu.flt2 = s.fu.flt2 ∧ (s.dropBodies test).fu.tripSet = s.fu.tripSet
      ∧ (s.dropBodies test).fu.lastTrip = s.fu.lastTrip ∧ (s.dropBodies test).bi.line = s.bi.line
      ∧ (s.dropBodies test).bi.tripSlot = s.bi.tripSlot ∧ (s.dropBodies test).bi.abandonCount = s.bi.abandonCount
      ∧ (s.dropBodies test).bi.rejectCount = s.bi.rejectCount ∧ (s.dropBodies test).bi.clashWindow = s.bi.clashWindow
      ∧ (s.dropBodies test).bi.stuckEpochs = s.bi.stuckEpochs
      ∧ (s.dropBodies test).bi.errorFlagLeft = s.bi.errorFlagLeft
      ∧ (s.dropBodies test).bi.queue = s.bi.queue.filter fun x => !test x.body := by
  simp [dropBodies]

@[simp] theorem emptyTripSlot_kept (s : State) :
    (s.emptyTripSlot).sc = s.sc ∧ (s.emptyTripSlot).tb = s.tb ∧ (s.emptyTripSlot).rt = s.rt
      ∧ (s.emptyTripSlot).cq = s.cq ∧ (s.emptyTripSlot).pu = s.pu ∧ (s.emptyTripSlot).os = s.os
      ∧ (s.emptyTripSlot).fu = s.fu ∧ (s.emptyTripSlot).sp = s.sp ∧ (s.emptyTripSlot).freeCount = s.freeCount
      ∧ (s.emptyTripSlot).bi.line = s.bi.line ∧ (s.emptyTripSlot).bi.queue = s.bi.queue
      ∧ (s.emptyTripSlot).bi.abandonCount = s.bi.abandonCount ∧ (s.emptyTripSlot).bi.rejectCount = s.bi.rejectCount
      ∧ (s.emptyTripSlot).bi.clashWindow = s.bi.clashWindow ∧ (s.emptyTripSlot).bi.stuckEpochs = s.bi.stuckEpochs
      ∧ (s.emptyTripSlot).bi.errorFlagLeft = s.bi.errorFlagLeft ∧ (s.emptyTripSlot).bi.tripSlot = none := by
  simp [emptyTripSlot, BusInterface.dropAttempt]

@[simp] theorem fillTripSlot_kept (f : TripFields) (s : State) :
    (s.fillTripSlot f).sc = s.sc ∧ (s.fillTripSlot f).tb = s.tb ∧ (s.fillTripSlot f).rt = s.rt
      ∧ (s.fillTripSlot f).cq = s.cq ∧ (s.fillTripSlot f).pu = s.pu ∧ (s.fillTripSlot f).os = s.os
      ∧ (s.fillTripSlot f).fu = s.fu ∧ (s.fillTripSlot f).sp = s.sp ∧ (s.fillTripSlot f).freeCount = s.freeCount
      ∧ (s.fillTripSlot f).bi.line = s.bi.line ∧ (s.fillTripSlot f).bi.queue = s.bi.queue
      ∧ (s.fillTripSlot f).bi.attempt = s.bi.attempt ∧ (s.fillTripSlot f).bi.rx = s.bi.rx := by
  simp [fillTripSlot]

@[simp] theorem emptyQueue_kept (r : VoidReason) (s : State) :
    (s.emptyQueue r).sc = s.sc ∧ (s.emptyQueue r).tb = s.tb ∧ (s.emptyQueue r).bi = s.bi ∧ (s.emptyQueue r).rt = s.rt
      ∧ (s.emptyQueue r).pu = s.pu ∧ (s.emptyQueue r).os = s.os ∧ (s.emptyQueue r).fu = s.fu
      ∧ (s.emptyQueue r).sp.record = s.sp.record ∧ (s.emptyQueue r).sp.locked = s.sp.locked
      ∧ (s.emptyQueue r).sp.fingerprint = s.sp.fingerprint ∧ (s.emptyQueue r).sp.response = s.sp.response
      ∧ (s.emptyQueue r).freeCount = s.freeCount
      ∧ (s.emptyQueue r).cq = { s.cq with entries := [], pendingObjections := [] } := by
  obtain ⟨tickets, ev, h⟩ := emptyQueue_frame r s
  simp [h]

/-! ### Placement and output -/

@[simp] theorem regate_kept (s : State) :
    (s.regate).sc = s.sc ∧ (s.regate).tb = s.tb ∧ (s.regate).bi = s.bi ∧ (s.regate).rt = s.rt ∧ (s.regate).cq = s.cq
      ∧ (s.regate).pu = s.pu ∧ (s.regate).fu = s.fu ∧ (s.regate).sp = s.sp ∧ (s.regate).freeCount = s.freeCount
      ∧ (s.regate).os.p = s.os.p ∧ (s.regate).os.mode = s.os.mode ∧ (s.regate).os.cmp = s.os.cmp
      ∧ (s.regate).os.clampFlag = s.os.clampFlag ∧ (s.regate).os.clampRecord = s.os.clampRecord
      ∧ (s.regate).os.inactiveRun = s.os.inactiveRun ∧ (s.regate).os.blanking = s.os.blanking
      ∧ (s.regate).os.ghWas = s.os.ghWas ∧ (s.regate).os.glWas = s.os.glWas ∧ (s.regate).os.released = s.os.released
      ∧ (s.regate).os.anchored = s.os.anchored := by
  simp [regate, OutputStage.regate]

@[simp] theorem remode_kept (s : State) :
    (s.remode).sc = s.sc ∧ (s.remode).tb = s.tb ∧ (s.remode).bi = s.bi ∧ (s.remode).rt = s.rt ∧ (s.remode).cq = s.cq
      ∧ (s.remode).pu = s.pu ∧ (s.remode).fu = s.fu ∧ (s.remode).sp = s.sp ∧ (s.remode).freeCount = s.freeCount
      ∧ (s.remode).os.p = s.os.p ∧ (s.remode).os.cmp = s.os.cmp := by
  obtain ⟨os, h, hp, hcmp⟩ := remode_frame s
  simp [h, hp, hcmp]

@[simp] theorem recomputeTarget_kept (s : State) :
    (s.recomputeTarget).sc = s.sc ∧ (s.recomputeTarget).tb = s.tb ∧ (s.recomputeTarget).bi = s.bi
      ∧ (s.recomputeTarget).rt = s.rt ∧ (s.recomputeTarget).cq = s.cq ∧ (s.recomputeTarget).fu = s.fu
      ∧ (s.recomputeTarget).sp.record = s.sp.record ∧ (s.recomputeTarget).sp.locked = s.sp.locked
      ∧ (s.recomputeTarget).sp.fingerprint = s.sp.fingerprint ∧ (s.recomputeTarget).sp.tickets = s.sp.tickets
      ∧ (s.recomputeTarget).sp.response = s.sp.response ∧ (s.recomputeTarget).freeCount = s.freeCount
      ∧ (s.recomputeTarget).os.mode = s.os.mode := by
  obtain ⟨pu, os, ev, h, hk⟩ := recomputeTarget_frame s
  simp [h, hk]

@[simp] theorem settle_kept (s : State) :
    (s.settle).sc = s.sc ∧ (s.settle).tb = s.tb ∧ (s.settle).bi = s.bi ∧ (s.settle).rt = s.rt ∧ (s.settle).cq = s.cq
      ∧ (s.settle).fu = s.fu ∧ (s.settle).sp.record = s.sp.record ∧ (s.settle).sp.locked = s.sp.locked
      ∧ (s.settle).sp.fingerprint = s.sp.fingerprint ∧ (s.settle).sp.tickets = s.sp.tickets
      ∧ (s.settle).sp.response = s.sp.response ∧ (s.settle).freeCount = s.freeCount ∧ (s.settle).os.cmp = s.os.cmp := by
  obtain ⟨pu, os, ev, h, hk⟩ := settle_frame s
  simp [h, hk]

@[simp] theorem jumpToTarget_kept (s : State) :
    (s.jumpToTarget).sc = s.sc ∧ (s.jumpToTarget).tb = s.tb ∧ (s.jumpToTarget).bi = s.bi ∧ (s.jumpToTarget).rt = s.rt
      ∧ (s.jumpToTarget).cq = s.cq ∧ (s.jumpToTarget).fu = s.fu ∧ (s.jumpToTarget).sp.record = s.sp.record
      ∧ (s.jumpToTarget).sp.locked = s.sp.locked ∧ (s.jumpToTarget).sp.fingerprint = s.sp.fingerprint
      ∧ (s.jumpToTarget).sp.tickets = s.sp.tickets ∧ (s.jumpToTarget).sp.response = s.sp.response
      ∧ (s.jumpToTarget).freeCount = s.freeCount ∧ (s.jumpToTarget).os.mode = s.os.mode
      ∧ (s.jumpToTarget).os.cmp = s.os.cmp := by
  obtain ⟨pu, os, ev, h, hk⟩ := jumpToTarget_frame s
  simp [h, hk]

@[simp] theorem adoptTarget_kept (s : State) :
    (s.adoptTarget).sc = s.sc ∧ (s.adoptTarget).tb = s.tb ∧ (s.adoptTarget).bi = s.bi ∧ (s.adoptTarget).rt = s.rt
      ∧ (s.adoptTarget).cq = s.cq ∧ (s.adoptTarget).fu = s.fu ∧ (s.adoptTarget).sp.record = s.sp.record
      ∧ (s.adoptTarget).sp.locked = s.sp.locked ∧ (s.adoptTarget).sp.fingerprint = s.sp.fingerprint
      ∧ (s.adoptTarget).sp.tickets = s.sp.tickets ∧ (s.adoptTarget).sp.response = s.sp.response
      ∧ (s.adoptTarget).freeCount = s.freeCount ∧ (s.adoptTarget).os.mode = s.os.mode
      ∧ (s.adoptTarget).os.cmp = s.os.cmp ∧ (s.adoptTarget).os.blanking = s.os.blanking := by
  obtain ⟨pu, os, ev, h, hm, hc, hb, -⟩ := adoptTarget_frame s
  simp [h, hm, hc, hb]

@[simp] theorem reachTest_kept (s : State) :
    (s.reachTest).sc = s.sc ∧ (s.reachTest).tb = s.tb ∧ (s.reachTest).bi = s.bi ∧ (s.reachTest).rt = s.rt
      ∧ (s.reachTest).cq = s.cq ∧ (s.reachTest).fu = s.fu ∧ (s.reachTest).sp.record = s.sp.record
      ∧ (s.reachTest).sp.locked = s.sp.locked ∧ (s.reachTest).sp.fingerprint = s.sp.fingerprint
      ∧ (s.reachTest).sp.tickets = s.sp.tickets ∧ (s.reachTest).sp.response = s.sp.response
      ∧ (s.reachTest).freeCount = s.freeCount ∧ (s.reachTest).os = s.os ∧ (s.reachTest).pu.target = s.pu.target
      ∧ (s.reachTest).pu.offset = s.pu.offset ∧ (s.reachTest).pu.step = s.pu.step
      ∧ (s.reachTest).pu.length = s.pu.length := by
  unfold reachTest
  repeat' split
  all_goals simp

@[simp] theorem placeCycle_kept (s : State) :
    (s.placeCycle).sc = s.sc ∧ (s.placeCycle).tb = s.tb ∧ (s.placeCycle).bi = s.bi ∧ (s.placeCycle).rt = s.rt
      ∧ (s.placeCycle).cq = s.cq ∧ (s.placeCycle).fu = s.fu ∧ (s.placeCycle).sp.record = s.sp.record
      ∧ (s.placeCycle).sp.locked = s.sp.locked ∧ (s.placeCycle).sp.fingerprint = s.sp.fingerprint
      ∧ (s.placeCycle).sp.tickets = s.sp.tickets ∧ (s.placeCycle).sp.response = s.sp.response
      ∧ (s.placeCycle).freeCount = s.freeCount ∧ (s.placeCycle).os = s.os ∧ (s.placeCycle).pu.target = s.pu.target := by
  simp [placeCycle]

@[simp] theorem latchCompare_kept (s : State) :
    (s.latchCompare).sc = s.sc ∧ (s.latchCompare).tb = s.tb ∧ (s.latchCompare).bi = s.bi ∧ (s.latchCompare).rt = s.rt
      ∧ (s.latchCompare).cq = s.cq ∧ (s.latchCompare).fu = s.fu ∧ (s.latchCompare).sp = s.sp
      ∧ (s.latchCompare).pu = s.pu ∧ (s.latchCompare).freeCount = s.freeCount ∧ (s.latchCompare).os.p = s.os.p
      ∧ (s.latchCompare).os.mode = s.os.mode ∧ (s.latchCompare).os.clampRecord = s.os.clampRecord
      ∧ (s.latchCompare).os.gh = s.os.gh ∧ (s.latchCompare).os.gl = s.os.gl
      ∧ (s.latchCompare).os.inactiveRun = s.os.inactiveRun ∧ (s.latchCompare).os.blanking = s.os.blanking
      ∧ (s.latchCompare).os.ghWas = s.os.ghWas ∧ (s.latchCompare).os.glWas = s.os.glWas
      ∧ (s.latchCompare).os.released = s.os.released ∧ (s.latchCompare).os.anchored = s.os.anchored := by
  simp [latchCompare]

@[simp] theorem enterRun_kept (s : State) :
    (s.enterRun).sc = s.sc ∧ (s.enterRun).tb = s.tb ∧ (s.enterRun).bi = s.bi ∧ (s.enterRun).rt = s.rt
      ∧ (s.enterRun).cq = s.cq ∧ (s.enterRun).fu = s.fu ∧ (s.enterRun).sp = s.sp ∧ (s.enterRun).pu = s.pu
      ∧ (s.enterRun).freeCount = s.freeCount ∧ (s.enterRun).os.p = s.os.p ∧ (s.enterRun).os.cmp = s.os.cmp
      ∧ (s.enterRun).os.clampFlag = s.os.clampFlag ∧ (s.enterRun).os.clampRecord = s.os.clampRecord
      ∧ (s.enterRun).os.gh = s.os.gh ∧ (s.enterRun).os.gl = s.os.gl ∧ (s.enterRun).os.inactiveRun = s.os.inactiveRun
      ∧ (s.enterRun).os.blanking = s.os.blanking ∧ (s.enterRun).os.ghWas = s.os.ghWas
      ∧ (s.enterRun).os.glWas = s.os.glWas ∧ (s.enterRun).os.released = s.os.released
      ∧ (s.enterRun).os.anchored = s.os.anchored := by
  unfold enterRun
  split <;> simp

@[simp] theorem clampEvent_kept (s : State) :
    (s.clampEvent).sc = s.sc ∧ (s.clampEvent).tb = s.tb ∧ (s.clampEvent).bi = s.bi ∧ (s.clampEvent).rt = s.rt
      ∧ (s.clampEvent).cq = s.cq ∧ (s.clampEvent).fu = s.fu ∧ (s.clampEvent).sp.record = s.sp.record
      ∧ (s.clampEvent).sp.locked = s.sp.locked ∧ (s.clampEvent).sp.fingerprint = s.sp.fingerprint
      ∧ (s.clampEvent).sp.tickets = s.sp.tickets ∧ (s.clampEvent).sp.response = s.sp.response
      ∧ (s.clampEvent).freeCount = s.freeCount ∧ (s.clampEvent).pu = s.pu ∧ (s.clampEvent).os.p = s.os.p
      ∧ (s.clampEvent).os.mode = s.os.mode ∧ (s.clampEvent).os.cmp = s.os.cmp
      ∧ (s.clampEvent).os.clampFlag = s.os.clampFlag ∧ (s.clampEvent).os.gh = s.os.gh
      ∧ (s.clampEvent).os.gl = s.os.gl ∧ (s.clampEvent).os.inactiveRun = s.os.inactiveRun
      ∧ (s.clampEvent).os.blanking = s.os.blanking ∧ (s.clampEvent).os.ghWas = s.os.ghWas
      ∧ (s.clampEvent).os.glWas = s.os.glWas ∧ (s.clampEvent).os.released = s.os.released
      ∧ (s.clampEvent).os.anchored = s.os.anchored := by
  unfold clampEvent
  split_ifs <;> simp

@[simp] theorem cycleStart_kept (e : Bool) (s : State) :
    (s.cycleStart e).sc = s.sc ∧ (s.cycleStart e).tb = s.tb ∧ (s.cycleStart e).bi = s.bi ∧ (s.cycleStart e).rt = s.rt
      ∧ (s.cycleStart e).cq = s.cq ∧ (s.cycleStart e).fu = s.fu ∧ (s.cycleStart e).sp.record = s.sp.record
      ∧ (s.cycleStart e).sp.locked = s.sp.locked ∧ (s.cycleStart e).sp.fingerprint = s.sp.fingerprint
      ∧ (s.cycleStart e).sp.tickets = s.sp.tickets ∧ (s.cycleStart e).sp.response = s.sp.response
      ∧ (s.cycleStart e).freeCount = s.freeCount ∧ (s.cycleStart e).pu.target = s.pu.target
      ∧ (s.cycleStart e).os.inactiveRun = s.os.inactiveRun ∧ (s.cycleStart e).os.ghWas = s.os.ghWas
      ∧ (s.cycleStart e).os.glWas = s.os.glWas ∧ (s.cycleStart e).os.released = s.os.released
      ∧ (s.cycleStart e).os.anchored = s.os.anchored ∧ (s.cycleStart e).os.p = 0
      ∧ (s.cycleStart e).os.blanking = (s.os.blanking && !e) := by
  simp [cycleStart]

/-! ### The Fault Unit -/

@[simp] theorem shedTest_kept (s : State) :
    (s.shedTest).sc = s.sc ∧ (s.shedTest).tb = s.tb ∧ (s.shedTest).rt = s.rt ∧ (s.shedTest).pu = s.pu
      ∧ (s.shedTest).os = s.os ∧ (s.shedTest).sp = s.sp ∧ (s.shedTest).freeCount = s.freeCount
      ∧ (s.shedTest).cq.entries = s.cq.entries ∧ (s.shedTest).cq.duty = s.cq.duty
      ∧ (s.shedTest).cq.pendingObjections = s.cq.pendingObjections ∧ (s.shedTest).cq.frozenRef = s.cq.frozenRef
      ∧ (s.shedTest).bi.line = s.bi.line ∧ (s.shedTest).bi.rx = s.bi.rx ∧ (s.shedTest).bi.attempt = s.bi.attempt
      ∧ (s.shedTest).bi.tripSlot = s.bi.tripSlot ∧ (s.shedTest).bi.abandonCount = s.bi.abandonCount
      ∧ (s.shedTest).bi.rejectCount = s.bi.rejectCount ∧ (s.shedTest).fu.flt0 = s.fu.flt0
      ∧ (s.shedTest).fu.flt1 = s.fu.flt1 ∧ (s.shedTest).fu.flt2 = s.fu.flt2 ∧ (s.shedTest).fu.tripSet = s.fu.tripSet
      ∧ (s.shedTest).fu.lastTrip = s.fu.lastTrip := by
  obtain ⟨q, seq, shed, readmit, h⟩ := shedTest_frame s
  simp [h]

@[simp] theorem readmissionTest_kept (s : State) :
    (s.readmissionTest).sc = s.sc ∧ (s.readmissionTest).tb = s.tb ∧ (s.readmissionTest).rt = s.rt
      ∧ (s.readmissionTest).pu = s.pu ∧ (s.readmissionTest).os = s.os ∧ (s.readmissionTest).sp = s.sp
      ∧ (s.readmissionTest).freeCount = s.freeCount ∧ (s.readmissionTest).cq.entries = s.cq.entries
      ∧ (s.readmissionTest).cq.duty = s.cq.duty ∧ (s.readmissionTest).cq.pendingObjections = s.cq.pendingObjections
      ∧ (s.readmissionTest).cq.frozenRef = s.cq.frozenRef ∧ (s.readmissionTest).bi.line = s.bi.line
      ∧ (s.readmissionTest).bi.rx = s.bi.rx ∧ (s.readmissionTest).bi.attempt = s.bi.attempt
      ∧ (s.readmissionTest).bi.tripSlot = s.bi.tripSlot ∧ (s.readmissionTest).bi.abandonCount = s.bi.abandonCount
      ∧ (s.readmissionTest).bi.rejectCount = s.bi.rejectCount ∧ (s.readmissionTest).fu.flt0 = s.fu.flt0
      ∧ (s.readmissionTest).fu.flt1 = s.fu.flt1 ∧ (s.readmissionTest).fu.flt2 = s.fu.flt2
      ∧ (s.readmissionTest).fu.tripSet = s.fu.tripSet ∧ (s.readmissionTest).fu.lastTrip = s.fu.lastTrip := by
  obtain ⟨q, seq, shed, readmit, h⟩ := readmissionTest_frame s
  simp [h]

@[simp] theorem withdrawalTest_kept (s : State) :
    (s.withdrawalTest).sc = s.sc ∧ (s.withdrawalTest).tb = s.tb ∧ (s.withdrawalTest).rt = s.rt
      ∧ (s.withdrawalTest).cq = s.cq ∧ (s.withdrawalTest).pu = s.pu ∧ (s.withdrawalTest).os = s.os
      ∧ (s.withdrawalTest).sp = s.sp ∧ (s.withdrawalTest).freeCount = s.freeCount
      ∧ (s.withdrawalTest).bi.line = s.bi.line ∧ (s.withdrawalTest).bi.rx = s.bi.rx
      ∧ (s.withdrawalTest).bi.attempt = s.bi.attempt ∧ (s.withdrawalTest).bi.tripSlot = s.bi.tripSlot
      ∧ (s.withdrawalTest).bi.abandonCount = s.bi.abandonCount ∧ (s.withdrawalTest).bi.rejectCount = s.bi.rejectCount
      ∧ (s.withdrawalTest).fu.flt0 = s.fu.flt0 ∧ (s.withdrawalTest).fu.flt1 = s.fu.flt1
      ∧ (s.withdrawalTest).fu.flt2 = s.fu.flt2 ∧ (s.withdrawalTest).fu.tripSet = s.fu.tripSet
      ∧ (s.withdrawalTest).fu.lastTrip = s.fu.lastTrip := by
  obtain ⟨q, shed, readmit, h⟩ := withdrawalTest_frame s
  simp [h]

@[simp] theorem memberTests_kept (s : State) :
    (s.memberTests).sc = s.sc ∧ (s.memberTests).tb = s.tb ∧ (s.memberTests).rt = s.rt ∧ (s.memberTests).pu = s.pu
      ∧ (s.memberTests).os = s.os ∧ (s.memberTests).sp = s.sp ∧ (s.memberTests).freeCount = s.freeCount
      ∧ (s.memberTests).cq.entries = s.cq.entries ∧ (s.memberTests).cq.duty = s.cq.duty
      ∧ (s.memberTests).cq.pendingObjections = s.cq.pendingObjections ∧ (s.memberTests).cq.frozenRef = s.cq.frozenRef
      ∧ (s.memberTests).bi.line = s.bi.line ∧ (s.memberTests).bi.rx = s.bi.rx
      ∧ (s.memberTests).bi.attempt = s.bi.attempt ∧ (s.memberTests).bi.tripSlot = s.bi.tripSlot
      ∧ (s.memberTests).bi.abandonCount = s.bi.abandonCount ∧ (s.memberTests).bi.rejectCount = s.bi.rejectCount
      ∧ (s.memberTests).fu.flt0 = s.fu.flt0 ∧ (s.memberTests).fu.flt1 = s.fu.flt1
      ∧ (s.memberTests).fu.flt2 = s.fu.flt2 ∧ (s.memberTests).fu.tripSet = s.fu.tripSet
      ∧ (s.memberTests).fu.lastTrip = s.fu.lastTrip := by
  simp [memberTests]

@[simp] theorem modInput_kept (i : InputNo) (f : InputRecord → InputRecord) (s : State) :
    (s.modInput i f).sc = s.sc ∧ (s.modInput i f).tb = s.tb ∧ (s.modInput i f).bi = s.bi ∧ (s.modInput i f).rt = s.rt
      ∧ (s.modInput i f).cq = s.cq ∧ (s.modInput i f).pu = s.pu ∧ (s.modInput i f).os = s.os
      ∧ (s.modInput i f).sp = s.sp ∧ (s.modInput i f).freeCount = s.freeCount
      ∧ (s.modInput i f).fu.tripSet = s.fu.tripSet ∧ (s.modInput i f).fu.lastTrip = s.fu.lastTrip
      ∧ (s.modInput i f).fu.shedFrame = s.fu.shedFrame ∧ (s.modInput i f).fu.readmitFrame = s.fu.readmitFrame := by
  obtain ⟨r0, r1, r2, h⟩ := modInput_frame i f s
  simp [h]

/-! ### The Time Base -/

@[simp] theorem stopDrive_kept (s : State) :
    (s.stopDrive).sc = s.sc ∧ (s.stopDrive).bi = s.bi ∧ (s.stopDrive).rt = s.rt ∧ (s.stopDrive).cq = s.cq
      ∧ (s.stopDrive).pu = s.pu ∧ (s.stopDrive).os = s.os ∧ (s.stopDrive).fu = s.fu ∧ (s.stopDrive).sp = s.sp
      ∧ (s.stopDrive).freeCount = s.freeCount
      ∧ (s.stopDrive).tb = { s.tb with driveLeft := 0, driveReadLow := false } := by
  simp [stopDrive]

@[simp] theorem enterLocked_kept (s : State) :
    (s.enterLocked).bi = s.bi ∧ (s.enterLocked).rt = s.rt ∧ (s.enterLocked).cq = s.cq ∧ (s.enterLocked).pu = s.pu
      ∧ (s.enterLocked).os = s.os ∧ (s.enterLocked).fu = s.fu ∧ (s.enterLocked).sp.record = s.sp.record
      ∧ (s.enterLocked).sp.locked = s.sp.locked ∧ (s.enterLocked).sp.fingerprint = s.sp.fingerprint
      ∧ (s.enterLocked).sp.tickets = s.sp.tickets ∧ (s.enterLocked).sp.response = s.sp.response
      ∧ (s.enterLocked).freeCount = s.freeCount ∧ (s.enterLocked).sc = { s.sc with unlocked := 0 }
      ∧ (s.enterLocked).tb = { s.tb with state := .locked, inWindow := 3 } := by
  simp [enterLocked]

@[simp] theorem enterHoldover_kept (s : State) :
    (s.enterHoldover).sc = s.sc ∧ (s.enterHoldover).rt = s.rt ∧ (s.enterHoldover).cq = s.cq
      ∧ (s.enterHoldover).pu = s.pu ∧ (s.enterHoldover).os = s.os ∧ (s.enterHoldover).sp.record = s.sp.record
      ∧ (s.enterHoldover).sp.locked = s.sp.locked ∧ (s.enterHoldover).sp.fingerprint = s.sp.fingerprint
      ∧ (s.enterHoldover).sp.tickets = s.sp.tickets ∧ (s.enterHoldover).sp.response = s.sp.response
      ∧ (s.enterHoldover).freeCount = s.freeCount ∧ (s.enterHoldover).tb.b = s.tb.b ∧ (s.enterHoldover).tb.k = s.tb.k
      ∧ (s.enterHoldover).tb.en = s.tb.en ∧ (s.enterHoldover).tb.lastLead = s.tb.lastLead
      ∧ (s.enterHoldover).tb.levelLow = s.tb.levelLow ∧ (s.enterHoldover).tb.lowRun = s.tb.lowRun
      ∧ (s.enterHoldover).tb.filterRun = s.tb.filterRun ∧ (s.enterHoldover).tb.markSeen = s.tb.markSeen
      ∧ (s.enterHoldover).tb.enAdopted = s.tb.enAdopted ∧ (s.enterHoldover).fu.flt0 = s.fu.flt0
      ∧ (s.enterHoldover).fu.flt1 = s.fu.flt1 ∧ (s.enterHoldover).fu.flt2 = s.fu.flt2
      ∧ (s.enterHoldover).fu.tripSet = s.fu.tripSet ∧ (s.enterHoldover).fu.lastTrip = s.fu.lastTrip
      ∧ (s.enterHoldover).bi.line = s.bi.line ∧ (s.enterHoldover).bi.tripSlot = s.bi.tripSlot
      ∧ (s.enterHoldover).bi.abandonCount = s.bi.abandonCount ∧ (s.enterHoldover).bi.rejectCount = s.bi.rejectCount
      ∧ (s.enterHoldover).bi.clashWindow = s.bi.clashWindow ∧ (s.enterHoldover).bi.stuckEpochs = s.bi.stuckEpochs
      ∧ (s.enterHoldover).bi.errorFlagLeft = s.bi.errorFlagLeft ∧ (s.enterHoldover).tb.state = .holdover := by
  unfold enterHoldover
  split <;> simp [*]

@[simp] theorem leaveHoldover_kept (s : State) :
    (s.leaveHoldover).bi = s.bi ∧ (s.leaveHoldover).rt = s.rt ∧ (s.leaveHoldover).cq = s.cq
      ∧ (s.leaveHoldover).pu = s.pu ∧ (s.leaveHoldover).os = s.os ∧ (s.leaveHoldover).fu = s.fu
      ∧ (s.leaveHoldover).sp.record = s.sp.record ∧ (s.leaveHoldover).sp.locked = s.sp.locked
      ∧ (s.leaveHoldover).sp.fingerprint = s.sp.fingerprint ∧ (s.leaveHoldover).sp.tickets = s.sp.tickets
      ∧ (s.leaveHoldover).sp.response = s.sp.response ∧ (s.leaveHoldover).freeCount = s.freeCount
      ∧ (s.leaveHoldover).tb.b = s.tb.b ∧ (s.leaveHoldover).tb.k = s.tb.k ∧ (s.leaveHoldover).tb.en = s.tb.en
      ∧ (s.leaveHoldover).tb.lastLead = s.tb.lastLead ∧ (s.leaveHoldover).tb.levelLow = s.tb.levelLow
      ∧ (s.leaveHoldover).tb.lowRun = s.tb.lowRun ∧ (s.leaveHoldover).tb.filterRun = s.tb.filterRun
      ∧ (s.leaveHoldover).tb.markSeen = s.tb.markSeen ∧ (s.leaveHoldover).tb.enAdopted = s.tb.enAdopted
      ∧ (s.leaveHoldover).sc.station = s.sc.station ∧ (s.leaveHoldover).sc.standing = s.sc.standing
      ∧ (s.leaveHoldover).sc.tracked = s.sc.tracked ∧ (s.leaveHoldover).sc.leavePending = s.sc.leavePending
      ∧ (s.leaveHoldover).tb.driveLeft = s.tb.driveLeft := by
  simp only [leaveHoldover]
  split <;> simp

@[simp] theorem freeTimeBase_kept (s : State) :
    (s.freeTimeBase).sc = s.sc ∧ (s.freeTimeBase).rt = s.rt ∧ (s.freeTimeBase).cq = s.cq ∧ (s.freeTimeBase).pu = s.pu
      ∧ (s.freeTimeBase).os = s.os ∧ (s.freeTimeBase).sp.record = s.sp.record
      ∧ (s.freeTimeBase).sp.locked = s.sp.locked ∧ (s.freeTimeBase).sp.fingerprint = s.sp.fingerprint
      ∧ (s.freeTimeBase).sp.tickets = s.sp.tickets ∧ (s.freeTimeBase).sp.response = s.sp.response
      ∧ (s.freeTimeBase).freeCount = s.freeCount ∧ (s.freeTimeBase).tb.b = s.tb.b ∧ (s.freeTimeBase).tb.k = s.tb.k
      ∧ (s.freeTimeBase).tb.en = s.tb.en ∧ (s.freeTimeBase).tb.lastLead = s.tb.lastLead
      ∧ (s.freeTimeBase).tb.levelLow = s.tb.levelLow ∧ (s.freeTimeBase).tb.lowRun = s.tb.lowRun
      ∧ (s.freeTimeBase).tb.enAdopted = s.tb.enAdopted ∧ (s.freeTimeBase).fu.flt0 = s.fu.flt0
      ∧ (s.freeTimeBase).fu.flt1 = s.fu.flt1 ∧ (s.freeTimeBase).fu.flt2 = s.fu.flt2
      ∧ (s.freeTimeBase).fu.tripSet = s.fu.tripSet ∧ (s.freeTimeBase).fu.lastTrip = s.fu.lastTrip
      ∧ (s.freeTimeBase).bi.line = s.bi.line ∧ (s.freeTimeBase).bi.tripSlot = s.bi.tripSlot
      ∧ (s.freeTimeBase).bi.abandonCount = s.bi.abandonCount ∧ (s.freeTimeBase).bi.rejectCount = s.bi.rejectCount
      ∧ (s.freeTimeBase).bi.clashWindow = s.bi.clashWindow ∧ (s.freeTimeBase).bi.stuckEpochs = s.bi.stuckEpochs
      ∧ (s.freeTimeBase).bi.errorFlagLeft = s.bi.errorFlagLeft := by
  simp only [freeTimeBase]
  split <;> simp

/-! ### The change of station state -/

@[simp] theorem dropMemberWork_kept (s : State) :
    (s.dropMemberWork).sc = s.sc ∧ (s.dropMemberWork).tb = s.tb ∧ (s.dropMemberWork).pu = s.pu
      ∧ (s.dropMemberWork).os = s.os ∧ (s.dropMemberWork).fu = s.fu ∧ (s.dropMemberWork).sp = s.sp
      ∧ (s.dropMemberWork).freeCount = s.freeCount ∧ (s.dropMemberWork).cq.entries = s.cq.entries
      ∧ (s.dropMemberWork).cq.duty = s.cq.duty ∧ (s.dropMemberWork).cq.nextSeq = s.cq.nextSeq
      ∧ (s.dropMemberWork).cq.frozenRef = s.cq.frozenRef ∧ (s.dropMemberWork).rt.entries = s.rt.entries
      ∧ (s.dropMemberWork).rt.copySource = s.rt.copySource ∧ (s.dropMemberWork).rt.epochDigest = s.rt.epochDigest
      ∧ (s.dropMemberWork).rt.armed = s.rt.armed ∧ (s.dropMemberWork).rt.expectedKey = s.rt.expectedKey
      ∧ (s.dropMemberWork).rt.groupFingerprint = s.rt.groupFingerprint
      ∧ (s.dropMemberWork).rt.countdown = s.rt.countdown ∧ (s.dropMemberWork).rt.heardGroup = s.rt.heardGroup
      ∧ (s.dropMemberWork).bi.line = s.bi.line ∧ (s.dropMemberWork).bi.queue = s.bi.queue
      ∧ (s.dropMemberWork).bi.abandonCount = s.bi.abandonCount ∧ (s.dropMemberWork).bi.clashWindow = s.bi.clashWindow
      ∧ (s.dropMemberWork).bi.stuckEpochs = s.bi.stuckEpochs := by
  simp [dropMemberWork]

@[simp] theorem moveTo_kept (new : StationState) (s : State) :
    (s.moveTo new).pu = s.pu ∧ (s.moveTo new).os = s.os ∧ (s.moveTo new).sp.record = s.sp.record
      ∧ (s.moveTo new).sp.locked = s.sp.locked ∧ (s.moveTo new).sp.fingerprint = s.sp.fingerprint
      ∧ (s.moveTo new).sp.response = s.sp.response ∧ (s.moveTo new).freeCount = s.freeCount
      ∧ (s.moveTo new).cq.entries = s.cq.entries ∧ (s.moveTo new).cq.duty = s.cq.duty
      ∧ (s.moveTo new).cq.nextSeq = s.cq.nextSeq ∧ (s.moveTo new).cq.frozenRef = s.cq.frozenRef
      ∧ (s.moveTo new).rt.entries = s.rt.entries ∧ (s.moveTo new).rt.copySource = s.rt.copySource
      ∧ (s.moveTo new).rt.epochDigest = s.rt.epochDigest ∧ (s.moveTo new).rt.armed = s.rt.armed
      ∧ (s.moveTo new).rt.groupFingerprint = s.rt.groupFingerprint ∧ (s.moveTo new).rt.countdown = s.rt.countdown
      ∧ (s.moveTo new).tb.b = s.tb.b ∧ (s.moveTo new).tb.k = s.tb.k ∧ (s.moveTo new).tb.en = s.tb.en
      ∧ (s.moveTo new).tb.lastLead = s.tb.lastLead ∧ (s.moveTo new).tb.levelLow = s.tb.levelLow
      ∧ (s.moveTo new).tb.lowRun = s.tb.lowRun ∧ (s.moveTo new).tb.filterRun = s.tb.filterRun
      ∧ (s.moveTo new).tb.markSeen = s.tb.markSeen ∧ (s.moveTo new).tb.enAdopted = s.tb.enAdopted
      ∧ (s.moveTo new).tb.state = s.tb.state ∧ (s.moveTo new).tb.inWindow = s.tb.inWindow
      ∧ (s.moveTo new).tb.resume = s.tb.resume ∧ (s.moveTo new).tb.holdoverEpochs = s.tb.holdoverEpochs
      ∧ (s.moveTo new).fu.flt0 = s.fu.flt0 ∧ (s.moveTo new).fu.flt1 = s.fu.flt1 ∧ (s.moveTo new).fu.flt2 = s.fu.flt2
      ∧ (s.moveTo new).fu.tripSet = s.fu.tripSet ∧ (s.moveTo new).fu.lastTrip = s.fu.lastTrip
      ∧ (s.moveTo new).bi.line = s.bi.line ∧ (s.moveTo new).bi.abandonCount = s.bi.abandonCount
      ∧ (s.moveTo new).bi.clashWindow = s.bi.clashWindow ∧ (s.moveTo new).bi.stuckEpochs = s.bi.stuckEpochs
      ∧ (s.moveTo new).sc = { s.sc with station := new, withdrawOwed := false } ∧ (s.moveTo new).rt.heardGroup = none := by
  simp [moveTo]

/-- The tickets of dropped frames change, and with them the event set at most (R65). -/
theorem abandonTicketsOf_frame (test : QueuedFrame → Bool) (s : State) : ∃ tickets ev,
    s.abandonTicketsOf test = { s with sp := { s.sp with tickets := tickets, events := ev } } := by
  unfold abandonTicketsOf
  generalize s.bi.queue.filter test = l
  induction l generalizing s with
  | nil => exact ⟨s.sp.tickets, s.sp.events, rfl⟩
  | cons x xs ih =>
    rw [List.foldl_cons]
    split
    next seq content hbody =>
      obtain ⟨tickets, ev, h⟩ := reportTicket_frame seq content (Ticket.finish .abandoned) s
      obtain ⟨tickets', ev', h'⟩ := ih (s.reportTicket seq content (Ticket.finish .abandoned))
      exact ⟨tickets', ev', by rw [h', h]⟩
    next => exact ih s

@[simp] theorem abandonTicketsOf_kept (test : QueuedFrame → Bool) (s : State) :
    (s.abandonTicketsOf test).sc = s.sc ∧ (s.abandonTicketsOf test).tb = s.tb ∧ (s.abandonTicketsOf test).bi = s.bi
      ∧ (s.abandonTicketsOf test).rt = s.rt ∧ (s.abandonTicketsOf test).cq = s.cq
      ∧ (s.abandonTicketsOf test).pu = s.pu ∧ (s.abandonTicketsOf test).os = s.os
      ∧ (s.abandonTicketsOf test).fu = s.fu ∧ (s.abandonTicketsOf test).sp.record = s.sp.record
      ∧ (s.abandonTicketsOf test).sp.locked = s.sp.locked
      ∧ (s.abandonTicketsOf test).sp.fingerprint = s.sp.fingerprint
      ∧ (s.abandonTicketsOf test).sp.response = s.sp.response ∧ (s.abandonTicketsOf test).freeCount = s.freeCount := by
  obtain ⟨tickets, ev, h⟩ := abandonTicketsOf_frame test s
  simp [h]

@[simp] theorem dropGroupFrames_kept (kept : QueuedBody → Bool) (s : State) :
    (s.dropGroupFrames kept).sc = s.sc ∧ (s.dropGroupFrames kept).tb = s.tb ∧ (s.dropGroupFrames kept).rt = s.rt
      ∧ (s.dropGroupFrames kept).cq = s.cq ∧ (s.dropGroupFrames kept).pu = s.pu ∧ (s.dropGroupFrames kept).os = s.os
      ∧ (s.dropGroupFrames kept).sp.record = s.sp.record ∧ (s.dropGroupFrames kept).sp.locked = s.sp.locked
      ∧ (s.dropGroupFrames kept).sp.fingerprint = s.sp.fingerprint
      ∧ (s.dropGroupFrames kept).sp.response = s.sp.response ∧ (s.dropGroupFrames kept).freeCount = s.freeCount
      ∧ (s.dropGroupFrames kept).fu.flt0 = s.fu.flt0 ∧ (s.dropGroupFrames kept).fu.flt1 = s.fu.flt1
      ∧ (s.dropGroupFrames kept).fu.flt2 = s.fu.flt2 ∧ (s.dropGroupFrames kept).fu.tripSet = s.fu.tripSet
      ∧ (s.dropGroupFrames kept).fu.lastTrip = s.fu.lastTrip ∧ (s.dropGroupFrames kept).bi.line = s.bi.line
      ∧ (s.dropGroupFrames kept).bi.tripSlot = s.bi.tripSlot
      ∧ (s.dropGroupFrames kept).bi.abandonCount = s.bi.abandonCount
      ∧ (s.dropGroupFrames kept).bi.rejectCount = s.bi.rejectCount
      ∧ (s.dropGroupFrames kept).bi.clashWindow = s.bi.clashWindow
      ∧ (s.dropGroupFrames kept).bi.stuckEpochs = s.bi.stuckEpochs
      ∧ (s.dropGroupFrames kept).bi.errorFlagLeft = s.bi.errorFlagLeft
      ∧ (s.dropGroupFrames kept).bi.queue = s.bi.queue.filter fun x => x.body.isQuery || kept x.body := by
  simp [dropGroupFrames]

@[simp] theorem clearBus_kept (s : State) :
    (s.clearBus).sc = s.sc ∧ (s.clearBus).tb = s.tb ∧ (s.clearBus).rt = s.rt ∧ (s.clearBus).cq = s.cq
      ∧ (s.clearBus).pu = s.pu ∧ (s.clearBus).os = s.os ∧ (s.clearBus).sp = s.sp
      ∧ (s.clearBus).freeCount = s.freeCount ∧ (s.clearBus).fu.flt0 = s.fu.flt0 ∧ (s.clearBus).fu.flt1 = s.fu.flt1
      ∧ (s.clearBus).fu.flt2 = s.fu.flt2 ∧ (s.clearBus).fu.tripSet = s.fu.tripSet
      ∧ (s.clearBus).fu.lastTrip = s.fu.lastTrip
      ∧ (s.clearBus).bi = { s.bi with
          queue := [], rx := none, attempt := none, tripSlot := none, abandonCount := 0, rejectCount := 0
          clashWindow := none, stuckEpochs := 0 } := by
  simp [clearBus]

@[simp] theorem clearBlanking_kept (s : State) :
    (s.clearBlanking).sc = s.sc ∧ (s.clearBlanking).tb = s.tb ∧ (s.clearBlanking).bi = s.bi
      ∧ (s.clearBlanking).rt = s.rt ∧ (s.clearBlanking).cq = s.cq ∧ (s.clearBlanking).pu = s.pu
      ∧ (s.clearBlanking).fu = s.fu ∧ (s.clearBlanking).sp = s.sp ∧ (s.clearBlanking).freeCount = s.freeCount
      ∧ (s.clearBlanking).os = { s.os with blanking := false } := by
  simp [clearBlanking]

@[simp] theorem clearFaults_kept (s : State) :
    (s.clearFaults).sc = s.sc ∧ (s.clearFaults).tb = s.tb ∧ (s.clearFaults).bi = s.bi ∧ (s.clearFaults).rt = s.rt
      ∧ (s.clearFaults).cq = s.cq ∧ (s.clearFaults).pu = s.pu ∧ (s.clearFaults).os = s.os
      ∧ (s.clearFaults).sp.record = s.sp.record ∧ (s.clearFaults).sp.locked = s.sp.locked
      ∧ (s.clearFaults).sp.fingerprint = s.sp.fingerprint ∧ (s.clearFaults).sp.tickets = s.sp.tickets
      ∧ (s.clearFaults).sp.response = s.sp.response ∧ (s.clearFaults).freeCount = s.freeCount
      ∧ (s.clearFaults).fu = FaultUnit.reset := by
  simp [clearFaults]

@[simp] theorem forgetRoster_kept (s : State) :
    (s.forgetRoster).sc = s.sc ∧ (s.forgetRoster).tb = s.tb ∧ (s.forgetRoster).bi = s.bi ∧ (s.forgetRoster).cq = s.cq
      ∧ (s.forgetRoster).pu = s.pu ∧ (s.forgetRoster).os = s.os ∧ (s.forgetRoster).fu = s.fu
      ∧ (s.forgetRoster).sp.record = s.sp.record ∧ (s.forgetRoster).sp.locked = s.sp.locked
      ∧ (s.forgetRoster).sp.fingerprint = s.sp.fingerprint ∧ (s.forgetRoster).sp.tickets = s.sp.tickets
      ∧ (s.forgetRoster).sp.response = s.sp.response ∧ (s.forgetRoster).freeCount = s.freeCount
      ∧ (s.forgetRoster).rt = RosterTable.reset := by
  simp [forgetRoster, RosterTable.reset]

@[simp] theorem forgetQueue_kept (s : State) :
    (s.forgetQueue).sc = s.sc ∧ (s.forgetQueue).tb = s.tb ∧ (s.forgetQueue).bi = s.bi ∧ (s.forgetQueue).rt = s.rt
      ∧ (s.forgetQueue).pu = s.pu ∧ (s.forgetQueue).os = s.os ∧ (s.forgetQueue).fu = s.fu ∧ (s.forgetQueue).sp = s.sp
      ∧ (s.forgetQueue).freeCount = s.freeCount
      ∧ (s.forgetQueue).cq = { s.cq with entries := [], duty := 0, pendingObjections := [], frozenRef := none } := by
  simp [forgetQueue]

@[simp] theorem enterListen_kept (standing : FollowStanding) (holdoff : Nat) (s : State) :
    (s.enterListen standing holdoff).pu = s.pu ∧ (s.enterListen standing holdoff).os = s.os
      ∧ (s.enterListen standing holdoff).sp.record = s.sp.record
      ∧ (s.enterListen standing holdoff).sp.locked = s.sp.locked
      ∧ (s.enterListen standing holdoff).sp.fingerprint = s.sp.fingerprint
      ∧ (s.enterListen standing holdoff).sp.response = s.sp.response
      ∧ (s.enterListen standing holdoff).freeCount = s.freeCount
      ∧ (s.enterListen standing holdoff).cq.entries = s.cq.entries
      ∧ (s.enterListen standing holdoff).cq.duty = s.cq.duty
      ∧ (s.enterListen standing holdoff).cq.nextSeq = s.cq.nextSeq
      ∧ (s.enterListen standing holdoff).cq.frozenRef = s.cq.frozenRef
      ∧ (s.enterListen standing holdoff).rt.entries = s.rt.entries
      ∧ (s.enterListen standing holdoff).rt.copySource = s.rt.copySource
      ∧ (s.enterListen standing holdoff).rt.epochDigest = s.rt.epochDigest
      ∧ (s.enterListen standing holdoff).rt.armed = s.rt.armed
      ∧ (s.enterListen standing holdoff).rt.groupFingerprint = s.rt.groupFingerprint
      ∧ (s.enterListen standing holdoff).rt.countdown = s.rt.countdown
      ∧ (s.enterListen standing holdoff).tb.b = s.tb.b ∧ (s.enterListen standing holdoff).tb.k = s.tb.k
      ∧ (s.enterListen standing holdoff).tb.en = s.tb.en
      ∧ (s.enterListen standing holdoff).tb.lastLead = s.tb.lastLead
      ∧ (s.enterListen standing holdoff).tb.levelLow = s.tb.levelLow
      ∧ (s.enterListen standing holdoff).tb.lowRun = s.tb.lowRun
      ∧ (s.enterListen standing holdoff).tb.filterRun = s.tb.filterRun
      ∧ (s.enterListen standing holdoff).tb.markSeen = s.tb.markSeen
      ∧ (s.enterListen standing holdoff).tb.state = s.tb.state
      ∧ (s.enterListen standing holdoff).tb.inWindow = s.tb.inWindow
      ∧ (s.enterListen standing holdoff).tb.resume = s.tb.resume
      ∧ (s.enterListen standing holdoff).tb.holdoverEpochs = s.tb.holdoverEpochs
      ∧ (s.enterListen standing holdoff).fu.flt0 = s.fu.flt0 ∧ (s.enterListen standing holdoff).fu.flt1 = s.fu.flt1
      ∧ (s.enterListen standing holdoff).fu.flt2 = s.fu.flt2
      ∧ (s.enterListen standing holdoff).fu.tripSet = s.fu.tripSet
      ∧ (s.enterListen standing holdoff).fu.lastTrip = s.fu.lastTrip
      ∧ (s.enterListen standing holdoff).bi.line = s.bi.line
      ∧ (s.enterListen standing holdoff).bi.abandonCount = s.bi.abandonCount
      ∧ (s.enterListen standing holdoff).bi.clashWindow = s.bi.clashWindow
      ∧ (s.enterListen standing holdoff).bi.stuckEpochs = s.bi.stuckEpochs
      ∧ (s.enterListen standing holdoff).sc = ⟨.listen, .none, 0, 0, holdoff, standing, false, none, false, false⟩
      ∧ (s.enterListen standing holdoff).rt.heardGroup = none ∧ (s.enterListen standing holdoff).tb.enAdopted = false := by
  simp [enterListen]

@[simp] theorem discardCopy_kept (s : State) :
    (s.discardCopy).tb = s.tb ∧ (s.discardCopy).bi = s.bi ∧ (s.discardCopy).sp.record = s.sp.record
      ∧ (s.discardCopy).sp.locked = s.sp.locked ∧ (s.discardCopy).sp.fingerprint = s.sp.fingerprint
      ∧ (s.discardCopy).sp.response = s.sp.response ∧ (s.discardCopy).freeCount = s.freeCount
      ∧ (s.discardCopy).cq.nextSeq = s.cq.nextSeq ∧ (s.discardCopy).cq.frozenRef = s.cq.frozenRef
      ∧ (s.discardCopy).rt.epochDigest = s.rt.epochDigest ∧ (s.discardCopy).rt.expectedKey = s.rt.expectedKey
      ∧ (s.discardCopy).rt.groupFingerprint = s.rt.groupFingerprint ∧ (s.discardCopy).rt.countdown = s.rt.countdown
      ∧ (s.discardCopy).rt.pendingReplies = s.rt.pendingReplies ∧ (s.discardCopy).rt.heardGroup = s.rt.heardGroup
      ∧ (s.discardCopy).fu.flt0 = s.fu.flt0 ∧ (s.discardCopy).fu.flt1 = s.fu.flt1
      ∧ (s.discardCopy).fu.flt2 = s.fu.flt2 ∧ (s.discardCopy).fu.lastTrip = s.fu.lastTrip
      ∧ (s.discardCopy).fu.shedFrame = s.fu.shedFrame ∧ (s.discardCopy).fu.readmitFrame = s.fu.readmitFrame
      ∧ (s.discardCopy).sc = { s.sc with standing := .none }
      ∧ (s.discardCopy).rt.entries = List.replicate 16 .absentEntry ∧ (s.discardCopy).rt.copySource = .none
      ∧ (s.discardCopy).rt.armed = false ∧ (s.discardCopy).cq.entries = [] ∧ (s.discardCopy).cq.duty = 0
      ∧ (s.discardCopy).fu.tripSet = 0 := by
  simp [discardCopy]

end State
end Sys2Proof.Machine
end

section
/-! The pieces the commands of the Setup Port are made of: a frame offered, a ticket issued, a change of station state, an
entry to DORMANT, and what OutputsOff takes. -/

namespace Sys2Proof.Machine

variable {s t : State}

/-! ### The transmit queue (R56, R57) -/

theorem insertFrame_eq_append (x : QueuedFrame) (q : List QueuedFrame) : ∃ before after, q = before ++ after
    ∧ insertFrame x q = before ++ x :: after ∧ (∀ y ∈ before, y.body.cls ≤ x.body.cls)
    ∧ ∀ y, after.head? = some y → x.body.cls < y.body.cls := by
  refine ⟨_, _, (List.takeWhile_append_dropWhile (p := fun y => decide (y.body.cls ≤ x.body.cls))).symm, rfl,
    fun y hy => ?_, fun y hy => ?_⟩
  · simpa using List.mem_takeWhile_imp hy
  · simpa [hy] using List.head?_dropWhile_not (fun y => decide (y.body.cls ≤ x.body.cls)) q

@[simp] theorem mem_insertFrame {x y : QueuedFrame} {q : List QueuedFrame} :
    y ∈ insertFrame x q ↔ y = x ∨ y ∈ q := by
  obtain ⟨before, after, rfl, h, -, -⟩ := insertFrame_eq_append x q
  rw [h]
  simp only [List.mem_append, List.mem_cons]
  tauto

/-- A new ticket is in the table it is issued into (R180). -/
@[simp] theorem mem_issueInto_self (x : Ticket) (table : List Ticket) : x ∈ issueInto x table := by
  simp [issueInto]

namespace State

/-- The state in which an offered frame has been taken (R57). -/
def offered (body : QueuedBody) (s : State) : State := s.setQueue (insertFrame ⟨body, 0, false⟩ s.bi.queue)

/-- The state in which an offered PROPOSE has been taken and has used the next sequence number (R92, R95). -/
def proposed (content : ProposalContent) (s : State) : State :=
  (s.offered (.propose s.cq.nextSeq content)).modCq fun cq => { cq with nextSeq := cq.nextSeq + 1 }

@[simp] theorem offered_kept (body : QueuedBody) (s : State) :
    (s.offered body).sc = s.sc ∧ (s.offered body).tb = s.tb ∧ (s.offered body).rt = s.rt ∧ (s.offered body).cq = s.cq
      ∧ (s.offered body).pu = s.pu ∧ (s.offered body).os = s.os ∧ (s.offered body).sp = s.sp
      ∧ (s.offered body).bi = { s.bi with queue := insertFrame ⟨body, 0, false⟩ s.bi.queue }
      ∧ (s.offered body).fu.tripSet = s.fu.tripSet ∧ (s.offered body).fu.lastTrip = s.fu.lastTrip
      ∧ (s.offered body).fu.flt0 = s.fu.flt0 ∧ (s.offered body).fu.flt1 = s.fu.flt1
      ∧ (s.offered body).fu.flt2 = s.fu.flt2 := by
  simp [offered]

@[simp] theorem proposed_kept (content : ProposalContent) (s : State) :
    (s.proposed content).sc = s.sc ∧ (s.proposed content).tb = s.tb ∧ (s.proposed content).rt = s.rt
      ∧ (s.proposed content).cq = { s.cq with nextSeq := s.cq.nextSeq + 1 }
      ∧ (s.proposed content).pu = s.pu ∧ (s.proposed content).os = s.os ∧ (s.proposed content).sp = s.sp
      ∧ (s.proposed content).bi
          = { s.bi with queue := insertFrame ⟨.propose s.cq.nextSeq content, 0, false⟩ s.bi.queue }
      ∧ (s.proposed content).fu.tripSet = s.fu.tripSet ∧ (s.proposed content).fu.lastTrip = s.fu.lastTrip
      ∧ (s.proposed content).fu.flt0 = s.fu.flt0 ∧ (s.proposed content).fu.flt1 = s.fu.flt1
      ∧ (s.proposed content).fu.flt2 = s.fu.flt2 := by
  simp [proposed]

theorem offer_of_room (body : QueuedBody) (h : s.bi.queue.length < 6) : s.offer body = some (s.offered body) := by
  simp [offer, hasRoom, h, offered]

theorem offer_of_full (body : QueuedBody) (h : 6 ≤ s.bi.queue.length) : s.offer body = none := by
  simp [offer, hasRoom, Nat.not_lt.mpr h]

theorem offerPropose_of_room (content : ProposalContent) (h : s.bi.queue.length < 6) :
    s.offerPropose content = some (s.proposed content) := by
  simp [offerPropose, offer_of_room _ h, proposed]

theorem offerPropose_of_full (content : ProposalContent) (h : 6 ≤ s.bi.queue.length) :
    s.offerPropose content = none := by
  simp [offerPropose, offer_of_full _ h]

/-! ### Outputs OFF (R136, R137) -/

theorem chosenMode_of_not_member (hm : s.isMember = false) : s.chosenMode = .off := by
  simp [chosenMode, hm]

/-- A settled station outside the group has its outputs OFF. -/
theorem outputsOff_of_settled (hs : s.Settled) (hm : s.isMember = false) (hg : s.os.GatesOk) : s.OutputsOff := by
  have hchosen := chosenMode_of_not_member hm
  have hmode : s.os.mode = .off := (hs.1 (by simp [hchosen])).trans hchosen
  obtain ⟨hgh, hgl⟩ := hg.2 hmode
  exact ⟨hmode, hgh, hgl, by simp [genAsserted, hmode]⟩

theorem OutputsOff.respond {st : Status} {data : List Byte} (h : s.OutputsOff) : (s.respond st data).OutputsOff :=
  ⟨h.mode, h.gh, h.gl, h.gen⟩

/-! ### Voided tickets -/

/-- Voiding leaves no ticket unfinished. -/
theorem unfinished_of_mem_ticketsVoided {r : VoidReason} {x : Ticket} (h : x ∈ s.ticketsVoided r) :
    x.unfinished = false := by
  obtain ⟨y, -, rfl⟩ := List.mem_map.mp h
  split
  · rfl
  · simp_all

/-- Where no ticket is unfinished none is changed. -/
theorem updateTickets_of_finished {hit : Ticket → Bool} {f : Ticket → Ticket}
    (h : ∀ x ∈ s.sp.tickets, x.unfinished = false) : (s.updateTickets hit f).sp.tickets = s.sp.tickets := by
  simp only [updateTickets_kept]
  exact (List.map_congr_left fun x hx => by simp [h x hx]).trans (List.map_id _)

/-- Event TICKET where a ticket that `hit` picks is finished by the change (R182). -/
theorem hasEvent_updateTickets {hit : Ticket → Bool} {f : Ticket → Ticket}
    (h : ∃ x ∈ s.sp.tickets, x.unfinished = true ∧ hit x = true ∧ (f x).unfinished = false) :
    (s.updateTickets hit f).hasEvent .ticket = true := by
  obtain ⟨x, hx, hu, hh, hf⟩ := h
  have hany : (s.sp.tickets.any fun t => (t.unfinished && hit t) && !(f t).unfinished) = true :=
    List.any_eq_true.mpr ⟨x, hx, by simp [hu, hh, hf]⟩
  simp only [updateTickets, hany, doIf_true]
  exact hasEvent_raise_same ..

theorem hasEvent_voidTickets {r : VoidReason} (h : ∃ x ∈ s.sp.tickets, x.unfinished = true) :
    (s.voidTickets r).hasEvent .ticket = true := by
  obtain ⟨x, hx, hu⟩ := h
  exact hasEvent_updateTickets ⟨x, hx, hu, rfl, rfl⟩

/-! ### A change of station state -/

/-- The mark drive ends where the new state drives no mark (R2, R24, R25). -/
theorem moveTo_tb (new : StationState) (s : State) : (s.moveTo new).tb =
    if new = .member ∨ new = .leaving ∨ new = .resync then s.tb
    else { s.tb with driveLeft := 0, driveReadLow := false, failedDrives := 0 } := by
  cases new <;> simp [moveTo, drivesMarks, isMember]

/-- A queued ROSTER_QUERY stays in LISTEN and RESYNC alone (R65). -/
theorem moveTo_queue (new : StationState) (s : State) : (s.moveTo new).bi.queue =
    if new = .listen ∨ new = .resync then s.bi.queue else s.bi.queue.filter fun x => !x.body.isQuery := by
  cases new <;> simp [moveTo]

/-- A reserved ticket is ABANDONED on the entry to LISTEN, DORMANT and HALTED (R181). -/
theorem moveTo_tickets (new : StationState) (s : State) : (s.moveTo new).sp.tickets =
    if new = .listen ∨ new = .dormant ∨ new = .halted then s.abandonReserved.sp.tickets else s.sp.tickets := by
  cases new <;> simp [moveTo, abandonReserved]

theorem moveTo_tickets_of_finished (new : StationState) (h : ∀ x ∈ s.sp.tickets, x.unfinished = false) :
    (s.moveTo new).sp.tickets = s.sp.tickets := by
  rw [moveTo_tickets]
  split
  · exact updateTickets_of_finished h
  · rfl

theorem hasEvent_moveTo (new : StationState) (s : State) : (s.moveTo new).hasEvent .state = true := by
  simp only [moveTo]
  generalize hu : modRt _ (raise .state _) = u
  have hraised : u.hasEvent .state = true := by
    rw [← hu]
    exact hasEvent_raise_same ..
  have hsame : Steady true u u := .rfl'
  have hmember := steady_doIf (c := s.isMember && !u.isMember) hsame (steady_dropMemberWork hsame)
  have hreserved := steady_doIf (c := new = .listen || new = .dormant || new = .halted) hmember
    (steady_abandonReserved hmember)
  have hquery := steady_doIf (c := new ≠ .listen && new ≠ .resync) hreserved
    (steady_dropBodies (test := (·.isQuery)) hreserved)
  have hdrive := steady_modTb (g := fun tb => { tb with failedDrives := 0 }) (steady_stopDrive hquery)
    fun _ => ⟨rfl, rfl, rfl, rfl⟩
  exact (steady_doIf hquery hdrive).hasEvent hraised

theorem sameCounters_of_tb (hb : t.tb.b = s.tb.b) (hk : t.tb.k = s.tb.k) (hen : t.tb.en = s.tb.en) :
    t.SameCounters s :=
  ⟨hb.symm, hk.symm, hen.symm⟩

/-! ### The entry to DORMANT (R17) -/

/-- DORMANT: the shared state frozen, the Bus Interface empty, the reference epoch fixed. -/
@[simp] theorem enterDormant_kept (s : State) :
    s.enterDormant.sc = { s.sc with
        station := .dormant, withdrawOwed := false, leavePending := false, tracked := none }
      ∧ s.enterDormant.bi.queue = [] ∧ s.enterDormant.bi.tripSlot = none ∧ s.enterDormant.bi.attempt = none
      ∧ s.enterDormant.bi.rx = none
      ∧ s.enterDormant.rt.entries = s.rt.entries ∧ s.enterDormant.cq.entries = s.cq.entries
      ∧ s.enterDormant.cq.duty = s.cq.duty ∧ s.enterDormant.cq.nextSeq = s.cq.nextSeq
      ∧ s.enterDormant.cq.pendingObjections = [] ∧ s.enterDormant.cq.frozenRef = some s.tb.en
      ∧ s.enterDormant.fu.tripSet = s.fu.tripSet ∧ s.enterDormant.fu.flt0 = s.fu.flt0
      ∧ s.enterDormant.fu.flt1 = s.fu.flt1 ∧ s.enterDormant.fu.flt2 = s.fu.flt2
      ∧ s.enterDormant.fu.lastTrip = s.fu.lastTrip ∧ s.enterDormant.tb.b = s.tb.b ∧ s.enterDormant.tb.k = s.tb.k
      ∧ s.enterDormant.tb.en = s.tb.en ∧ s.enterDormant.tb.driveLeft = 0 ∧ s.enterDormant.tb.state = s.tb.state
      ∧ s.enterDormant.sp.record = s.sp.record ∧ s.enterDormant.sp.response = s.sp.response := by
  simp [enterDormant, moveTo_tb]

theorem sameShared_enterDormant (s : State) : s.enterDormant.SameShared s := by
  constructor <;> simp

theorem outputsOff_enterDormant (hg : s.os.GatesOk) : s.enterDormant.OutputsOff :=
  outputsOff_of_settled settled_enterDormant (by simp [isMember])
    ((steady_enterDormant (w := true) .rfl').gates hg)

theorem hasEvent_enterDormant (s : State) : s.enterDormant.hasEvent .state = true := by
  have hsteady : Steady true (s.moveTo .dormant) s.enterDormant :=
    steady_settle (steady_clearBlanking (steady_modSc (steady_modCq (steady_modRt (steady_clearBus .rfl') id) id) id))
  exact hsteady.hasEvent (hasEvent_moveTo _ s)

end State
end Sys2Proof.Machine
end

section
/-! START, STOP and RESTART (R3, R11, R12, R17, R18, R177), by the station state in which each is given. -/

namespace Sys2Proof.Machine

variable {s t : State}

namespace State

/-! ### A response changes nothing but itself -/

@[simp] theorem hasEvent_respond (st : Status) (data : List Byte) (e : Event) (s : State) :
    (s.respond st data).hasEvent e = s.hasEvent e := rfl

@[simp] theorem isMember_respond (st : Status) (data : List Byte) (s : State) :
    (s.respond st data).isMember = s.isMember := rfl

@[simp] theorem inputRecord_respond (st : Status) (data : List Byte) (s : State) (i : InputNo) :
    (s.respond st data).inputRecord i = s.inputRecord i := inputRecord_congr rfl rfl rfl i

/-! ### Entry to LISTEN (R4) -/

theorem enterListen_tickets_of_finished (standing : FollowStanding) (holdoff : Nat)
    (h : ∀ x ∈ s.sp.tickets, x.unfinished = false) : (s.enterListen standing holdoff).sp.tickets = s.sp.tickets := by
  simp [enterListen, moveTo_tickets_of_finished _ h]

theorem isMember_of_listen (h : s.sc.station = .listen) : s.isMember = false := by simp [isMember, h]

/-! ### START in DORMANT (R4, R17) -/

theorem startFromDormant_tickets (s : State) : s.startFromDormant.sp.tickets = s.ticketsVoided .restart := by
  have hfinished : ∀ x ∈ (((s.voidTickets .restart).forgetRoster.forgetQueue).setTripSet 0).sp.tickets,
      x.unfinished = false := by
    intro x hx
    simp only [setTripSet_kept, forgetQueue_kept, forgetRoster_kept, voidTickets_kept] at hx
    exact unfinished_of_mem_ticketsVoided hx
  simp only [startFromDormant, settle_kept, enterListen_tickets_of_finished _ _ hfinished, setTripSet_kept,
    forgetQueue_kept, forgetRoster_kept, voidTickets_kept]

@[simp] theorem startFromDormant_kept (s : State) :
    s.startFromDormant.sc = ⟨.listen, .none, 0, 0, 0, .none, false, none, false, false⟩
      ∧ s.startFromDormant.rt.entries = List.replicate 16 .absentEntry ∧ s.startFromDormant.rt.copySource = .none
      ∧ s.startFromDormant.rt.armed = false ∧ s.startFromDormant.cq.entries = [] ∧ s.startFromDormant.cq.duty = 0
      ∧ s.startFromDormant.fu.tripSet = 0 ∧ s.startFromDormant.fu.flt0 = s.fu.flt0
      ∧ s.startFromDormant.fu.flt1 = s.fu.flt1 ∧ s.startFromDormant.fu.flt2 = s.fu.flt2
      ∧ s.startFromDormant.tb.b = s.tb.b ∧ s.startFromDormant.tb.k = s.tb.k ∧ s.startFromDormant.tb.en = s.tb.en
      ∧ s.startFromDormant.tb.state = s.tb.state ∧ s.startFromDormant.tb.enAdopted = false
      ∧ s.startFromDormant.sp.record = s.sp.record := by
  simp [startFromDormant, RosterTable.reset]

theorem outputsOff_startFromDormant (hg : s.os.GatesOk) : s.startFromDormant.OutputsOff :=
  outputsOff_of_settled (settle_settled _) (isMember_of_listen (by simp))
    ((steady_startFromDormant (w := true) .rfl').gates hg)

theorem hasEvent_ticket_startFromDormant (h : ∃ x ∈ s.sp.tickets, x.unfinished = true) :
    s.startFromDormant.hasEvent .ticket = true := by
  have hsteady : Steady true (s.voidTickets .restart) s.startFromDormant :=
    steady_settle (steady_enterListen (steady_setTripSet (steady_forgetQueue (steady_forgetRoster .rfl'))))
  exact hsteady.hasEvent (hasEvent_voidTickets h)

end State

open State in
/-- Settles O10. -/
theorem startElsewhere : Obligations.StartElsewhere := by
  unfold Obligations.StartElsewhere
  constructor
  · intro s hs
    have hstart : s.startCommand = s.startFromDormant.respond .accepted [] := by simp only [startCommand, hs]
    refine ⟨_, (exec_start s).trans (congrArg _ hstart), ?_⟩
    have hcopy : (s.startFromDormant.respond .accepted []).NoCopy := by constructor <;> simp
    have hcounters : (s.startFromDormant.respond .accepted []).SameCounters s := by constructor <;> simp
    refine ⟨by simp, by simp [Status.code], hcopy, fun hg => (outputsOff_startFromDormant hg).respond, by simp, by simp,
      by simp, hcounters, by simp, by simp, by simp, inputRecord_congr (by simp) (by simp) (by simp),
      by simp [startFromDormant_tickets], fun h => ?_⟩
    rw [hasEvent_respond]
    exact hasEvent_ticket_startFromDormant h
  · intro s hsetup hdormant
    have hstart : s.startCommand = s.respond .refusedState [] := by simp only [startCommand]
    rw [exec_start, hstart]
    rfl

/-! ### START in SETUP (R3) -/

namespace State

/-- Outside the group a move to LISTEN leaves the Bus Interface as it is. -/
theorem moveTo_listen_bi (hm : s.isMember = false) : (s.moveTo .listen).bi = s.bi := by simp [moveTo, hm]

theorem moveTo_listen_fu (s : State) : (s.moveTo .listen).fu = s.fu := by simp [moveTo]

/-- The record is in force and every block but the Roster Table and the Commit Queue at its start values (R20, R42, R122,
R134, R152). -/
def blocksAtStart (s : State) : State :=
  ((((s.lockRecord.modTb fun _ => .reset).modBi fun _ => { BusInterface.reset with line := .busy }).modPu
    fun _ => { PlacementUnit.reset with length := s.lockRecord.period }).modOs
    fun _ => { OutputStage.reset with inactiveRun := s.lockRecord.deadtime }).modFu fun _ => .reset

/-- A prescaler at the beginning of its first count. -/
def zeroPhase (s : State) : State := { s with phase := 0 }

/-- The state in which START in SETUP lets the first local cycle start. -/
def beforeFirstCycle (s : State) : State := s.blocksAtStart.forgetRoster.forgetQueue.zeroPhase.enterListen .none 0

theorem startFromSetup_eq (s : State) : s.startFromSetup = s.beforeFirstCycle.settle.startWithPoint true := rfl

@[simp] theorem zeroPhase_kept (s : State) : s.zeroPhase.sc = s.sc ∧ s.zeroPhase.tb = s.tb ∧ s.zeroPhase.bi = s.bi
    ∧ s.zeroPhase.rt = s.rt ∧ s.zeroPhase.cq = s.cq ∧ s.zeroPhase.pu = s.pu ∧ s.zeroPhase.os = s.os
    ∧ s.zeroPhase.fu = s.fu ∧ s.zeroPhase.sp = s.sp := by simp [zeroPhase]

@[simp] theorem blocksAtStart_fields (s : State) : s.blocksAtStart.sc = s.sc ∧ s.blocksAtStart.tb = .reset
    ∧ s.blocksAtStart.bi = { BusInterface.reset with line := .busy } ∧ s.blocksAtStart.cq = s.cq
    ∧ s.blocksAtStart.pu = { PlacementUnit.reset with length := s.period }
    ∧ s.blocksAtStart.os = { OutputStage.reset with inactiveRun := s.deadtime } ∧ s.blocksAtStart.fu = .reset
    ∧ s.blocksAtStart.sp = { s.sp with locked := true, fingerprint := fingerprintOf s.sp.record } := by
  refine ⟨rfl, rfl, rfl, rfl, rfl, rfl, rfl, rfl⟩

@[simp] theorem beforeFirstCycle_fields (s : State) :
    s.beforeFirstCycle.sc = ⟨.listen, .none, 0, 0, 0, .none, false, none, false, false⟩
      ∧ s.beforeFirstCycle.tb = TimeBase.reset
      ∧ s.beforeFirstCycle.rt.entries = List.replicate 16 .absentEntry ∧ s.beforeFirstCycle.rt.copySource = .none
      ∧ s.beforeFirstCycle.rt.armed = false
      ∧ s.beforeFirstCycle.cq.entries = [] ∧ s.beforeFirstCycle.cq.duty = 0
      ∧ s.beforeFirstCycle.cq.nextSeq = s.cq.nextSeq
      ∧ s.beforeFirstCycle.pu = { PlacementUnit.reset with length := s.period }
      ∧ s.beforeFirstCycle.os = { OutputStage.reset with inactiveRun := s.deadtime }
      ∧ s.beforeFirstCycle.fu = FaultUnit.reset
      ∧ s.beforeFirstCycle.sp.record = s.sp.record ∧ s.beforeFirstCycle.sp.locked = true
      ∧ s.beforeFirstCycle.sp.fingerprint = fingerprintOf s.sp.record := by
  simp [beforeFirstCycle, enterListen, moveTo_listen_fu, moveTo_tb, RosterTable.reset, TimeBase.reset]

theorem beforeFirstCycle_bi (hs : s.sc.station = .setup) :
    s.beforeFirstCycle.bi = { BusInterface.reset with line := .busy } := by
  have hm : s.blocksAtStart.forgetRoster.forgetQueue.zeroPhase.isMember = false := by simp [isMember, hs]
  simp [beforeFirstCycle, enterListen, moveTo_listen_bi hm]

theorem beforeFirstCycle_tickets (h : s.sp.tickets = []) : s.beforeFirstCycle.sp.tickets = [] := by
  have hfinished : ∀ x ∈ s.blocksAtStart.forgetRoster.forgetQueue.zeroPhase.sp.tickets, x.unfinished = false := by
    simp [h]
  rw [beforeFirstCycle, enterListen_tickets_of_finished _ _ hfinished]
  simp [h]

theorem hasEvent_beforeFirstCycle (s : State) : s.beforeFirstCycle.hasEvent .state = true :=
  (steady_modTb (steady_modSc (Steady.rfl' (w := true)) id) fun _ => ⟨rfl, rfl, rfl, rfl⟩).hasEvent (hasEvent_moveTo .listen _)

theorem getD_replicate_absent (n i : Nat) :
    (List.replicate n RosterEntry.absentEntry).getD i .absentEntry = .absentEntry := by
  rw [List.getD_eq_getElem?_getD, List.getElem?_replicate]
  split <;> rfl

/-- An empty roster gives no target (R68, R123). -/
theorem targetNow_of_absent (h : s.rt.entries = List.replicate 16 .absentEntry) : s.targetNow = none := by
  have hslot : slotOf (List.replicate 16 .absentEntry) s.ownId = none := by
    rw [slotOf, getD_replicate_absent]
    rfl
  simp only [targetNow, h, hslot, Option.map_none, ite_self]

theorem settled_beforeFirstCycle (s : State) : s.beforeFirstCycle.Settled := by
  have hchosen : s.beforeFirstCycle.chosenMode = .off := chosenMode_of_not_member (isMember_of_listen (by simp))
  have htarget : s.beforeFirstCycle.targetNow = none := targetNow_of_absent (by simp)
  rw [Settled, hchosen, htarget]
  simp [OutputStage.reset, PlacementUnit.reset]

/-- No latch, no half-cycle point to order: the first local cycle starts alone. -/
theorem startFromSetup_eq_cycleStart (s : State) : s.startFromSetup = s.beforeFirstCycle.cycleStart true := by
  have hclears : s.beforeFirstCycle.someClears = false := by
    simp [someClears, allInputs, clearsAtPoint, inputRecord, FaultUnit.reset, InputRecord.reset]
  rw [startFromSetup_eq, (settled_beforeFirstCycle s).settle_eq, startWithPoint_eq, if_pos hclears]

/-! ### A local cycle start with nothing to do (R125, R140, R142) -/

/-- Without a target and a step the cycle that starts is unslewed. -/
theorem placeCycle_pu_of_unplaced (htarget : s.pu.target = none) (hstep : s.pu.step = 0)
    (hoffset : s.pu.offset < s.period) :
    s.placeCycle.pu = { s.pu with slewing := false, step := 0, length := s.period } := by
  have hend : s.endOffset = s.pu.offset := by
    rw [endOffset, hstep, Int.add_zero, Int.emod_eq_of_lt (by omega) (by omega), Int.toNat_natCast]
  simp [placeCycle, reachTest, htarget, hend]
  rfl

theorem cycleStart_pu (e : Bool) (s : State) : (s.cycleStart e).pu = s.placeCycle.pu := by simp [cycleStart]

theorem cycleStart_cmp (e : Bool) (s : State) : (s.cycleStart e).os.cmp = s.placeCycle.latchCompare.os.cmp := by
  simp [cycleStart]

/-- Duty 0 latches compare 0 (R140, R142). -/
theorem latchCompare_cmp_of_zero (hduty : s.cq.duty = 0) (hp : 0 < s.period) : s.latchCompare.os.cmp = 0 := by
  simp [latchCompare, hduty, compareOf, adjustCompare_zero _ _ hp.ne]

theorem period_congr (h : t.sp.record = s.sp.record) : t.period = s.period := by simp only [period, h]

theorem startFromSetup_pu (hp : 0 < s.period) : s.startFromSetup.pu = ⟨none, 0, false, 0, s.period⟩ := by
  have hperiod : s.beforeFirstCycle.period = s.period := period_congr (by simp)
  rw [startFromSetup_eq_cycleStart, cycleStart_pu, placeCycle_pu_of_unplaced (by simp [PlacementUnit.reset])
    (by simp [PlacementUnit.reset]) (by rw [hperiod]; simpa [PlacementUnit.reset] using hp), hperiod]
  simp [PlacementUnit.reset]

theorem startFromSetup_cmp (hp : 0 < s.period) : s.startFromSetup.os.cmp = 0 := by
  have hperiod : s.beforeFirstCycle.placeCycle.period = s.period := period_congr (by simp)
  rw [startFromSetup_eq_cycleStart, cycleStart_cmp]
  exact latchCompare_cmp_of_zero (by simp) (by rwa [hperiod])

@[simp] theorem startFromSetup_fields (s : State) :
    s.startFromSetup.sc = ⟨.listen, .none, 0, 0, 0, .none, false, none, false, false⟩
      ∧ s.startFromSetup.tb = TimeBase.reset
      ∧ s.startFromSetup.rt.entries = List.replicate 16 .absentEntry ∧ s.startFromSetup.rt.copySource = .none
      ∧ s.startFromSetup.rt.armed = false
      ∧ s.startFromSetup.cq.entries = [] ∧ s.startFromSetup.cq.duty = 0 ∧ s.startFromSetup.cq.nextSeq = s.cq.nextSeq
      ∧ s.startFromSetup.fu = FaultUnit.reset ∧ s.startFromSetup.os.p = 0
      ∧ s.startFromSetup.os.inactiveRun = s.deadtime ∧ s.startFromSetup.os.blanking = false
      ∧ s.startFromSetup.sp.record = s.sp.record ∧ s.startFromSetup.sp.locked = true
      ∧ s.startFromSetup.sp.fingerprint = fingerprintOf s.sp.record := by
  simp [startFromSetup_eq_cycleStart]

theorem outputsOff_startFromSetup (s : State) : s.startFromSetup.OutputsOff := by
  rw [startFromSetup_eq_cycleStart]
  exact outputsOff_of_settled (settled_cycleStart true (settled_beforeFirstCycle s)) (isMember_of_listen (by simp))
    (OutputStage.regate_gatesOk ..)

theorem startFromSetup_tickets (h : s.sp.tickets = []) : s.startFromSetup.sp.tickets = [] := by
  simp [startFromSetup_eq_cycleStart, beforeFirstCycle_tickets h]

theorem startFromSetup_bi (hs : s.sc.station = .setup) :
    s.startFromSetup.bi = { BusInterface.reset with line := .busy } := by
  simp [startFromSetup_eq_cycleStart, beforeFirstCycle_bi hs]

theorem hasEvent_startFromSetup (s : State) : s.startFromSetup.hasEvent .state = true := by
  rw [startFromSetup_eq_cycleStart]
  exact (steady_cycleStart (Steady.rfl' (w := true))).hasEvent (hasEvent_beforeFirstCycle s)

end State

/-- Check 4 of START: PERIOD is at least 64 (R175). -/
theorem period_pos_of_startValid (h : startValid s.sp.record) : 0 < s.period :=
  Nat.lt_of_lt_of_le (by decide) (h 4)

open State in
/-- Settles O9: the first local cycle start of a station in LISTEN has no target to reach, no duty and no latch. -/
theorem startFromSetup_spec : Obligations.StartFromSetup := by
  unfold Obligations.StartFromSetup
  intro s hs hvalid
  refine ⟨_, (exec_start s).trans (congrArg _ (startCommand_of_valid hs hvalid)), ?_⟩
  have hp := period_pos_of_startValid hvalid
  have hcopy : (s.startFromSetup.respond .accepted []).NoCopy := by constructor <;> simp [FaultUnit.reset]
  have hmask : s.startFromSetup.sp.mask = s.sp.mask := (steady_startFromSetup s).mask
  simpa [startFromSetup_bi hs, BusInterface.reset, hcopy, (outputsOff_startFromSetup s).respond, startFromSetup_pu hp,
    startFromSetup_cmp hp, hmask, hasEvent_startFromSetup] using startFromSetup_tickets

/-! ### STOP outside the group (R11, R17, R177) -/

open State in
/-- Settles O11. -/
theorem stopOutsideTheGroup : Obligations.StopOutsideTheGroup := by
  unfold Obligations.StopOutsideTheGroup
  constructor
  · intro s hs
    have hstop : s.stopCommand = s.respond .refusedState [] := by
      simp only [List.mem_cons, List.not_mem_nil, or_false] at hs
      obtain h | h | h | h | h := hs <;> simp only [stopCommand, h]
    rw [exec_stop, hstop]
    rfl
  · intro s hs
    have hstop : s.stopCommand = s.enterDormant.respond .accepted [] := by
      simp only [List.mem_cons, List.not_mem_nil, or_false] at hs
      obtain h | h := hs <;> simp only [stopCommand, h]
    refine ⟨_, (exec_stop s).trans (congrArg _ hstop), ?_⟩
    have hshared : (s.enterDormant.respond .accepted []).SameShared s := by constructor <;> simp
    have hcounters : (s.enterDormant.respond .accepted []).SameCounters s := by constructor <;> simp
    exact ⟨by simp, by simp [Status.code], hshared, fun hg => (outputsOff_enterDormant hg).respond, by simp, by simp,
      by simp, hcounters, by simp, by simp [refEpoch], inputRecord_congr (by simp) (by simp) (by simp),
      by simp [hasEvent_enterDormant]⟩

/-! ### RESTART (R18) -/

namespace State

/-- What RESTART forgets before the time base runs free and LISTEN is entered. -/
def forgottenAtRestart (s : State) : State :=
  (((s.voidTickets .restart).forgetRoster.forgetQueue).clearFaults.clearBus).modOs fun os =>
    { os with clampFlag := false, clampRecord := none, blanking := false }

theorem restartFromIsolated_eq (s : State) :
    s.restartFromIsolated = (s.forgottenAtRestart.freeTimeBase.enterListen .none 0).settle := rfl

@[simp] theorem forgottenAtRestart_kept (s : State) : s.forgottenAtRestart.sc = s.sc ∧ s.forgottenAtRestart.tb = s.tb
    ∧ s.forgottenAtRestart.rt = RosterTable.reset ∧ s.forgottenAtRestart.cq.entries = []
    ∧ s.forgottenAtRestart.cq.duty = 0 ∧ s.forgottenAtRestart.pu = s.pu ∧ s.forgottenAtRestart.bi.queue = []
    ∧ s.forgottenAtRestart.sp.record = s.sp.record ∧ s.forgottenAtRestart.sp.tickets = s.ticketsVoided .restart
    ∧ s.forgottenAtRestart.fu.tripSet = 0 := by
  simp [forgottenAtRestart, FaultUnit.reset]

theorem forgottenAtRestart_fu (s : State) : s.forgottenAtRestart.fu = FaultUnit.reset := by
  simp [forgottenAtRestart, clearBus, setQueue, syncFaultFrames, FaultUnit.reset]

/-- Whether the line has been held low for longer than a mark (R36). -/
def heldLow (s : State) : Bool := s.tb.levelLow && 64 < s.tb.lowRun

/-- A line that is still held low takes the free time base to HOLDOVER at once (R20, R36); with an empty transmit queue the
Bus Interface and the Fault Unit stay as they are. -/
theorem freeTimeBase_of_empty (hq : s.bi.queue = []) :
    s.freeTimeBase.tb.state = (if s.heldLow then .holdover else .free) ∧ s.freeTimeBase.tb.resume = .free
      ∧ s.freeTimeBase.bi = s.bi ∧ s.freeTimeBase.fu = s.fu := by
  have heq : s.freeTimeBase = (s.modTb fun tb => { tb with
      state := .free, inWindow := 0, markSeen := false, resume := .free, holdoverEpochs := 0, driveLeft := 0
      driveReadLow := false, failedDrives := 0 }).doIf s.heldLow enterHoldover := rfl
  rw [heq]
  cases s.heldLow with
  | false => simp
  | true => simp [enterHoldover, hasQueued, hq]

theorem targetNow_remode (s : State) : s.remode.targetNow = s.targetNow :=
  targetNow_congr (by simp [mayHaveTarget, isMember, isFollower]) (by simp) (by simp)

theorem recomputeTarget_pu_of_no_target (h : s.targetNow = none) :
    s.recomputeTarget.pu = { s.pu with target := none } := by
  unfold recomputeTarget
  split
  next hsame => rw [← h, hsame]
  next => simp [h]

/-- Where the rules give no target, settling takes the target away and leaves the rest of the Placement Unit (R130). -/
theorem settle_pu_of_no_target (h : s.targetNow = none) : s.settle.pu = { s.pu with target := none } := by
  rw [settle, recomputeTarget_pu_of_no_target ((targetNow_remode s).trans h), (remode_kept s).2.2.2.2.2.1]

/-! ### The state RESTART leaves -/

@[simp] theorem restartFromIsolated_kept (s : State) :
    s.restartFromIsolated.sc = ⟨.listen, .none, 0, 0, 0, .none, false, none, false, false⟩
      ∧ s.restartFromIsolated.rt.entries = List.replicate 16 .absentEntry
      ∧ s.restartFromIsolated.rt.copySource = .none ∧ s.restartFromIsolated.rt.armed = false
      ∧ s.restartFromIsolated.cq.entries = [] ∧ s.restartFromIsolated.cq.duty = 0
      ∧ s.restartFromIsolated.fu = FaultUnit.reset ∧ s.restartFromIsolated.bi.queue = []
      ∧ s.restartFromIsolated.tb.b = s.tb.b ∧ s.restartFromIsolated.tb.k = s.tb.k
      ∧ s.restartFromIsolated.tb.en = s.tb.en ∧ s.restartFromIsolated.tb.lastLead = s.tb.lastLead
      ∧ s.restartFromIsolated.tb.state = (if s.heldLow then .holdover else .free)
      ∧ s.restartFromIsolated.tb.resume = .free
      ∧ s.restartFromIsolated.sp.record = s.sp.record := by
  obtain ⟨hstate, hresume, hbi, hfu⟩ := freeTimeBase_of_empty (s := s.forgottenAtRestart) (by simp)
  have hheld : s.forgottenAtRestart.heldLow = s.heldLow := by simp [heldLow]
  simp [restartFromIsolated_eq, enterListen, moveTo_listen_fu, moveTo_queue, hstate, hresume, hbi, hfu, hheld,
    forgottenAtRestart_fu, RosterTable.reset]

theorem restartFromIsolated_tickets (s : State) : s.restartFromIsolated.sp.tickets = s.ticketsVoided .restart := by
  have hfinished : ∀ x ∈ s.forgottenAtRestart.freeTimeBase.sp.tickets, x.unfinished = false := by
    simpa using fun x hx => unfinished_of_mem_ticketsVoided hx
  simp [restartFromIsolated_eq, enterListen_tickets_of_finished _ _ hfinished]

theorem restartFromIsolated_offset (s : State) : s.restartFromIsolated.pu.offset = s.pu.offset := by
  have hnone : (s.forgottenAtRestart.freeTimeBase.enterListen .none 0).targetNow = none :=
    targetNow_of_absent (by simp [RosterTable.reset])
  rw [restartFromIsolated_eq, settle_pu_of_no_target hnone]
  simp

theorem outputsOff_restartFromIsolated (hg : s.os.GatesOk) : s.restartFromIsolated.OutputsOff :=
  outputsOff_of_settled (settle_settled _) (isMember_of_listen (by simp))
    ((steady_restartFromIsolated (w := true) .rfl').gates hg)

theorem hasEvent_ticket_restartFromIsolated (h : ∃ x ∈ s.sp.tickets, x.unfinished = true) :
    s.restartFromIsolated.hasEvent .ticket = true := by
  have hforgotten : Steady true (s.voidTickets .restart) s.forgottenAtRestart :=
    steady_modOs (steady_clearBus (steady_clearFaults (steady_forgetQueue (steady_forgetRoster .rfl'))))
      fun h => h.of rfl rfl id
  exact (steady_settle (steady_enterListen (steady_freeTimeBase hforgotten))).hasEvent (hasEvent_voidTickets h)

end State

open State in
/-- Settles O14. -/
theorem restart : Obligations.Restart := by
  unfold Obligations.Restart
  constructor
  · intro s hs
    have hrestart : s.restartCommand = s.restartFromIsolated.respond .accepted [] := if_pos hs
    refine ⟨_, (exec_restart s).trans (congrArg _ hrestart), ?_⟩
    have hcopy : (s.restartFromIsolated.respond .accepted []).NoCopy := by constructor <;> simp [FaultUnit.reset]
    have hcounters : (s.restartFromIsolated.respond .accepted []).SameCounters s := by constructor <;> simp
    have hevents := (steady_restartFromIsolated (w := true) (Steady.rfl' (a := s))).events
    refine ⟨by simp, by simp, by simp [Status.code], hcopy, fun hg => (outputsOff_restartFromIsolated hg).respond,
      hcounters, by simp, fun hfree => ?_, fun ⟨hlow, hrun⟩ => by simp [heldLow, hlow, hrun], by simp, by simp,
      by simp [restartFromIsolated_offset], by simp, by simpa using hevents, by simp [restartFromIsolated_tickets],
      fun h => by simp [hasEvent_ticket_restartFromIsolated h]⟩
    have hheld : s.heldLow = false := by
      obtain hlow | hrun := hfree
      · simp [heldLow, hlow]
      · simp [heldLow, Nat.not_lt.mpr hrun]
    simp [hheld]
  · intro s hs
    have hrestart : s.restartCommand = s.respond .refusedState [] := if_neg hs
    rw [exec_restart, hrestart]
    rfl

/-! ### STOP in MEMBER and the leave that waits (R12, R177, R178) -/

namespace State

/-- What a leave under number `n` makes of a member, once the REMOVE(LEFT) is queued (R12). -/
@[simp] theorem becomeLeaving_kept (n : Byte) (s : State) :
    (s.becomeLeaving n).sc = { s.sc with
        station := .leaving, withdrawOwed := false, leavePending := false, tracked := some ⟨s.ownId, n⟩ }
      ∧ (s.becomeLeaving n).tb = s.tb ∧ (s.becomeLeaving n).os = s.os ∧ (s.becomeLeaving n).pu = s.pu
      ∧ (s.becomeLeaving n).rt.entries = s.rt.entries ∧ (s.becomeLeaving n).cq.entries = s.cq.entries
      ∧ (s.becomeLeaving n).cq.duty = s.cq.duty ∧ (s.becomeLeaving n).cq.nextSeq = s.cq.nextSeq
      ∧ (s.becomeLeaving n).fu.tripSet = s.fu.tripSet ∧ (s.becomeLeaving n).sp.record = s.sp.record
      ∧ (s.becomeLeaving n).sp.tickets = s.sp.tickets
      ∧ (s.becomeLeaving n).bi.queue = s.bi.queue.filter fun x => !x.body.isQuery := by
  simp [becomeLeaving, moveTo_tb, moveTo_queue, moveTo_tickets]

theorem hasEvent_becomeLeaving (n : Byte) (s : State) : (s.becomeLeaving n).hasEvent .state = true :=
  (steady_modSc (Steady.rfl' (w := true)) id).hasEvent (hasEvent_moveTo .leaving s)

/-- The reserved ticket is unfinished and in the table (R11). -/
theorem reservedTicket_some {r : Ticket} (h : s.reservedTicket = some r) :
    r ∈ s.sp.tickets ∧ r.reserved = true ∧ r.unfinished = true := by
  have hfound := List.find?_some h
  simp only [Bool.and_eq_true] at hfound
  exact ⟨List.mem_of_find?_eq_some h, hfound.1, hfound.2⟩

/-- The ticket of a REMOVE(LEFT) under a number, in state WAITING (R12, R180). -/
def leaveTicket (n : Byte) : Ticket := ⟨n, .remove, .waiting, none, false, false, false⟩

theorem stopMember_of_full (hr : s.reservedTicket = none) (hq : 6 ≤ s.bi.queue.length) :
    s.stopMember = s.withResponse [0x13] := by
  simp [stopMember, hr, offerPropose_of_full _ hq, respond_nil, Status.code]

theorem stopMember_of_no_ticket (hr : s.reservedTicket = none) (hq : s.bi.queue.length < 6)
    (hc : s.canIssueTicket = false) : s.stopMember = s.withResponse [0x14] := by
  simp [stopMember, hr, offerPropose_of_room _ hq, hc, respond_nil, Status.code]

theorem stopMember_accepted (hr : s.reservedTicket = none) (hq : s.bi.queue.length < 6)
    (hc : s.canIssueTicket = true) : s.stopMember
      = (((s.proposed (.remove s.ownId .left)).issueTicket s.cq.nextSeq .remove false).becomeLeaving
          s.cq.nextSeq).respond .acceptedTicket [s.cq.nextSeq] := by
  simp [stopMember, hr, offerPropose_of_room _ hq, hc]

theorem ownId_proposed (content : ProposalContent) (s : State) : (s.proposed content).ownId = s.ownId :=
  ownId_congr (by simp)

theorem proposeLeave_fresh (hr : s.reservedTicket = none) (hq : s.bi.queue.length < 6) : s.proposeLeave
    = ((s.proposed (.remove s.ownId .left)).doIf s.canIssueTicket
        (issueTicket s.cq.nextSeq .remove false)).becomeLeaving s.cq.nextSeq := by
  simp [proposeLeave, hr, offerPropose_of_room _ hq]

theorem proposeLeave_reserved {r : Ticket} (hr : s.reservedTicket = some r) (hq : s.bi.queue.length < 6) :
    s.proposeLeave = ((s.offered (.propose r.number (.remove s.ownId .left))).updateTickets
        (fun u => u.number = r.number) fun u => { u with reserved := false }).becomeLeaving r.number := by
  simp [proposeLeave, hr, offer_of_room _ hq]

theorem proposeLeave_of_full (hq : 6 ≤ s.bi.queue.length) : s.proposeLeave = s := by
  simp only [proposeLeave, offer_of_full _ hq, offerPropose_of_full _ hq]
  split <;> rfl

/-- What a leave leaves as it was, whatever ticket it takes. -/
theorem proposeLeave_kept (hq : s.bi.queue.length < 6) :
    s.proposeLeave.sc.station = .leaving ∧ s.proposeLeave.sc.leavePending = false
      ∧ s.proposeLeave.hasEvent .state = true ∧ s.proposeLeave.os = s.os ∧ s.proposeLeave.pu = s.pu
      ∧ s.proposeLeave.SameShared s ∧ s.proposeLeave.SameCounters s ∧ s.proposeLeave.tb.driveLeft = s.tb.driveLeft := by
  cases hr : s.reservedTicket with
  | none =>
    rw [proposeLeave_fresh hr hq]
    refine ⟨by simp, by simp, hasEvent_becomeLeaving .., by simp, by simp, ?_, ?_, by simp⟩ <;> constructor <;> simp
  | some r =>
    rw [proposeLeave_reserved hr hq]
    refine ⟨by simp, by simp, hasEvent_becomeLeaving .., by simp, by simp, ?_, ?_, by simp⟩ <;> constructor <;> simp

end State

open State in
/-- Settles O12: a STOP and a waiting leave by the equations of `stopMember` and `proposeLeave`. -/
theorem stopInMember : Obligations.StopInMember := by
  unfold Obligations.StopInMember
  have hexec {s : State} (hm : s.sc.station = .member) : exec .stop s = .next s.stopMember := by
    rw [exec_stop, stopCommand]
    simp only [hm]
  refine ⟨fun s hm hr hq => ?full, fun s hm hr hq hc => ?noTicket, fun s hm hr hq hc => ?leaves, fun s h => ?waits,
    fun s hm hpending hq => ?pending⟩
  case full => rw [hexec hm, stopMember_of_full hr hq]
  case noTicket => rw [hexec hm, stopMember_of_no_ticket hr hq hc]
  case leaves =>
    refine ⟨_, (hexec hm).trans (congrArg _ (stopMember_accepted hr hq hc)), ?_⟩
    refine ⟨by simp, by simp [Status.code], ?_, by simp, ?_, by simp, by simp, by simp, by simp, ?_, ?_, by simp⟩
    · simp [ownId_congr (s := s)]
    · simp [QueuedBody.isQuery]
    · constructor <;> simp
    · constructor <;> simp
  case waits =>
    unfold leaveIfPending
    obtain hm | hp | hq := h
    · simp [hm]
    · simp [hp]
    · exact doIf_keeps (P := id) (proposeLeave_of_full hq)
  case pending =>
    have hleave : s.leaveIfPending = s.proposeLeave := by simp [leaveIfPending, hm, hpending]
    rw [hleave]
    obtain ⟨h1, h2, h3, h4, h5, h6, h7, h8⟩ := proposeLeave_kept hq
    refine ⟨h1, h2, h3, h4, h5, h6, h7, h8, fun hr => ?_, fun r hr => ?_⟩
    · rw [proposeLeave_fresh hr hq]
      refine ⟨?_, by simp, by simp [QueuedBody.isQuery], fun hc => by simp [hc], fun hc => by simp [hc]⟩
      simp [ownId_congr (s := s)]
    · obtain ⟨hmem, hreserved, hunfinished⟩ := reservedTicket_some hr
      rw [proposeLeave_reserved hr hq]
      refine ⟨?_, by simp, by simp [QueuedBody.isQuery], ?_⟩
      · simp [ownId_congr (s := s)]
      · simp only [becomeLeaving_kept, updateTickets_kept, offered_kept]
        exact List.mem_map.mpr ⟨r, hmem, by simp [hunfinished]⟩

/-! ### STOP in JOINING (R11) -/

namespace State

theorem stopJoining_waiting {x : QueuedFrame} (hx : s.waitingAdmit = some x) (hf : x.inFlight = false) :
    s.stopJoining = s.enterDormant.respond .accepted [] := by
  simp [stopJoining, hx, hf]

theorem stopJoining_in_flight {x : QueuedFrame} (hx : s.waitingAdmit = some x) (hf : x.inFlight = true) :
    s.stopJoining = s.setLeavePending.respond .accepted [] := by
  simp [stopJoining, hx, hf]

theorem stopJoining_open {e : QueueEntry} (hx : s.waitingAdmit = none) (he : s.ownAdmit = some e)
    (hp : e.phase = .openPhase) : s.stopJoining = s.stopOpen e := by
  simp [stopJoining, hx, he, hp]

theorem stopJoining_firm {e : QueueEntry} (hx : s.waitingAdmit = none) (he : s.ownAdmit = some e)
    (hp : e.phase = .firm) : s.stopJoining = s.stopFirm := by
  simp [stopJoining, hx, he, hp]

theorem stopOpen_of_full (e : QueueEntry) (hq : 6 ≤ s.bi.queue.length) : s.stopOpen e = s.withResponse [0x13] := by
  simp [stopOpen, offer_of_full _ hq, respond_nil, Status.code]

theorem stopOpen_of_room (e : QueueEntry) (hq : s.bi.queue.length < 6) : s.stopOpen e
    = (((if s.withdrawalQueued e.id then s else s.offered (.object e.id .withdrawn)).modSc fun sc =>
        { sc with withdrawOwed := false }).setLeavePending).respond .accepted [] := by
  simp [stopOpen, offer_of_room _ hq]

theorem stopFirm_of_no_ticket (hr : s.reservedTicket = none) (hc : s.canIssueTicket = false) :
    s.stopFirm = s.withResponse [0x14] := by
  simp [stopFirm, hr, hc, respond_nil, Status.code]

theorem stopFirm_accepted (hr : s.reservedTicket = none) (hc : s.canIssueTicket = true) : s.stopFirm
    = (((s.issueTicket s.cq.nextSeq .remove true).modCq fun cq => { cq with nextSeq := cq.nextSeq + 1 }).setLeavePending
        ).respond .acceptedTicket [s.cq.nextSeq] := by
  simp [stopFirm, hr, hc]

@[simp] theorem setLeavePending_kept (s : State) : s.setLeavePending.sc = { s.sc with leavePending := true }
    ∧ s.setLeavePending.tb = s.tb ∧ s.setLeavePending.bi = s.bi ∧ s.setLeavePending.rt = s.rt
    ∧ s.setLeavePending.cq = s.cq ∧ s.setLeavePending.pu = s.pu ∧ s.setLeavePending.os = s.os
    ∧ s.setLeavePending.fu = s.fu ∧ s.setLeavePending.sp = s.sp := by
  simp [setLeavePending]

end State

open State in
/-- Settles O13, by the phase that the tracked ADMIT has reached. -/
theorem stopInJoining : Obligations.StopInJoining := by
  unfold Obligations.StopInJoining
  have hexec {s : State} (hj : s.sc.station = .joining) : exec .stop s = .next s.stopJoining := by
    rw [exec_stop, stopCommand]
    simp only [hj]
  refine ⟨fun x s hj hx hf => ?waiting, fun x s hj hx hf => ?inFlight, fun e s hj hx he hp =>
    ⟨fun hq => ?full, fun hq hw => ?withdrawn, fun hq hw => ?withdraws⟩, fun e s hj hx he hp hr =>
    ⟨fun hc => ?noTicket, fun hc => ?reserves⟩⟩
  case waiting =>
    refine ⟨_, (hexec hj).trans (congrArg _ (stopJoining_waiting hx hf)), by simp, by simp [Status.code], by simp, ?_,
      fun hg => (outputsOff_enterDormant hg).respond⟩
    constructor <;> simp
  case inFlight => rw [hexec hj, stopJoining_in_flight hx hf]; rfl
  case full => rw [hexec hj, stopJoining_open hx he hp, stopOpen_of_full e hq]
  case withdrawn => rw [hexec hj, stopJoining_open hx he hp, stopOpen_of_room e hq, if_pos hw]; rfl
  case withdraws =>
    have hstop := (stopJoining_open hx he hp).trans (stopOpen_of_room e hq)
    rw [hw, if_neg Bool.false_ne_true] at hstop
    refine ⟨_, (hexec hj).trans (congrArg _ hstop), by simp [hj], by simp, by simp [Status.code], by simp, by simp, ?_,
      by simp, by simp, by simp⟩
    constructor <;> simp
  case noTicket => rw [hexec hj, stopJoining_firm hx he hp, stopFirm_of_no_ticket hr hc]
  case reserves =>
    refine ⟨_, (hexec hj).trans (congrArg _ ((stopJoining_firm hx he hp).trans (stopFirm_accepted hr hc))),
      by simp [hj], by simp, by simp [Status.code], by simp, by simp, by simp, ?_, by simp, by simp, by simp⟩
    constructor <;> simp

end Sys2Proof.Machine
end

section
/-! SUBMIT, WITHDRAW and READ_TICKET (R178, R179, R183): the places a new ticket and a new frame take, and each command by the
first condition that applies. -/

namespace Sys2Proof.Machine

variable {s t : State}

/-! ### The place of a frame (R56) -/

/-- A queue in the order of the classes stays so when a frame is placed. -/
theorem insertFrame_pairwise {x : QueuedFrame} {q : List QueuedFrame}
    (h : q.Pairwise fun y z => y.body.cls ≤ z.body.cls) :
    (insertFrame x q).Pairwise fun y z => y.body.cls ≤ z.body.cls := by
  obtain ⟨before, after, rfl, heq, hbefore, hafter⟩ := insertFrame_eq_append x q
  rw [heq]
  rw [List.pairwise_append] at h
  obtain ⟨hb, ha, hba⟩ := h
  have hlater : ∀ z ∈ after, x.body.cls ≤ z.body.cls := by
    intro z hz
    cases after with
    | nil => cases hz
    | cons y ys =>
      have hy := (hafter y rfl).le
      obtain rfl | hz := List.mem_cons.mp hz
      · exact hy
      · exact hy.trans (List.rel_of_pairwise_cons ha hz)
  refine List.pairwise_append.mpr ⟨hb, List.pairwise_cons.mpr ⟨hlater, ha⟩, fun y hy z hz => ?_⟩
  obtain rfl | hz := List.mem_cons.mp hz
  · exact hbefore y hy
  · exact hba y hy z hz

/-! ### The place of a ticket (R180) -/

theorem dropOldestFinished_append {before after : List Ticket} {u : Ticket} (hu : u.unfinished = false)
    (h : ∀ y ∈ before, y.unfinished = true) : dropOldestFinished (before ++ u :: after) = before ++ after := by
  induction before with
  | nil => simp [dropOldestFinished, hu]
  | cons y ys ih =>
    simp only [List.forall_mem_cons] at h
    simp [dropOldestFinished, h.1, ih h.2]

theorem issueInto_of_room {x : Ticket} {table : List Ticket}
    (h : (table.filter fun u => u.unfinished || u.number ≠ x.number).length < 4) :
    issueInto x table = (table.filter fun u => u.unfinished || u.number ≠ x.number) ++ [x] := by
  simp only [issueInto, if_pos h]

theorem issueInto_of_full {x u : Ticket} {table before after : List Ticket}
    (hfull : 4 ≤ (table.filter fun u => u.unfinished || u.number ≠ x.number).length)
    (hsplit : (table.filter fun u => u.unfinished || u.number ≠ x.number) = before ++ u :: after)
    (hu : u.unfinished = false) (hb : ∀ y ∈ before, y.unfinished = true) :
    issueInto x table = before ++ after ++ [x] := by
  simp only [issueInto, if_neg (Nat.not_lt.mpr hfull)]
  rw [hsplit, dropOldestFinished_append hu hb]

/-! ### SUBMIT (R178) -/

namespace State

theorem canIssueTicket_iff : s.canIssueTicket = true ↔ (s.sp.tickets.filter (·.unfinished)).length < 4
    ∧ ∀ x ∈ s.sp.tickets, x.unfinished = true → x.number ≠ s.cq.nextSeq := by
  rw [canIssueTicket, Bool.and_eq_true, decide_eq_true_iff, unfinishedTickets]
  simp

theorem submit_of_not_member (k : TicketKind) (d : ProposalContent) (h : s.sc.station ≠ .member) :
    s.submit k d = s.withResponse [0x10] := by
  simp [submit, h, respond_nil, Status.code]

theorem submit_of_full (k : TicketKind) (d : ProposalContent) (h : s.sc.station = .member)
    (hq : 6 ≤ s.bi.queue.length) : s.submit k d = s.withResponse [0x13] := by
  simp [submit, h, offerPropose_of_full _ hq, respond_nil, Status.code]

theorem submit_of_no_ticket (k : TicketKind) (d : ProposalContent) (h : s.sc.station = .member)
    (hq : s.bi.queue.length < 6) (hc : s.canIssueTicket = false) : s.submit k d = s.withResponse [0x14] := by
  simp [submit, h, offerPropose_of_room _ hq, hc, respond_nil, Status.code]

theorem submit_accepted (k : TicketKind) (d : ProposalContent) (h : s.sc.station = .member)
    (hq : s.bi.queue.length < 6) (hc : s.canIssueTicket = true) :
    s.submit k d = ((s.proposed d).issueTicket s.cq.nextSeq k false).respond .acceptedTicket [s.cq.nextSeq] := by
  simp [submit, h, offerPropose_of_room _ hq, hc]

end State

/-- The two commands that submit a proposal, with its ticket's kind and its content. -/
theorem exec_submit {c : Instr} {k : TicketKind} {d : ProposalContent}
    (h : (∃ duty, c = .submitDemand duty ∧ k = .demand duty ∧ d = .demand duty)
      ∨ ∃ b : Byte, b.toNat ≤ 15 ∧ c = .submitClearTrip b ∧ k = .clearTrip (Fin.ofNat 16 b.toNat)
          ∧ d = .clearTrip (Fin.ofNat 16 b.toNat)) (s : State) : exec c s = .next (s.submit k d) := by
  obtain ⟨duty, rfl, rfl, rfl⟩ | ⟨b, hb, rfl, rfl, rfl⟩ := h
  · rfl
  · rw [exec_submitClearTrip, State.submitClearTrip, if_neg (Nat.not_lt.mpr hb)]

open State in
/-- Settles O15: the command by the conditions of R178, and the places of its ticket and its frame. -/
theorem submit_spec : Obligations.Submit := by
  unfold Obligations.Submit
  constructor
  · intro b s hb
    rw [exec_submitClearTrip, submitClearTrip, if_pos hb]
    rfl
  · intro s c k d hcommand
    rw [exec_submit hcommand]
    refine ⟨fun hm => ?notMember, fun hm hq => ?full, fun hm hq htickets => ?noTicket, fun hm hq hfew hnumber => ?accepted,
      fun x table => ⟨issueInto_of_room, fun before after u => issueInto_of_full⟩,
      fun x queue => ⟨insertFrame_eq_append x queue, insertFrame_pairwise⟩,
      fun f id r seq content i => ⟨rfl, rfl, rfl, rfl, rfl⟩⟩
    case notMember => rw [submit_of_not_member k d hm]
    case full => rw [submit_of_full k d hm hq]
    case noTicket =>
      have hc : s.canIssueTicket = false := by
        rw [← Bool.not_eq_true, canIssueTicket_iff]
        rintro ⟨hfew, hnumber⟩
        obtain hmany | ⟨x, hx, hu, hn⟩ := htickets
        · omega
        · exact hnumber x hx hu hn
      rw [submit_of_no_ticket k d hm hq hc]
    case accepted =>
      refine ⟨_, congrArg _ (submit_accepted k d hm hq (canIssueTicket_iff.mpr ⟨hfew, hnumber⟩)), ?_⟩
      refine ⟨by simp [Status.code], by simp, by simp, by simp, by simp, by simp, ?_, by simp, by simp, by simp, by simp,
        by simp, inputRecord_congr (by simp) (by simp) (by simp), by simp, by simp⟩
      simp [issueTicket]

/-! ### READ_TICKET (R183, R197) -/

namespace State

variable {n : Byte} {x : Ticket}

theorem findTicket_eq_none_iff : s.sp.tickets.find? (·.number = n) = none ↔ ∀ x ∈ s.sp.tickets, x.number ≠ n := by
  simp

theorem number_of_findTicket (h : s.sp.tickets.find? (·.number = n) = some x) : x.number = n := by
  simpa using List.find?_some h

theorem readTicket_of_none (h : ∀ x ∈ s.sp.tickets, x.number ≠ n) : s.readTicket n = s.withResponse [0x21] := by
  rw [readTicket, findTicket_eq_none_iff.mpr h]
  rfl

theorem readTicket_of_unfinished (h : s.sp.tickets.find? (·.number = n) = some x) (hu : x.unfinished = true) :
    s.readTicket n = s.withResponse (0x00 :: ticketRecord s.ownId x) := by
  simp only [readTicket, h, hu, Bool.not_true, doIf_false]
  rfl

theorem readTicket_of_finished (h : s.sp.tickets.find? (·.number = n) = some x) (hu : x.unfinished = false) :
    s.readTicket n = { s with sp := { s.sp with
      tickets := s.sp.tickets.filter (fun y => y.number ≠ n), response := 0x00 :: ticketRecord s.ownId x } } := by
  simp only [readTicket, h, hu, Bool.not_false, doIf_true]
  rfl

end State

/-- Bytes 4 to 8 of a ticket record: the state, the flags, the reason, F (R197). -/
theorem ticketRecord_drop_four (own : StationId) (x : Ticket) : (ticketRecord own x).drop 4
    = x.state.code :: ticketFlags x :: x.state.reasonCode.getD 0 :: wordBytes (x.f.getD 0) := by
  cases hk : x.kind <;> simp [ticketRecord, ticketValue, hk, wordBytes]

/-- The flag of F in byte 5. -/
def fFlag (x : Ticket) : Byte := if x.f.isSome then 0x10 else 0x00

/-- Byte 5 of a ticket record, by the three flags of its state beside that of F (R197). -/
theorem ticketFlags_eq (x : Ticket) : ticketFlags x
    = ((if x.state.noEffect then 0x80 else 0x00) ||| (if x.state.reasonCode.isSome then 0x40 else 0x00)
        ||| (if x.state.objector.isSome then 0x20 else 0x00) ||| fFlag x
        ||| BitVec.ofNat 8 (x.state.objector.getD 0).val) := by
  have hjoin : ∀ (a b c d : Bool) (i : StationId),
      BitVec.ofBool a ++ BitVec.ofBool b ++ BitVec.ofBool c ++ BitVec.ofBool d ++ nibbleOfStation i
        = ((if a then 0x80#8 else 0x00) ||| (if b then 0x40 else 0x00) ||| (if c then 0x20 else 0x00)
          ||| (if d then 0x10 else 0x00) ||| BitVec.ofNat 8 i.val) := by decide
  exact hjoin ..

open State in
/-- Settles O17. -/
theorem readTicket_spec : Obligations.ReadTicket := by
  unfold Obligations.ReadTicket
  intro n s
  simp only [exec_readTicket]
  refine ⟨fun h => by rw [readTicket_of_none h], fun x hx => ?_⟩
  refine ⟨fun hu => by rw [readTicket_of_unfinished hx hu], fun hu => ?freed, ?length, ?number, ?demand, ?clearTrip,
    ?remove, ?rest⟩
  case freed =>
    refine ⟨_, congrArg _ (readTicket_of_finished hx hu), rfl, ?_⟩
    rw [readTicket_of_none]
    intro y hy
    simpa using (List.mem_filter.mp hy).2
  case length => cases hk : x.kind <;> simp [ticketRecord, ticketValue, hk, wordBytes]
  case number => simp [ticketRecord, number_of_findTicket hx]
  case demand => intro d hk; simp [ticketRecord, ticketValue, hk, wordBytes]
  case clearTrip => intro k hk; simp [ticketRecord, ticketValue, hk, wordBytes]
  case remove => intro hk; simp [ticketRecord, ticketValue, hk, wordBytes]
  case rest =>
    simp only [ticketRecord_drop_four, ticketFlags_eq]
    simp only [List.mem_cons, List.not_mem_nil, or_false]
    refine ⟨fun h => ?waiting, fun h => ?openState, fun h => ?firm, fun e h => ?applied, ?refused, ?objected,
      fun h => ?abandoned, ?voided⟩
    case refused =>
      rintro p (rfl | rfl | rfl | rfl | rfl | rfl | rfl) h <;> simp [h, TicketState.code, TicketState.noEffect, TicketState.reasonCode,
        TicketState.objector, fFlag, ArrivalRefusal.code]
    case objected => rintro p (rfl | rfl | rfl | rfl) o h <;> simp [h, TicketState.code, TicketState.noEffect, TicketState.reasonCode,
        TicketState.objector, fFlag, ObjectReason.code]
    case voided => rintro p (rfl | rfl | rfl | rfl) h <;> simp [h, TicketState.code, TicketState.noEffect, TicketState.reasonCode,
        TicketState.objector, fFlag, VoidReason.code]
    all_goals simp [h, TicketState.code, TicketState.noEffect, TicketState.reasonCode, TicketState.objector, fFlag]

/-! ### WITHDRAW (R179) -/

/-- Whether a queued frame is one that the tests of the Fault Unit offer (R165, R166). -/
def QueuedBody.isStandingOffer : QueuedBody → Bool
  | .propose _ .shed | .propose _ (.admission _ _) => true
  | _ => false

namespace State

variable {n : Byte} {x : Ticket} {q : QueuedFrame}

theorem withdrawTicket_of_none (h : ∀ x ∈ s.sp.tickets, x.number ≠ n) : s.withdrawTicket n = s.withResponse [0x21] := by
  rw [withdrawTicket, findTicket_eq_none_iff.mpr h]
  rfl

theorem withdrawTicket_of_late (hx : s.sp.tickets.find? (·.number = n) = some x)
    (h : x.state = .firm ∨ x.unfinished = false) : s.withdrawTicket n = s.withResponse [0x20] := by
  have hlate : (decide (x.state = .firm) || !x.unfinished) = true := by
    obtain h | h := h <;> simp [h]
  simp only [withdrawTicket, hx, hlate, if_true]
  rfl

/-- WAITING and OPEN are neither FIRM nor finished. -/
theorem unfinished_of_state (h : x.state = .waiting ∨ x.state = .openState) : x.unfinished = true := by
  obtain h | h := h <;> simp [h, Ticket.unfinished, TicketState.unfinished]

theorem not_late_of_state (h : x.state = .waiting ∨ x.state = .openState) :
    (decide (x.state = .firm) || !x.unfinished) = false := by
  obtain h | h := h <;> simp [h, Ticket.unfinished, TicketState.unfinished]

theorem withdrawTicket_of_not_member (hx : s.sp.tickets.find? (·.number = n) = some x)
    (h : x.state = .waiting ∨ x.state = .openState) (hm : s.isMember = false) :
    s.withdrawTicket n = s.withResponse [0x10] := by
  simp only [withdrawTicket, hx, not_late_of_state h, hm]
  rfl

theorem withdrawTicket_waiting (hx : s.sp.tickets.find? (·.number = n) = some x) (h : x.state = .waiting)
    (hm : s.isMember = true) : s.withdrawTicket n = (s.withdrawWaiting x).respond .accepted [] := by
  simp [withdrawTicket, hx, unfinished_of_state (.inl h), hm, h]

theorem withdrawTicket_open_queued (hx : s.sp.tickets.find? (·.number = n) = some x) (h : x.state = .openState)
    (hm : s.isMember = true) (hw : s.withdrawalQueued ⟨s.ownId, n⟩ = true) :
    s.withdrawTicket n = s.withResponse [0x00] := by
  simp [withdrawTicket, hx, unfinished_of_state (.inr h), hm, h, hw, respond_nil, Status.code]

theorem withdrawTicket_open_full (hx : s.sp.tickets.find? (·.number = n) = some x) (h : x.state = .openState)
    (hm : s.isMember = true) (hw : s.withdrawalQueued ⟨s.ownId, n⟩ = false) (hq : 6 ≤ s.bi.queue.length) :
    s.withdrawTicket n = s.withResponse [0x13] := by
  simp [withdrawTicket, hx, unfinished_of_state (.inr h), hm, h, hw, offer_of_full _ hq, respond_nil, Status.code]

theorem withdrawTicket_open_offered (hx : s.sp.tickets.find? (·.number = n) = some x) (h : x.state = .openState)
    (hm : s.isMember = true) (hw : s.withdrawalQueued ⟨s.ownId, n⟩ = false) (hq : s.bi.queue.length < 6) :
    s.withdrawTicket n = ((s.offered (.object ⟨s.ownId, n⟩ .withdrawn)).updateTickets (fun u => u.number = n)
      fun u => { u with withdrawQueued := true }).respond .accepted [] := by
  simp [withdrawTicket, hx, unfinished_of_state (.inr h), hm, h, hw, offer_of_room _ hq]

/-- The frame and the ticket of a WAITING proposal withdrawn (R179). -/
def withdrawn (x : Ticket) (q : QueuedFrame) (s : State) : State :=
  (s.dropBodies fun b => b = q.body).updateTickets (fun u => u.number = x.number) (Ticket.finish .abandoned)

theorem withdrawWaiting_queued (hq : s.ticketFrame x = some q) (hf : q.inFlight = false) : s.withdrawWaiting x
    = (s.withdrawn x q).doIf (s.sc.station = .leaving && s.tracks { origin := s.ownId, seq := x.number })
        returnToMember := by
  simp [withdrawWaiting, hq, hf, withdrawn]

theorem withdrawWaiting_in_flight (hq : s.ticketFrame x = some q) (hf : q.inFlight = true) : s.withdrawWaiting x
    = s.updateTickets (fun u => u.number = x.number) fun u => { u with withdrawRequest := true } := by
  simp [withdrawWaiting, hq, hf]

@[simp] theorem withdrawn_kept (x : Ticket) (q : QueuedFrame) (s : State) :
    (s.withdrawn x q).sc = s.sc ∧ (s.withdrawn x q).tb = s.tb ∧ (s.withdrawn x q).rt = s.rt
      ∧ (s.withdrawn x q).cq = s.cq ∧ (s.withdrawn x q).pu = s.pu ∧ (s.withdrawn x q).os = s.os
      ∧ (s.withdrawn x q).fu.tripSet = s.fu.tripSet ∧ (s.withdrawn x q).sp.record = s.sp.record
      ∧ (s.withdrawn x q).bi.queue = s.bi.queue.filter fun y => y.body ≠ q.body := by
  simp [withdrawn]

/-- Every ticket of the number is finished, the one found ABANDONED (R179). -/
theorem withdrawn_tickets (hx : s.sp.tickets.find? (·.number = n) = some x) (h : x.unfinished = true) :
    (∀ y ∈ (s.withdrawn x q).sp.tickets, y.number = n → y.unfinished = false)
      ∧ { x with state := .abandoned, withdrawRequest := false, withdrawQueued := false, reserved := false }
          ∈ (s.withdrawn x q).sp.tickets
      ∧ (s.withdrawn x q).hasEvent .ticket = true := by
  obtain rfl : x.number = n := number_of_findTicket hx
  have hmem : x ∈ s.sp.tickets := List.mem_of_find?_eq_some hx
  simp only [withdrawn, updateTickets_kept, dropBodies_kept, List.mem_map]
  refine ⟨?_, ⟨x, hmem, by simp [h, Ticket.finish]⟩, ?_⟩
  · rintro y ⟨z, hz, rfl⟩ hy
    cases hu : z.unfinished with
    | false => simp [hu]
    | true =>
      by_cases hzn : z.number = x.number
      · simp [hzn, Ticket.finish, Ticket.unfinished, TicketState.unfinished]
      · rw [if_neg (by simp [hzn])] at hy
        exact absurd hy hzn
  · exact hasEvent_updateTickets ⟨x, by simpa using hmem, h, by simp, rfl⟩

/-! ### The return to MEMBER (R13) -/

theorem leaveIfPending_of_not_pending (h : s.sc.leavePending = false) : s.leaveIfPending = s := by
  simp [leaveIfPending, h]

/-- Entry to MEMBER where no leave waits (R8). -/
theorem becomeMember_of_not_pending (h : s.sc.leavePending = false) : s.becomeMember
    = (((s.moveTo .member).modRt fun rt => { rt with copySource := .own }).modSc fun sc =>
        { sc with tracked := none }).memberTests := by
  rw [becomeMember, leaveIfPending_of_not_pending (by simp [h])]

/-- What an entry to MEMBER without a waiting leave changes and leaves. -/
theorem returnToMember_kept (h : s.sc.leavePending = false) :
    s.returnToMember.sc = { s.sc with station := .member, withdrawOwed := false, tracked := none }
      ∧ s.returnToMember.tb = s.tb ∧ s.returnToMember.rt.entries = s.rt.entries
      ∧ s.returnToMember.cq.entries = s.cq.entries ∧ s.returnToMember.cq.duty = s.cq.duty
      ∧ s.returnToMember.fu.tripSet = s.fu.tripSet ∧ s.returnToMember.sp.tickets = s.sp.tickets
      ∧ s.returnToMember.sp.record = s.sp.record := by
  simp [returnToMember, becomeMember_of_not_pending h, moveTo_tb, moveTo_tickets]

theorem hasEvent_state_returnToMember (h : s.sc.leavePending = false) : s.returnToMember.hasEvent .state = true := by
  rw [returnToMember, becomeMember_of_not_pending h]
  exact (steady_settle (steady_memberTests (steady_modSc (steady_modRt (Steady.rfl' (w := true)) id) id))).hasEvent
    (hasEvent_moveTo .member s)

theorem mem_orKeep_proposed {content : ProposalContent} {f : FaultUnit → FaultUnit} {y : QueuedFrame}
    (hy : y ∈ (orKeep ((s.offerPropose content).map (modFu f)) s).bi.queue) :
    y ∈ s.bi.queue ∨ y.body = .propose s.cq.nextSeq content := by
  obtain hq | hq := Nat.lt_or_ge s.bi.queue.length 6
  · rw [offerPropose_of_room content hq] at hy
    simp only [Option.map_some, orKeep_some, modFu_bi, proposed_kept, mem_insertFrame] at hy
    obtain rfl | hy := hy
    · exact .inr rfl
    · exact .inl hy
  · rw [offerPropose_of_full content hq] at hy
    exact .inl hy

theorem mem_memberTests {y : QueuedFrame} (hy : y ∈ s.memberTests.bi.queue) :
    y ∈ s.bi.queue ∨ y.body.isStandingOffer = true := by
  have hshed {u : State} (hy : y ∈ u.shedTest.bi.queue) : y ∈ u.bi.queue ∨ y.body.isStandingOffer = true := by
    unfold shedTest at hy
    split at hy
    · obtain h | h := mem_orKeep_proposed hy
      · exact .inl h
      · exact .inr (by rw [h]; rfl)
    · exact .inl hy
  have hreadmit {u : State} (hy : y ∈ u.readmissionTest.bi.queue) :
      y ∈ u.bi.queue ∨ y.body.isStandingOffer = true := by
    unfold readmissionTest at hy
    split at hy
    · obtain h | h := mem_orKeep_proposed hy
      · exact .inl h
      · exact .inr (by rw [h]; rfl)
    · exact .inl hy
  obtain h | h := hreadmit hy
  · exact hshed h
  · exact .inr h

/-- The frame of a ticket asks for none of what the Fault Unit's tests offer (R180). -/
theorem ticketFrame_not_standing (hq : s.ticketFrame x = some q) : q.body.isStandingOffer = false := by
  have hfound := List.find?_some hq
  split at hfound
  next seq c hbody =>
    simp only [Bool.and_eq_true] at hfound
    have hfits := hfound.2
    rw [hbody]
    cases c with
    | shed => cases hk : x.kind <;> simp [hk, TicketKind.fits] at hfits
    | admission fp kind => cases hk : x.kind <;> simp [hk, TicketKind.fits] at hfits
    | _ => rfl
  next => cases hfound

/-- After the return to MEMBER the withdrawn frame is gone. -/
theorem ne_body_of_mem_returnToMember (hq : s.ticketFrame x = some q) {u : State} (hpending : u.sc.leavePending = false)
    (hu : ∀ y ∈ u.bi.queue, y.body ≠ q.body) : ∀ y ∈ u.returnToMember.bi.queue, y.body ≠ q.body := by
  intro y hy
  rw [returnToMember, becomeMember_of_not_pending hpending, (settle_kept _).2.2.1] at hy
  obtain hy | hy := mem_memberTests hy
  · simp only [modSc_bi, modRt_bi, moveTo_queue, reduceCtorEq, or_self, if_false] at hy
    exact hu y (List.mem_filter.mp hy).1
  · rintro heq
    rw [heq, ticketFrame_not_standing hq] at hy
    cases hy

end State

open State in
/-- Settles O16, by the conditions of R179 in their order. -/
theorem withdraw : Obligations.Withdraw := by
  unfold Obligations.Withdraw
  intro n s
  simp only [exec_withdraw]
  refine ⟨fun h => by rw [withdrawTicket_of_none h], fun x hx => ?_⟩
  obtain rfl : x.number = n := number_of_findTicket hx
  refine ⟨fun h => by rw [withdrawTicket_of_late hx h], fun h hm => by rw [withdrawTicket_of_not_member hx h hm],
    fun h hm => ⟨fun q hq hf hstays => ?stays, fun q hq hf hl ht hp => ?returns, fun q hq hf => ?inFlight⟩,
    fun h hm => ⟨fun hw => by rw [withdrawTicket_open_queued hx h hm hw],
      fun hw hq => by rw [withdrawTicket_open_full hx h hm hw hq], fun hw hq => ?offered⟩⟩
  case stays =>
    have hleave : (decide (s.sc.station = .leaving) && s.tracks { origin := s.ownId, seq := x.number }) = false := by
      simpa [tracks] using hstays
    have heq := (withdrawTicket_waiting hx h hm).trans (congrArg _ (withdrawWaiting_queued hq hf))
    rw [hleave, doIf_false] at heq
    obtain ⟨hdone, hmem, hevent⟩ := withdrawn_tickets (q := q) hx (unfinished_of_state (.inl h))
    refine ⟨_, congrArg _ heq, by simp [Status.code], by simp, by simpa using hdone, by simpa using hmem,
      by simpa using hevent, by simp, by simp, ?_, by simp, by simp⟩
    constructor <;> simp
  case returns =>
    have hleave : (decide (s.sc.station = .leaving) && s.tracks { origin := s.ownId, seq := x.number }) = true := by
      simp [tracks, hl, ht]
    have heq := (withdrawTicket_waiting hx h hm).trans (congrArg _ (withdrawWaiting_queued hq hf))
    rw [hleave, doIf_true] at heq
    obtain ⟨hdone, hmem, hevent⟩ := withdrawn_tickets (q := q) hx (unfinished_of_state (.inl h))
    have hpending : (s.withdrawn x q).sc.leavePending = false := by simp [hp]
    obtain ⟨hsc, htb, hentries, hqueue, hduty, htrips, htickets, -⟩ := returnToMember_kept hpending
    refine ⟨_, congrArg _ heq, by simp [Status.code], ?_, by simpa [htickets] using hdone, by simpa [htickets] using hmem,
      ?_, by simp [hsc], by simp [hsc], by simp [hasEvent_state_returnToMember hpending], by simp [htb], ?_⟩
    · simpa using ne_body_of_mem_returnToMember hq hpending (by simp)
    · rw [hasEvent_respond]
      exact (steady_returnToMember (Steady.rfl' (w := true))).hasEvent hevent
    · constructor <;> simp [hentries, hqueue, hduty, htrips]
  case inFlight =>
    have heq := (withdrawTicket_waiting hx h hm).trans (congrArg _ (withdrawWaiting_in_flight hq hf))
    refine ⟨_, congrArg _ heq, by simp [Status.code], by simp, ?_, by simp, by simp, ?_, by simp, by simp⟩
    · simp only [respond_sp, updateTickets_kept, List.mem_map]
      rintro y ⟨z, -, rfl⟩ hy hu
      by_cases hz : (z.unfinished && decide (z.number = x.number)) = true
      · rw [if_pos hz]
      · rw [if_neg hz] at hy hu
        exact absurd (by simp [hu, hy]) hz
    · constructor <;> simp
  case offered =>
    refine ⟨_, congrArg _ (withdrawTicket_open_offered hx h hm hw hq), by simp [Status.code], by simp, by simp, by simp,
      by simp, by simp, by simp, by simp⟩

end Sys2Proof.Machine
end

section
/-! Codes: the slots as ranks (R68), the coded roster (R192, R193), and the bytes of frames and commands, which decode to what
was encoded (R190, R191, R194 to R196). -/

namespace Sys2Proof.Machine

/-! ### Ranks in a sorted list -/

/-- Below the element at place `n` of a sorted list stand exactly the `n` elements before it. -/
theorem filter_lt_getElem {l : List StationId} (h : l.SortedLT) {n : Nat} (hn : n < l.length) :
    l.filter (· < l[n]) = l.take n := by
  have hbelow : (l.take n).filter (· < l[n]) = l.take n := by
    refine List.filter_eq_self.mpr fun i hi => ?_
    obtain ⟨m, hm, rfl⟩ := List.mem_take_iff_getElem.mp hi
    simpa using h.getElem_lt_getElem_of_lt (by omega)
  have habove : (l.drop n).filter (· < l[n]) = [] := by
    refine List.filter_eq_nil_iff.mpr fun i hi => ?_
    obtain ⟨m, hm, rfl⟩ := List.mem_drop_iff_getElem.mp hi
    simpa using h.sortedLE.getElem_le_getElem_of_le (by omega)
  calc l.filter (· < l[n]) = (l.take n ++ l.drop n).filter (· < l[n]) := by rw [List.take_append_drop]
    _ = l.take n := by rw [List.filter_append, hbelow, habove, List.append_nil]

theorem sortedLT_stationsWhere (entries : List RosterEntry) (test : RosterEntry → Bool) :
    (stationsWhere entries test).SortedLT :=
  ((by decide : allStations.Pairwise (· < ·)).filter _).sortedLT

theorem mem_allStations (i : StationId) : i ∈ allStations := by revert i; decide

theorem mem_stationsWhere {entries : List RosterEntry} {test : RosterEntry → Bool} {i : StationId} :
    i ∈ stationsWhere entries test ↔ test (entries.getD i.val RosterEntry.absentEntry) = true := by
  simp [stationsWhere, mem_allStations]

/-- A slot is a place in the list of the stations that hold one (R68). -/
theorem slotOf_eq_some_iff {entries : List RosterEntry} {i : StationId} {n : Nat} : slotOf entries i = some n
    ↔ (stationsWhere entries (·.holdsSlot))[n]? = some i := by
  have hsorted := sortedLT_stationsWhere entries (·.holdsSlot)
  constructor
  · intro h
    rw [slotOf] at h
    split at h
    next hholds =>
      obtain ⟨m, hm, rfl⟩ := List.getElem_of_mem (mem_stationsWhere.mpr hholds)
      rw [filter_lt_getElem hsorted hm, List.length_take_of_le hm.le, Option.some_inj] at h
      subst h
      exact List.getElem?_eq_getElem hm
    next => cases h
  · intro h
    obtain ⟨hn, rfl⟩ := List.getElem?_eq_some_iff.mp h
    rw [slotOf, if_pos (mem_stationsWhere.mp (List.getElem_mem hn)), filter_lt_getElem hsorted hn,
      List.length_take_of_le hn.le]

/-- Settles O55: the slots are the places of a sorted list. -/
theorem slotsAreRanks : Obligations.SlotsAreRanks := by
  unfold Obligations.SlotsAreRanks
  intro entries
  refine ⟨fun i => ?holds, fun i n h => ?bound, fun i j n m hi hj => ?order, fun n hn => ?onto, ?sixteen⟩
  case holds => rw [slotOf]; split <;> simp_all
  case bound =>
    obtain ⟨hn, -⟩ := List.getElem?_eq_some_iff.mp (slotOf_eq_some_iff.mp h)
    exact hn
  case order =>
    obtain ⟨hn, rfl⟩ := List.getElem?_eq_some_iff.mp (slotOf_eq_some_iff.mp hi)
    obtain ⟨hm, rfl⟩ := List.getElem?_eq_some_iff.mp (slotOf_eq_some_iff.mp hj)
    exact (sortedLT_stationsWhere entries _).strictMono_get.lt_iff_lt (a := ⟨n, hn⟩) (b := ⟨m, hm⟩) |>.symm
  case onto => exact ⟨_, slotOf_eq_some_iff.mpr (List.getElem?_eq_getElem hn)⟩
  case sixteen => exact List.length_filter_le _ allStations

/-! ### Bytes and words -/

@[simp] theorem wordOfBytes_extract (w : Word) : wordOfBytes (w.extractLsb' 8 8) (w.extractLsb' 0 8) = w := by
  rw [wordOfBytes, BitVec.extractLsb'_append_extractLsb'_eq_extractLsb' (by decide)]
  simp

@[simp] theorem threeBytes_extract (w : BitVec 24) :
    w.extractLsb' 16 8 ++ w.extractLsb' 8 8 ++ w.extractLsb' 0 8 = w := by
  rw [BitVec.extractLsb'_append_extractLsb'_eq_extractLsb' (by decide),
    BitVec.extractLsb'_append_extractLsb'_eq_extractLsb' (by decide)]
  simp

@[simp] theorem stationOfNibble_nibbleOfStation (i : StationId) : stationOfNibble (nibbleOfStation i) = i := by
  revert i; decide

/-! ### Frames (R190, R191, R194) -/

theorem headerOfBytes_headerBytes (i : StationId) (h : FrameHeader) :
    ∃ b0 b1, headerBytes i h = [b0, b1] ∧ headerOfBytes b0 b1 = (i, h) := by
  refine ⟨_, _, rfl, ?_⟩
  simp (disch := decide) only [headerOfBytes, BitVec.extractLsb'_append_eq_of_le, BitVec.extractLsb'_append_eq_of_add_le,
    BitVec.extractLsb'_append_eq_of_add_le]
  have hkind : h.kind.extractLsb' 3 1 ++ h.kind.extractLsb' 0 3 = h.kind := by
    rw [BitVec.extractLsb'_append_extractLsb'_eq_extractLsb' (by decide), BitVec.extractLsb'_eq_self]
  simp [hkind]

theorem decodeBeat_encodeBeat (f : BeatFields) : decodeBeat (encodeBeat f) = some f := by
  simp (disch := decide) only [encodeBeat, decodeBeat, wordBytes, BitVec.getLsbD_append, BitVec.extractLsb'_append_eq_of_add_le, List.cons_append, List.nil_append]
  simp

theorem decodePropose_encodePropose (p : ProposeFields) : decodePropose (encodePropose p) = some p := by
  simp (disch := decide) only [encodePropose, decodePropose, wordBytes, BitVec.extractLsb'_append_eq_of_le,
    BitVec.extractLsb'_append_eq_of_add_le, List.cons_append, List.nil_append]
  simp

theorem decodeObject_encodeObject (o : ObjectFields) : decodeObject (encodeObject o) = some o := by
  simp (disch := decide) only [encodeObject, decodeObject, BitVec.extractLsb'_append_eq_of_add_le]
  simp

theorem decodeTrip_encodeTrip (t : TripFields) : decodeTrip (encodeTrip t) = some t := by
  simp [encodeTrip, decodeTrip, wordBytes]

theorem rosterBytes_join (r : BitVec 64) : r.extractLsb' 56 8 ++ r.extractLsb' 48 8 ++ r.extractLsb' 40 8
    ++ r.extractLsb' 32 8 ++ r.extractLsb' 24 8 ++ r.extractLsb' 16 8 ++ r.extractLsb' 8 8 ++ r.extractLsb' 0 8 = r := by
  simp (disch := decide) only [BitVec.extractLsb'_append_extractLsb'_eq_extractLsb']
  simp

theorem decodeReply_encodeReply (r : ReplyFields) : decodeReply (encodeReply r) = some r := by
  simp (disch := decide) only [encodeReply, decodeReply, wordBytes, rosterBytes, rosterBytes_join, BitVec.extractLsb'_append_eq_of_add_le, List.cons_append, List.nil_append]
  simp

/-- Settles O52, by the decoder of each kind. -/
theorem frameRoundTrip : Obligations.FrameRoundTrip := by
  unfold Obligations.FrameRoundTrip
  intro c i h payload henc
  suffices hpayload : decodeFrame i h payload = c ∧ payload.length = h.length.toNat from
    ⟨hpayload.1, hpayload.2, headerOfBytes_headerBytes i h⟩
  cases c <;> simp only [encodeFrame, reduceCtorEq, Option.some.injEq, Prod.mk.injEq] at henc
  case beatAccepted i f =>
    obtain ⟨rfl, rfl, rfl⟩ := henc
    exact ⟨by simp [decodeFrame, decodeBeat_encodeBeat], rfl⟩
  case proposeAccepted i p =>
    obtain ⟨rfl, rfl, rfl⟩ := henc
    exact ⟨by simp [decodeFrame, decodePropose_encodePropose], rfl⟩
  case objectAccepted i o =>
    obtain ⟨rfl, rfl, rfl⟩ := henc
    exact ⟨by simp [decodeFrame, decodeObject_encodeObject], rfl⟩
  case tripAccepted i t =>
    obtain ⟨rfl, rfl, rfl⟩ := henc
    exact ⟨by simp [decodeFrame, decodeTrip_encodeTrip], rfl⟩
  case rosterQueryAccepted i =>
    obtain ⟨rfl, rfl, rfl⟩ := henc
    exact ⟨by simp [decodeFrame], rfl⟩
  case rosterReplyAccepted i r =>
    obtain ⟨rfl, rfl, rfl⟩ := henc
    exact ⟨by simp [decodeFrame, decodeReply_encodeReply], rfl⟩

/-! ### Setup Port commands (R172, R195, R196) -/

/-- The first `n` bytes of a record rebuild its upper `n` bytes (R174). -/
theorem foldl_recordByte (r : SetupRecord) {n : Nat} (hn : n ≤ 32) :
    recordOfBytes ((List.range n).map (recordByte r)) = r >>> (8 * (32 - n)) := by
  induction n with
  | zero => exact (BitVec.ushiftRight_eq_zero le_rfl).symm
  | succ n ih =>
    have ih := ih (by omega)
    simp only [recordOfBytes] at ih ⊢
    rw [List.range_succ, List.map_append, List.foldl_append, ih]
    ext i hi
    simp only [List.map_cons, List.map_nil, List.foldl_cons, List.foldl_nil, recordByte, BitVec.getElem_or,
      BitVec.getElem_shiftLeft, BitVec.getElem_setWidth, BitVec.getLsbD_extractLsb', BitVec.getElem_ushiftRight]
    obtain hlt | hge := Nat.lt_or_ge i 8
    · simp [hlt]
    · simp [Nat.not_lt.mpr hge]
      congr 1
      omega

theorem recordOfBytes_recordBytes (r : SetupRecord) : recordOfBytes (recordBytes r) = r := by
  rw [recordBytes, foldl_recordByte r le_rfl, Nat.sub_self, Nat.mul_zero, BitVec.ushiftRight_zero]

/-- A byte that names no command takes no argument bytes and decodes to the unknown command (R172). -/
theorem decodeCommand_of_unknown {code : Byte} (h : commandCodes.contains code = false) :
    decodeCommand code [] = .unknownCommand code ∧ commandArgs code = none := by
  simp [commandCodes, ← BitVec.toNat_inj] at h
  constructor
  · unfold decodeCommand
    split <;> simp_all
  · simp [commandArgs, ← BitVec.toNat_inj, h]

/-- Settles O53, command by command. -/
theorem commandRoundTrip : Obligations.CommandRoundTrip := by
  unfold Obligations.CommandRoundTrip
  intro c code args hwf henc
  cases c <;> cases henc
  case unknownCommand.refl =>
    obtain ⟨hdecode, hargs⟩ := decodeCommand_of_unknown (by simpa [Instr.wf] using hwf)
    exact ⟨hdecode, by simp [hargs]⟩
  case writeSetup.refl r =>
    exact ⟨by simp [decodeCommand, recordOfBytes_recordBytes], by simp [recordBytes, commandArgs]⟩
  all_goals simp [decodeCommand, commandArgs, wordBytes, maskBytes]

/-! ### The coded roster (R192, R193) -/

/-- Appending nibbles one after the other, each stands as many nibbles from the end as were appended after it. -/
theorem extract_foldl_nibble (g : StationId → BitVec 4) (before after : List StationId) (i : StationId) (r : BitVec 64)
    (hlen : after.length < 16) :
    ((before ++ i :: after).foldl (fun (r : BitVec 64) j => (r <<< 4) ||| (g j).setWidth 64) r).extractLsb' (4 * after.length) 4
      = g i := by
  induction after using List.reverseRecOn with
  | nil =>
    ext k hk
    simp [hk, show k < 64 by omega]
  | append_singleton after j ih =>
    rw [List.length_append, List.length_singleton] at hlen ⊢
    rw [← ih (by omega), ← List.cons_append, ← List.append_assoc, List.foldl_append, List.foldl_cons, List.foldl_nil]
    generalize (before ++ i :: after).foldl _ r = x
    ext k hk
    simp [show 4 * (after.length + 1) + k < 64 by omega, show ¬ 4 * (after.length + 1) + k < 4 by omega]
    rw [BitVec.getLsbD_of_ge (g j) _ (by omega), Bool.or_false, ← BitVec.getLsbD_eq_getElem]
    congr 1
    omega

/-- The sixteen stations around one of them. -/
theorem allStations_split (i : StationId) : ∃ before after, allStations = before ++ i :: after
    ∧ after.length = 15 - i.val :=
  ⟨allStations.take i.val, allStations.drop (i.val + 1), by revert i; decide, by revert i; decide⟩

@[simp] theorem codedNibble_rosterCode (entries : List RosterEntry) (i : StationId) :
    codedNibble (rosterCode entries) i = entryNibble (entries.getD i.val RosterEntry.absentEntry) := by
  obtain ⟨before, after, hsplit, hlen⟩ := allStations_split i
  rw [codedNibble, rosterCode, ← hlen, hsplit,
    extract_foldl_nibble (fun j => entryNibble (entries.getD j.val RosterEntry.absentEntry)) before after i 0 (by omega)]

/-- State and kind as R192 codes them: an ABSENT entry as PHASE. -/
def codedStanding (e : RosterEntry) : EntryState × StationKind := (e.state, if e.state = .absent then .phase else e.kind)

@[simp] theorem nibbleEntry_entryNibble (e : RosterEntry) : nibbleEntry (entryNibble e) = some (codedStanding e) := by
  cases hs : e.state <;> cases hk : e.kind <;> simp [entryNibble, nibbleEntry, codedStanding, hs, hk]

/-- The entry that a coded roster carries for an entry (R84). -/
def carriedEntry (en : Word) (e : RosterEntry) : RosterEntry where
  state := (codedStanding e).1
  kind := (codedStanding e).2
  admittedAt := if (codedStanding e).1 = .absent then none else some en
  silent := 0
  heard := false
  lastBeat := none

theorem entriesOfCode_rosterCode (entries : List RosterEntry) (en : Word) :
    State.entriesOfCode (rosterCode entries) en
      = some (allStations.map fun i => carriedEntry en (entries.getD i.val RosterEntry.absentEntry)) := by
  simp only [State.entriesOfCode, codedNibble_rosterCode, nibbleEntry_entryNibble, Option.map_some]
  exact List.mapM_pure

theorem getD_map_allStations (f : StationId → RosterEntry) (d : RosterEntry) (i : StationId) :
    (allStations.map f).getD i.val d = f i := by
  obtain ⟨before, after, hsplit, hlen⟩ := allStations_split i
  have hbefore : before.length = i.val := by
    have := congrArg List.length hsplit
    simp [allStations] at this
    omega
  simp [hsplit, ← hbefore]

/-- Settles O54. -/
theorem rosterCoding : Obligations.RosterCoding := by
  unfold Obligations.RosterCoding
  refine ⟨fun en entries => ?_, fun entries h => ?worked, by decide, by decide⟩
  · refine ⟨_, entriesOfCode_rosterCode entries en, by simp [allStations], fun i => ?_⟩
    rw [getD_map_allStations fun i => carriedEntry en (entries.getD i.val RosterEntry.absentEntry)]
    exact ⟨rfl, fun hpresent => if_neg hpresent, rfl, rfl, rfl⟩
  case worked =>
    have hnibble (i : StationId) : entryNibble (entries.getD i.val RosterEntry.absentEntry)
        = if i ∈ [(1 : StationId), 3, 6, 8] then 0x4 else 0x0 := by
      obtain ⟨hstate, hkind⟩ := h i
      rw [entryNibble, hstate, hkind]
      by_cases hi : i ∈ [(1 : StationId), 3, 6, 8]
      · rw [if_pos hi, if_pos hi]
      · rw [if_neg hi, if_neg hi]
    have hcode : rosterCode entries = 0x0404004040000000 := by
      simp only [rosterCode, hnibble]
      decide
    refine ⟨hcode, fun trips => ?_⟩
    rw [hcode, digestOfCode]
    exact congrArg (fun bs => checkWord (bs ++ wordBytes trips)) (by decide)

/-! ### The arrival checks (R97) -/

/-- The kinds that change a standing (R97). -/
theorem changesStanding_iff {c : ProposalContent} : c.changesStanding = true
    ↔ c = .shed ∨ (∃ fp kind, c = .admission fp kind) ∨ ∃ k r, c = .remove k r := by
  cases c <;> simp [ProposalContent.changesStanding]

theorem holdsSlot_iff {e : RosterEntry} : e.holdsSlot = true ↔ e.state = .active ∧ e.kind = .phase := by
  simp [RosterEntry.holdsSlot]

theorem isPresent_iff {e : RosterEntry} : e.isPresent = true ↔ e.state ≠ .absent := by simp [RosterEntry.isPresent]

namespace State

variable {s : State} {i : StationId} {p : ProposeFields}

theorem conflicts_iff {c d : ProposalContent} : conflicts c d = true
    ↔ (c.changesStanding = true ∧ d.changesStanding = true) ∨ ((∃ k, c = .clearTrip k) ∧ ∃ k, d = .clearTrip k) := by
  cases c <;> cases d <;> simp [conflicts, ProposalContent.changesStanding]

theorem lateCheck_eq_none_iff :
    s.lateCheck p = none ↔ 2 ≤ (p.f - s.tb.en).toNat ∧ (p.f - s.tb.en).toNat ≤ 15 := by
  rw [lateCheck, inRange, epochsAhead]
  split_ifs with h <;> simp only [Bool.and_eq_true, decide_eq_true_eq] at h
  · exact iff_of_true rfl h
  · exact iff_of_false nofun h

theorem memberCheck_eq_none_iff : s.memberCheck i p = none ↔ (s.entry i).state = .active ∨ p.kindCode = 1
    ∨ (p.kindCode = 2 ∧ stationOfNibble p.target = i ∧ (s.entry i).state = .shed) := by
  rw [memberCheck]
  split_ifs with h <;> simpa [or_assoc, and_assoc] using h

theorem lateCheck_of_ne_none (h : s.lateCheck p ≠ none) : s.lateCheck p = some .late := by
  rw [lateCheck] at h ⊢
  split at h <;> simp_all

theorem memberCheck_of_ne_none (h : s.memberCheck i p ≠ none) : s.memberCheck i p = some .notMember := by
  rw [memberCheck] at h ⊢
  split at h <;> simp_all

theorem kindCheck_admission_eq_none_iff {fp : Word} {kind : StationKind} :
    s.kindCheck i (some (.admission fp kind)) = none ↔ (s.entry i).state ≠ .active ∧ fp = s.referenceFingerprint := by
  simp only [kindCheck]
  split_ifs <;> simp_all

theorem kindCheck_remove_left {k : StationId} : s.kindCheck i (some (.remove k .left))
    = if (s.entry k).state ≠ .absent ∧ k = i then none else some .notAllowed := by
  simp only [kindCheck, RosterEntry.isPresent]
  split_ifs <;> simp_all
  tauto

theorem kindCheck_remove_lost {k : StationId} : s.kindCheck i (some (.remove k .lost))
    = if (s.entry k).state ≠ .absent ∧ k ≠ i then none else some .notAllowed := by
  simp only [kindCheck, RosterEntry.isPresent]
  split_ifs <;> simp_all
  tauto

theorem duplicateCheck_some {id : ProposalId} {c : ProposalContent} : s.duplicateCheck id (some c)
    = if ∃ e ∈ s.cq.entries, e.id = id ∨ (conflicts e.content c = true ∧ e.target = targetOf id.origin c)
      then some .duplicate else none := by
  simp [duplicateCheck]

theorem arrivalRefusal_of_late (h : s.lateCheck p ≠ none) : s.arrivalRefusal i p = some .late := by
  simp [arrivalRefusal, lateCheck_of_ne_none h]

theorem arrivalRefusal_of_not_member (hl : s.lateCheck p = none) (h : s.memberCheck i p ≠ none) :
    s.arrivalRefusal i p = some .notMember := by
  simp [arrivalRefusal, hl, memberCheck_of_ne_none h]

/-- Past the first two checks, a failed kind-specific condition gives its reason (R97). -/
theorem arrivalRefusal_of_kind {r : ArrivalRefusal} (hl : s.lateCheck p = none) (hm : s.memberCheck i p = none)
    (h : s.kindCheck i (contentOf p) = some r) : s.arrivalRefusal i p = some r := by
  simp [arrivalRefusal, hl, hm, h]

theorem arrivalRefusal_of_kind_passed {c : ProposalContent} (hl : s.lateCheck p = none) (hm : s.memberCheck i p = none)
    (hc : contentOf p = some c) (h : s.kindCheck i (some c) = none) :
    s.arrivalRefusal i p = (s.duplicateCheck ⟨i, p.seq⟩ (some c)).or s.fullCheck := by
  simp [arrivalRefusal, hl, hm, hc, h]

end State

open State in
/-- Settles O43, check by check. -/
theorem arrivalChecks : Obligations.ArrivalChecks := by
  unfold Obligations.ArrivalChecks
  intro i p s
  refine ⟨lateCheck_eq_none_iff, memberCheck_eq_none_iff, by simp [kindCheck], fun fp kind => kindCheck_admission_eq_none_iff,
    fun k => by simp [kindCheck_remove_left], fun k => by simp [kindCheck_remove_lost], by simp [kindCheck, holdsSlot_iff],
    fun d => rfl, fun k => by simp [kindCheck], fun hm => by simp [referenceFingerprint, hm],
    fun hm => by simp [referenceFingerprint, hm], fun c d => conflicts_iff, fun c => changesStanding_iff,
    fun fp kind d k r => ⟨rfl, rfl, rfl, rfl, rfl⟩, arrivalRefusal_of_late, arrivalRefusal_of_not_member,
    fun hl hm hc => arrivalRefusal_of_kind hl hm (by rw [hc]; rfl), fun c hl hm hc => ?_⟩
  have hkind {r : ArrivalRefusal} (h : s.kindCheck i (some c) = some r) : s.arrivalRefusal i p = some r :=
    arrivalRefusal_of_kind hl hm (by rw [hc, h])
  refine ⟨?active, ?fingerprint, ?remove, ?shed, ?clearTrip, fun h hdup => ?duplicate, fun h hno => ?full⟩
  case active => rintro fp kind rfl hactive; exact hkind (by simp [kindCheck, hactive])
  case fingerprint => rintro fp kind rfl hactive hfp; exact hkind (by simp [kindCheck, hactive, hfp])
  case remove =>
    rintro k r rfl h
    cases r with
    | left => exact hkind (by rw [kindCheck_remove_left, if_neg]; simp_all; tauto)
    | lost => exact hkind (by rw [kindCheck_remove_lost, if_neg]; simp_all; tauto)
  case shed => rintro rfl h; exact hkind (by simp [kindCheck, holdsSlot_iff, h])
  case clearTrip => rintro k rfl h; exact hkind (by rw [kindCheck, h]; rfl)
  case duplicate => rw [arrivalRefusal_of_kind_passed hl hm hc h, duplicateCheck_some, if_pos hdup]; rfl
  case full =>
    rw [arrivalRefusal_of_kind_passed hl hm hc h, duplicateCheck_some, if_neg, Option.none_or, fullCheck]
    rintro ⟨e, he, hconflict⟩
    exact hconflict.elim (hno e he).1 (hno e he).2

end Sys2Proof.Machine
end

section
/-! The snapshot and the records read from it (R184, R185, R194, R197): what each reading command answers with, and every
field of each record at its place. -/

namespace Sys2Proof.Machine

/-! ### Bytes of numbers -/

theorem twoBytes_eq (n : Nat) : twoBytes n = wordBytes (BitVec.ofNat 16 n) := by
  simp only [twoBytes, wordBytes, List.cons.injEq, and_true]
  constructor <;> apply BitVec.eq_of_toNat_eq
  · simp only [BitVec.toNat_ofNat, BitVec.extractLsb'_toNat, Nat.shiftRight_eq_div_pow]
    omega
  · simp only [BitVec.toNat_ofNat, BitVec.extractLsb'_toNat, Nat.shiftRight_zero]
    omega

theorem maskBytes_word_append (w : Word) (b : Byte) : maskBytes (w ++ b) = wordBytes w ++ [b] := by
  simp (disch := decide) only [maskBytes, wordBytes, BitVec.extractLsb'_append_eq_of_le,
    BitVec.extractLsb'_append_eq_of_add_le, BitVec.extractLsb'_eq_self]
  rfl

theorem length_wordBytes (w : Word) : (wordBytes w).length = 2 := rfl

/-! ### Records of one length in a row -/

/-- Of records of one length in a row, the record of a place stands at that many lengths. -/
theorem take_drop_flatMap {α β : Type} {f : α → List β} {k : Nat} (hk : ∀ x, (f x).length = k) {l : List α} {n : Nat}
    {x : α} (h : l[n]? = some x) (rest : List β) : ((l.flatMap f ++ rest).drop (k * n)).take k = f x := by
  induction l generalizing n with
  | nil => simp at h
  | cons y ys ih =>
    cases n with
    | zero =>
      obtain rfl : y = x := by simpa using h
      rw [List.flatMap_cons, Nat.mul_zero, List.drop_zero, List.append_assoc, List.take_append_of_le_length (hk y).ge,
        ← hk y, List.take_length]
    | succ n =>
      rw [List.flatMap_cons, List.append_assoc, Nat.mul_succ, Nat.add_comm, ← List.drop_drop, List.drop_append_of_le_length (hk y).ge,
        ← hk y, List.drop_length, List.nil_append, hk y]
      exact ih (by simpa using h)

theorem length_flatMap_of_length {α β : Type} {f : α → List β} {k : Nat} (hk : ∀ x, (f x).length = k) (l : List α) :
    (l.flatMap f).length = k * l.length := by
  simp [List.length_flatMap, hk, Nat.mul_comm]

/-! ### The status summary (R197) -/

theorem length_statusSummary (v : Snapshot) : (statusSummary v).length = 24 := rfl

theorem station_codes : ∀ p ∈ ([(.setup, 0), (.listen, 1), (.joining, 2), (.member, 3), (.leaving, 4), (.dormant, 5),
    (.resync, 6), (.isolated, 7), (.halted, 8)] : List (StationState × Byte)), p.1.code = p.2 := by decide

theorem reason_codes : ∀ p ∈ ([(.none, 0), (.markAbsent, 1), (.markStuck, 2), (.markDrive, 3), (.dataStuck, 4),
    (.rxConfined, 5), (.txConfined, 6), (.idConflict, 7), (.fingerprint, 8)] : List (Reason × Byte)), p.1.code = p.2 := by
  decide

theorem tb_codes : ∀ p ∈ ([(.free, 0), (.acquiring, 1), (.locked, 2), (.holdover, 3)] : List (TbState × Byte)),
    p.1.code = p.2 := by decide

theorem mode_codes : ∀ p ∈ ([(.off, 0), (.lowClamp, 1), (.run, 2)] : List (OutputMode × Byte)), p.1.code = p.2 := by
  decide

/-- Byte 9: clamp flag, blanking flag, placement state, T present. -/
theorem summaryFlags_bits (v : Snapshot) : (summaryFlags v).getLsbD 7 = v.os.clampFlag
    ∧ (summaryFlags v).getLsbD 6 = v.os.blanking ∧ (summaryFlags v).getLsbD 5 = v.pu.slewing
    ∧ (summaryFlags v).getLsbD 4 = v.pu.target.isSome := by
  simp only [summaryFlags, BitVec.getLsbD_append]
  simp

/-! ### The roster (R197) -/

theorem length_rosterRecord (entries : List RosterEntry) (i : StationId) : (rosterRecord entries i).length = 6 := by
  cases h : (entries.getD i.val RosterEntry.absentEntry).lastBeat <;> simp only [rosterRecord, h] <;> rfl

theorem rosterData_record (v : Snapshot) (i : StationId) :
    ((rosterData v).drop (1 + 6 * i.val)).take 6 = rosterRecord v.rt.entries i := by
  rw [rosterData, Nat.add_comm, List.drop_succ_cons, ← List.append_nil (allStations.flatMap _)]
  exact take_drop_flatMap (length_rosterRecord v.rt.entries) (by revert i; decide) []

/-- Byte 0 of a roster record. -/
def rosterHead (e : RosterEntry) (slot : Option Nat) : Byte :=
  e.state.code ++ kindBit e.kind ++ BitVec.ofBool slot.isSome ++ BitVec.ofNat 4 (slot.getD 0)

theorem rosterHead_fields (e : RosterEntry) (slot : Option Nat) : (rosterHead e slot).extractLsb' 6 2 = e.state.code
    ∧ (rosterHead e slot).getLsbD 5 = decide (e.kind = .observer) ∧ (rosterHead e slot).getLsbD 4 = slot.isSome
    ∧ (rosterHead e slot).extractLsb' 0 4 = BitVec.ofNat 4 (slot.getD 0) := by
  simp (disch := decide) only [rosterHead, BitVec.getLsbD_append, BitVec.extractLsb'_append_eq_of_le,
    BitVec.extractLsb'_append_eq_of_add_le]
  cases hk : e.kind <;> simp [kindBit]

/-- The bytes of an entry's beat record, where it has none and where it has one. -/
theorem beatRecordBytes_fields (n : Nat) (beat : Option BeatRecord) : ∃ b3 b4 b5 : Byte,
    beatRecordBytes n beat = [b3, b4, b5] ∧ b3.extractLsb' 4 4 = BitVec.ofNat 4 n ∧ b3.getLsbD 3 = beat.isSome
      ∧ (beat = none → b3.extractLsb' 0 3 = 0#3 ∧ b4 = 0x00 ∧ b5 = 0x00)
      ∧ ∀ r, beat = some r → b3.getLsbD 2 = r.resync
        ∧ b3.extractLsb' 0 2 ++ b4 = BitVec.ofNat 10 (min 1023 r.lead.toNat)
        ∧ b5.extractLsb' 4 4 = BitVec.ofNat 4 r.depth ∧ b5.getLsbD 3 = r.localLatched
        ∧ b5.getLsbD 2 = r.shedLatched ∧ b5.getLsbD 1 = r.tripLatched ∧ b5.getLsbD 0 = r.tripHeld := by
  cases beat with
  | none =>
    refine ⟨_, _, _, rfl, ?_, ?_, fun _ => ⟨?_, rfl, rfl⟩, nofun⟩ <;>
      simp (disch := decide) only [BitVec.getLsbD_append, BitVec.extractLsb'_append_eq_of_le,
        BitVec.extractLsb'_append_eq_of_add_le] <;> simp
  | some r =>
    refine ⟨_, _, _, rfl, ?_, ?_, nofun, ?_⟩
    · simp (disch := decide) only [BitVec.extractLsb'_append_eq_of_le]
      simp
    · simp only [BitVec.getLsbD_append]
      simp
    · rintro _ ⟨⟩
      simp (disch := decide) only [BitVec.getLsbD_append, BitVec.extractLsb'_append_eq_of_le,
        BitVec.extractLsb'_append_eq_of_add_le]
      have hlead (x : BitVec 10) : x.extractLsb' 8 2 ++ x.extractLsb' 0 8 = x := by
        rw [BitVec.extractLsb'_append_extractLsb'_eq_extractLsb' (by decide), BitVec.extractLsb'_eq_self]
      simp [hlead]

/-! ### The Commit Queue (R197) -/

/-- Byte 0 of a queue record. -/
def queueHead (e : QueueEntry) : Byte :=
  BitVec.ofBool (e.phase = .firm) ++ BitVec.ofBool e.isLocal ++ 0#2 ++ nibbleOfStation e.id.origin

theorem queueRecord_eq (e : QueueEntry) : queueRecord e = queueHead e :: (e.content.kindCode ++ recordTarget e : Byte)
    :: e.id.seq :: wordBytes e.f ++ maskBytes e.content.value := rfl

theorem length_queueRecord (e : QueueEntry) : (queueRecord e).length = 8 := rfl

theorem queueHead_fields (e : QueueEntry) : (queueHead e).getLsbD 7 = decide (e.phase = .firm)
    ∧ (queueHead e).getLsbD 6 = e.isLocal ∧ (queueHead e).extractLsb' 0 4 = nibbleOfStation e.id.origin := by
  simp (disch := decide) only [queueHead, BitVec.getLsbD_append, BitVec.extractLsb'_append_eq_of_add_le]
  simp

/-- Kind, target and value of a queue record, kind by kind. -/
theorem queueRecord_content (e : QueueEntry) :
    (∀ fp kind, e.content = .admission fp kind →
        (e.content.kindCode ++ recordTarget e : Byte) = 0x1#4 ++ nibbleOfStation e.id.origin
        ∧ maskBytes e.content.value = wordBytes fp ++ [(match kind with | .phase => 0x00 | .observer => 0x01 : Byte)])
    ∧ (∀ target reason, e.content = .remove target reason →
        (e.content.kindCode ++ recordTarget e : Byte) = 0x2#4 ++ nibbleOfStation target
        ∧ maskBytes e.content.value = [(match reason with | .left => 0x01 | .lost => 0x02 : Byte), 0x00, 0x00])
    ∧ (e.content = .shed → (e.content.kindCode ++ recordTarget e : Byte) = 0x3#4 ++ nibbleOfStation e.id.origin
        ∧ maskBytes e.content.value = [0x00, 0x00, 0x00])
    ∧ (∀ d, e.content = .demand d → (e.content.kindCode ++ recordTarget e : Byte) = 0x40
        ∧ maskBytes e.content.value = wordBytes d ++ [0x00])
    ∧ (∀ target, e.content = .clearTrip target →
        (e.content.kindCode ++ recordTarget e : Byte) = 0x5#4 ++ nibbleOfStation target
        ∧ maskBytes e.content.value = [0x00, 0x00, 0x00]) := by
  simp only [recordTarget, QueueEntry.target]
  refine ⟨?_, ?_, ?_, ?_, ?_⟩
  · rintro fp (_ | _) h <;> rw [h] <;> exact ⟨rfl, maskBytes_word_append fp _⟩
  · rintro target (_ | _) h <;> rw [h] <;> exact ⟨rfl, by simp [ProposalContent.value, maskBytes]⟩
  · rintro h
    rw [h]
    exact ⟨rfl, by decide⟩
  · rintro d h
    rw [h]
    exact ⟨by simp [ProposalContent.kindCode], maskBytes_word_append d _⟩
  · rintro target h
    rw [h]
    exact ⟨rfl, by simp [ProposalContent.value, maskBytes]⟩

/-- The 64 bytes of the records, 0 beyond the count (R185). -/
theorem length_queueRecords_padded {entries : List QueueEntry} (h : entries.length ≤ 8) :
    (entries.flatMap queueRecord ++ List.replicate (64 - (entries.flatMap queueRecord).length) 0).length = 64 := by
  rw [List.length_append, List.length_replicate, length_flatMap_of_length length_queueRecord]
  omega

theorem queueData_tail {v : Snapshot} (h : v.cq.entries.length ≤ 8) : (queueData v).drop 65
    = BitVec.ofNat 8 v.cq.entries.length :: wordBytes (v.cq.frozenRef.getD v.tb.en) := by
  rw [queueData, List.append_assoc, List.cons_append, List.drop_succ_cons,
    List.drop_append_of_le_length (length_queueRecords_padded h).ge, List.drop_of_length_le (length_queueRecords_padded h).le]
  rfl

theorem queueData_record {v : Snapshot} {n : Nat} {e : QueueEntry} (h : v.cq.entries[n]? = some e) :
    ((queueData v).drop (1 + 8 * n)).take 8 = queueRecord e := by
  rw [queueData, Nat.add_comm, List.append_assoc, List.cons_append, List.drop_succ_cons, List.append_assoc]
  exact take_drop_flatMap length_queueRecord h _

theorem length_queueData {v : Snapshot} (h : v.cq.entries.length ≤ 8) : (queueData v).length = 68 := by
  simp [queueData, length_flatMap_of_length length_queueRecord, wordBytes]
  omega

/-! ### The fault data (R197) -/

/-- Byte 0 of an input record. -/
def inputHead (r : SetupRecord) (i : InputNo) (x : InputRecord) : Byte :=
  BitVec.ofBool x.active ++ BitVec.ofBool x.latched ++ BitVec.ofBool x.ackArmed
    ++ (recordByte r (inputBase i + 2)).extractLsb' 6 1 ++ (recordByte r (inputBase i + 2)).extractLsb' 0 2
    ++ (recordByte r (inputBase i + 1)).extractLsb' 0 2

theorem inputData_eq (r : SetupRecord) (i : InputNo) (x : InputRecord) :
    inputData r i x = [inputHead r i x, BitVec.ofNat 8 x.activations] := rfl

theorem inputHead_fields (r : SetupRecord) (i : InputNo) (x : InputRecord) : (inputHead r i x).getLsbD 7 = x.active
    ∧ (inputHead r i x).getLsbD 6 = x.latched ∧ (inputHead r i x).getLsbD 5 = x.ackArmed
    ∧ (inputHead r i x).getLsbD 4 = (recordByte r (inputBase i + 2)).getLsbD 6
    ∧ (inputHead r i x).extractLsb' 2 2 = (recordByte r (inputBase i + 2)).extractLsb' 0 2
    ∧ (inputHead r i x).extractLsb' 0 2 = (recordByte r (inputBase i + 1)).extractLsb' 0 2 := by
  simp (disch := decide) only [inputHead, BitVec.getLsbD_append, BitVec.extractLsb'_append_eq_of_le,
    BitVec.extractLsb'_append_eq_of_add_le]
  simp

theorem lastTrip_sender_byte (i : StationId) :
    (1#1 ++ 0#3 ++ nibbleOfStation i : Byte) = 0x80 ||| (nibbleOfStation i).setWidth 8 := by
  revert i; decide

theorem length_lastTripData (l : Option LastTrip) : (lastTripData l).length = 6 := by cases l <;> rfl

theorem faultData_eq (v : Snapshot) : faultData v
    = staleByte v :: inputHead v.record .flt0 v.fu.flt0 :: BitVec.ofNat 8 v.fu.flt0.activations
      :: inputHead v.record .flt1 v.fu.flt1 :: BitVec.ofNat 8 v.fu.flt1.activations
      :: inputHead v.record .flt2 v.fu.flt2 :: BitVec.ofNat 8 v.fu.flt2.activations
      :: (wordBytes v.fu.tripSet ++ lastTripData v.fu.lastTrip) := rfl

/-- The input records of the fault data, each at its place (R197). -/
theorem faultData_input (v : Snapshot) : ∀ row ∈ [(1, 24, v.fu.flt0), (3, 27, v.fu.flt1), (5, 30, v.fu.flt2)],
    ∃ i : InputNo, row.2.1 = inputBase i + 1 ∧ (faultData v)[row.1]? = some (inputHead v.record i row.2.2)
      ∧ (faultData v)[row.1 + 1]? = some (BitVec.ofNat 8 row.2.2.activations) := by
  simp only [List.forall_mem_cons]
  exact ⟨⟨.flt0, rfl, rfl, rfl⟩, ⟨.flt1, rfl, rfl, rfl⟩, ⟨.flt2, rfl, rfl, rfl⟩, nofun⟩

/-- The last TRIP in the fault data. -/
theorem faultData_drop_nine (v : Snapshot) : (faultData v).drop 9 = lastTripData v.fu.lastTrip := rfl

open State in
/-- Settles O4, record by record. -/
theorem snapshotCommands : Obligations.SnapshotCommands := by
  unfold Obligations.SnapshotCommands
  refine ⟨fun s => ⟨s.takeSnapshot, ?_⟩, fun s => ⟨rfl, rfl, rfl⟩, fun v h => ?lengths, fun v => ?status, fun v i => ?roster,
    fun v n e hlen he => ?queue, fun v hlen => ?queueTail, fun v => ?faults, rfl, by decide, by decide, by decide⟩
  · refine ⟨rfl, rfl, rfl, rfl, rfl, rfl, rfl, rfl, rfl, rfl, rfl, rfl, rfl, rfl, rfl, ?_⟩
    rw [exec_readStatus]
    rfl
  case lengths =>
    refine ⟨rfl, ?_, length_queueData h, ?_, rfl, rfl, rfl⟩
    · rw [rosterData, List.length_cons, length_flatMap_of_length (length_rosterRecord v.rt.entries)]
      rfl
    · simp [faultData_eq, wordBytes, length_lastTripData]
  case status =>
    refine ⟨?_, ?_, ?_, rfl, ?_, ⟨_, _, _, rfl, threeBytes_join v.os.cmp⟩, ⟨_, rfl, summaryFlags_bits v⟩,
      twoBytes_eq v.pu.offset, twoBytes_eq _, rfl, rfl, rfl, rfl, ⟨_, _, _, rfl, ?_⟩⟩
    · exact fun p hp h => congrArg some (h ▸ station_codes p hp)
    · exact fun p hp h => congrArg some (h ▸ reason_codes p hp)
    · exact fun p hp h => congrArg some (h ▸ tb_codes p hp)
    · exact fun p hp h => congrArg some (h ▸ mode_codes p hp)
    · rw [threeBytes_join, BitVec.ofNat_toNat]
  case roster =>
    intro e
    obtain ⟨b3, b4, b5, hbytes, hsilent, hsome, hnone, hbeat⟩ := beatRecordBytes_fields e.silent e.lastBeat
    obtain ⟨hstate, hkind, hslot, hn⟩ := rosterHead_fields e (slotOf v.rt.entries i)
    refine ⟨rosterHead e (slotOf v.rt.entries i), b3, b4, b5, ?_, ?_, hkind, hslot, hn, hsilent, hsome, hnone, hbeat⟩
    · rw [rosterData_record, ← hbytes]
      rfl
    · rw [hstate]
      cases e.state <;> rfl
  case queue =>
    obtain ⟨hfirm, hlocal, horigin⟩ := queueHead_fields e
    exact ⟨queueHead e, _, _, queueData_record he, hfirm, hlocal, horigin, queueRecord_content e⟩
  case queueTail =>
    have htail := queueData_tail hlen
    constructor
    · rw [← List.head?_drop, htail, List.head?_cons]
    · rw [← List.tail_drop, htail, List.tail_cons]
  case faults =>
    refine ⟨fun row hrow => ?_, rfl, fun h => ?_, fun l h => ?_⟩
    · obtain ⟨i, hfield, hhead, hcount⟩ := faultData_input v row hrow
      obtain ⟨hactive, hlatched, harmed, hmanual, haction, hclass⟩ := inputHead_fields v.record i row.2.2
      obtain ⟨at_, field, record⟩ := row
      obtain rfl : field = _ := hfield
      exact ⟨_, hhead, hactive, hlatched, harmed, hmanual, haction, hclass, hcount⟩
    · rw [faultData_drop_nine, h]; rfl
    · rw [faultData_drop_nine, h, ← lastTrip_sender_byte]; rfl

end Sys2Proof.Machine
end

section
/-! The local cycle (R122 to R130, R138 to R149): the gates, a local cycle start field by field, the step of a slewing
cycle, and the recomputation of the target. -/

namespace Sys2Proof.Machine

variable {s t : State}

/-! ### The gates (R139, R143, R146) -/

theorem OutputStage.regate_gh_iff {dt : Nat} {os : OutputStage} : (os.regate dt).gh = true
    ↔ os.request = .high ∧ os.released = false ∧ (os.ghWas = true ∨ dt ≤ os.inactiveRun) := by
  simp [OutputStage.regate, and_assoc]

theorem OutputStage.regate_gl_iff {dt : Nat} {os : OutputStage} : (os.regate dt).gl = true
    ↔ os.request = .low ∧ os.released = false ∧ (os.glWas = true ∨ dt ≤ os.inactiveRun) := by
  simp [OutputStage.regate, and_assoc]

theorem OutputStage.regate_gh_of_released {dt : Nat} {os : OutputStage} (h : os.released = true) :
    (os.regate dt).gh = false ∧ (os.regate dt).gl = false := by
  simp [OutputStage.regate, h]

theorem OutputStage.request_eq (os : OutputStage) : os.request = if os.blanking then .neither
    else if os.mode = .off then .neither else if os.mode = .lowClamp then .low
    else if os.p < os.cmp then .high else .low := by
  cases hm : os.mode <;> simp [OutputStage.request, requestOf, hm]

/-- Settles O30: `regate` by its two equations, which the one request excludes together. -/
theorem gateRule : Obligations.GateRule := by
  unfold Obligations.GateRule
  intro dt os
  refine ⟨OutputStage.regate_gh_iff, OutputStage.regate_gl_iff, ?both, rfl, rfl, rfl, rfl,
    ⟨rfl, rfl, OutputStage.regate_gh_of_released rfl⟩, fun h => if_pos ?active, fun hgh hgl => if_neg ?inactive,
    os.request_eq⟩
  case both =>
    rw [OutputStage.regate_gh_iff, OutputStage.regate_gl_iff]
    rintro ⟨⟨hhigh, -⟩, hlow, -⟩
    exact Request.noConfusion (hhigh.symm.trans hlow)
  case active => simpa using h
  case inactive => simp [hgh, hgl]

namespace State

/-! ### Commands that name a count of their own (R139, R143) -/

theorem compareMatch_of_run (hs : s.sc.station ≠ .setup) (hm : s.os.mode = .run) (h0 : 0 < s.os.cmp)
    (hl : s.os.cmp < s.pu.length) :
    s.compareMatch = { s with os := ({ s.os.newCount with p := s.os.cmp } : OutputStage).regate s.deadtime } := by
  rw [compareMatch, if_pos (by simp [hs, hm, h0, hl])]
  rfl

theorem deadtimeExpiry_of_inactive (hs : s.sc.station ≠ .setup) (hh : s.os.gh = false) (hl : s.os.gl = false) :
    s.deadtimeExpiry
      = { s with os := ({ s.os.newCount with inactiveRun := s.deadtime } : OutputStage).regate s.deadtime } := by
  rw [deadtimeExpiry, if_neg (by simp [hs, hh, hl])]
  rfl

end State

/-- In RUN without blanking the request goes from high to low where P reaches CMP (R139). -/
theorem request_newCount_at_cmp {os : OutputStage} (hm : os.mode = .run) (hb : os.blanking = false) :
    ({ os.newCount with p := os.cmp } : OutputStage).request = .low := by
  simp [OutputStage.request_eq, OutputStage.newCount, hm, hb]

open State in
/-- Settles O31. -/
theorem compareAndDeadtime : Obligations.CompareAndDeadtime := by
  unfold Obligations.CompareAndDeadtime
  constructor
  · intro s hs hm h0 hl hb
    have hlow := request_newCount_at_cmp hm hb
    refine ⟨_, (exec_compareMatch s).trans (congrArg _ (compareMatch_of_run hs hm h0 hl)), rfl, ?high, fun hgl => ?kept,
      fun hgl => ?waits, rfl, rfl, rfl⟩
    case high =>
      rw [← Bool.not_eq_true, OutputStage.regate_gh_iff, hlow]
      simp
    case kept => exact OutputStage.regate_gl_iff.mpr ⟨hlow, rfl, .inl hgl⟩
    case waits =>
      rw [OutputStage.regate_gl_iff, hlow]
      simp [OutputStage.newCount, hgl]
  · intro s hs hh hl
    refine ⟨_, (exec_deadtimeExpiry s).trans (congrArg _ (deadtimeExpiry_of_inactive hs hh hl)), ?_, ?_, rfl, rfl, rfl, rfl⟩
    · rw [OutputStage.regate_gh_iff]
      exact ⟨fun h => h.1, fun h => ⟨h, rfl, .inr le_rfl⟩⟩
    · rw [OutputStage.regate_gl_iff]
      exact ⟨fun h => h.1, fun h => ⟨h, rfl, .inr le_rfl⟩⟩

/-! ### Events -/

theorem Event.index_injective {e f : Event} (h : e.index = f.index) : e = f := by
  cases e <;> cases f <;> simp_all [Event.index]

namespace State

theorem hasEvent_raise_of_ne {e f : Event} (h : f ≠ e) (s : State) : (s.raise e).hasEvent f = s.hasEvent f := by
  have hindex : f.index ≠ e.index := fun heq => h (Event.index_injective heq)
  simp only [hasEvent, raise, modSp, Event.bit, BitVec.getLsbD_or, BitVec.getLsbD_shiftLeft, BitVec.getLsbD_one]
  simp
  omega

/-! ### The reach test (R125, R130) -/

theorem reachTest_of_no_target (h : s.pu.target = none) :
    s.reachTest = { s with pu := { s.pu with slewing := false } } := by
  simp [reachTest, h, modPu]

theorem reachTest_of_reached {x : Nat} (h : s.pu.target = some x) (hx : s.pu.offset = x) : s.reachTest
    = { s with
        pu := { s.pu with slewing := false }
        sp := { s.sp with events := if s.pu.slewing then s.sp.events ||| Event.placed.bit else s.sp.events } } := by
  simp only [reachTest, h, if_pos hx]
  cases hs : s.pu.slewing <;> simp [doIf, modPu, raise, modSp, h]

theorem reachTest_of_ahead {x : Nat} (h : s.pu.target = some x) (hx : s.pu.offset ≠ x) :
    s.reachTest = { s with pu := { s.pu with slewing := true } } := by
  simp [reachTest, h, if_neg hx, modPu]

/-- The reach test changes the placement state and the event set; PLACED at most is new in it. -/
theorem reachTest_sp (s : State) : s.reachTest.sp = { s.sp with events := s.reachTest.sp.events } := by
  cases h : s.pu.target with
  | none => rw [reachTest_of_no_target h]
  | some x =>
    by_cases hx : s.pu.offset = x
    · rw [reachTest_of_reached h hx]
    · rw [reachTest_of_ahead h hx]

theorem hasEvent_reachTest {e : Event} (he : e ≠ .placed) (s : State) : s.reachTest.hasEvent e = s.hasEvent e := by
  cases h : s.pu.target with
  | none => rw [reachTest_of_no_target h]; rfl
  | some x =>
    by_cases hx : s.pu.offset = x
    · rw [reachTest_of_reached h hx]
      cases s.pu.slewing with
      | false => rfl
      | true => exact hasEvent_raise_of_ne he s
    · rw [reachTest_of_ahead h hx]; rfl

/-! ### A local cycle start (R125, R126, R138 to R142) -/

/-- The Placement Unit where O at the end of the cycle is known: no target, the target reached, and the target ahead. -/
theorem placeCycle_pu_of_no_target (h : s.pu.target = none) : s.placeCycle.pu
    = { s.pu with offset := s.endOffset, slewing := false, step := 0, length := s.period } := by
  simp only [placeCycle]
  rw [reachTest_of_no_target (s := s.modPu _) (by simpa using h)]
  simp [h, period]

theorem placeCycle_pu_of_reached {x : Nat} (h : s.pu.target = some x) (hx : s.endOffset = x) : s.placeCycle.pu
    = { s.pu with offset := s.endOffset, slewing := false, step := 0, length := s.period } := by
  simp only [placeCycle]
  rw [reachTest_of_reached (s := s.modPu _) (x := x) (by simpa using h) (by simpa using hx)]
  simp [h, period]

theorem placeCycle_pu_of_ahead {x : Nat} (h : s.pu.target = some x) (hx : s.endOffset ≠ x) : s.placeCycle.pu
    = { s.pu with
        offset := s.endOffset, slewing := true, step := slewStepOf s.period s.slewStep s.endOffset x
        length := ((s.period : Int) + slewStepOf s.period s.slewStep s.endOffset x).toNat } := by
  simp only [placeCycle]
  rw [reachTest_of_ahead (s := s.modPu _) (x := x) (by simpa using h) (by simpa using hx)]
  simp [h, period, slewStep]

/-- Every cycle has the length of the period and its step (R122). -/
theorem placeCycle_length (s : State) : s.placeCycle.pu.length = ((s.period : Int) + s.placeCycle.pu.step).toNat := by
  simp [placeCycle, period]

theorem placeCycle_offset (s : State) : s.placeCycle.pu.offset = s.endOffset := by simp [placeCycle]

theorem placeCycle_sp (s : State) : s.placeCycle.sp = { s.sp with events := s.placeCycle.sp.events } := by
  simp only [placeCycle, modPu_sp]
  exact reachTest_sp _

theorem hasEvent_placeCycle {e : Event} (he : e ≠ .placed) (s : State) : s.placeCycle.hasEvent e = s.hasEvent e :=
  hasEvent_reachTest he _

theorem hasEvent_placed_placeCycle {x : Nat} (h : s.pu.target = some x) (hx : s.endOffset = x)
    (hs : s.pu.slewing = true) : s.placeCycle.hasEvent .placed = true := by
  simp only [hasEvent, placeCycle, modPu_sp]
  rw [reachTest_of_reached (s := s.modPu _) (x := x) (by simpa using h) (by simpa using hx)]
  simp [hs, Event.bit, Event.index]

/-- The state in which CLAMP is judged: everything else of the start is done (R141). -/
def cycleLatched (s : State) : State := s.placeCycle.latchCompare.enterRun

theorem chosenMode_placeCycle_latchCompare (s : State) : s.placeCycle.latchCompare.chosenMode = s.chosenMode :=
  chosenMode_congr (isMember_congr (by simp)) (by simp)
    (fun i => congrArg _ (inputRecord_congr (by simp) (by simp) (by simp) i)) (by simp) (by simp)

theorem cycleLatched_mode (s : State) : s.cycleLatched.os.mode = if s.chosenMode = .run then .run else s.os.mode := by
  rw [cycleLatched, enterRun, chosenMode_placeCycle_latchCompare]
  split <;> simp

theorem cycleLatched_cmp (s : State) : s.cycleLatched.os.cmp
    = adjustCompare (min (compareOf s.cq.duty s.period) (compareOf s.dutyMax s.period)) s.period s.placeCycle.pu.length
        s.minPulse := by
  simp [cycleLatched, latchCompare, period, dutyMax, minPulse]

theorem cycleLatched_clampFlag (s : State) : s.cycleLatched.os.clampFlag
    = decide (compareOf s.dutyMax s.period < compareOf s.cq.duty s.period) := by
  simp [cycleLatched, latchCompare, period, dutyMax]
  rfl

theorem clampEvent_of_not_run (h : s.os.mode ≠ .run) : s.clampEvent = s := by simp [clampEvent, h]

theorem clampEvent_of_unclamped (h : s.os.mode = .run) (hf : s.os.clampFlag = false) :
    s.clampEvent = s.modOs fun os => { os with clampRecord := none } := by simp [clampEvent, h, hf]

theorem clampEvent_of_recorded (h : s.os.mode = .run) (hf : s.os.clampFlag = true)
    (hr : s.os.clampRecord = some s.cq.duty) : s.clampEvent = s := by simp [clampEvent, h, hf, hr]

theorem clampEvent_of_new (h : s.os.mode = .run) (hf : s.os.clampFlag = true) (hr : s.os.clampRecord ≠ some s.cq.duty) :
    s.clampEvent = (s.modOs fun os => { os with clampRecord := some s.cq.duty }).raise .clamp := by
  simp [clampEvent, h, hf, hr]

theorem clampEvent_sp (s : State) : s.clampEvent.sp = { s.sp with events := s.clampEvent.sp.events } := by
  unfold clampEvent
  split_ifs <;> rfl

theorem cycleStart_eq (e : Bool) (s : State) : s.cycleStart e = (s.cycleLatched.clampEvent.modOs fun os =>
    { os with p := 0, blanking := os.blanking && !e }).regate := rfl

theorem cycleStart_sp (e : Bool) (s : State) : (s.cycleStart e).sp = s.cycleLatched.clampEvent.sp := by
  simp [cycleStart_eq]

theorem cycleStart_reads_cmp (e : Bool) (s : State) : (s.cycleStart e).os.cmp = s.cycleLatched.os.cmp := by
  simp [cycleStart_eq]

theorem cycleStart_reads_mode (e : Bool) (s : State) : (s.cycleStart e).os.mode = s.cycleLatched.os.mode := by
  simp [cycleStart_eq]

theorem cycleStart_reads_clampFlag (e : Bool) (s : State) :
    (s.cycleStart e).os.clampFlag = s.cycleLatched.os.clampFlag := by simp [cycleStart_eq]

theorem hasEvent_cycleStart (e : Bool) (f : Event) (s : State) :
    (s.cycleStart e).hasEvent f = s.cycleLatched.clampEvent.hasEvent f := by
  simp only [hasEvent, cycleStart_sp]

theorem cycleLatched_sp (s : State) : s.cycleLatched.sp = s.placeCycle.sp := by simp [cycleLatched]

/-- CLAMP with its record at a start in RUN (R141), by the clamp record before. -/
theorem cycleStart_clamp (e : Bool) (s : State) :
    ((s.cycleStart e).os.mode ≠ .run → (s.cycleStart e).os.clampRecord = s.os.clampRecord
        ∧ (s.cycleStart e).hasEvent .clamp = s.hasEvent .clamp)
      ∧ ((s.cycleStart e).os.mode = .run → (s.cycleStart e).os.clampFlag = false →
          (s.cycleStart e).os.clampRecord = none ∧ (s.cycleStart e).hasEvent .clamp = s.hasEvent .clamp)
      ∧ ((s.cycleStart e).os.mode = .run → (s.cycleStart e).os.clampFlag = true →
          (s.cycleStart e).os.clampRecord = some s.cq.duty
          ∧ (s.os.clampRecord = some s.cq.duty → (s.cycleStart e).hasEvent .clamp = s.hasEvent .clamp)
          ∧ (s.os.clampRecord ≠ some s.cq.duty → (s.cycleStart e).hasEvent .clamp = true)) := by
  have hafter : (s.cycleStart e).os.clampRecord = s.cycleLatched.clampEvent.os.clampRecord := by simp [cycleStart_eq]
  have hbefore : s.cycleLatched.os.clampRecord = s.os.clampRecord := by simp [cycleLatched]
  have hduty : s.cycleLatched.cq.duty = s.cq.duty := by simp [cycleLatched]
  have hold : s.cycleLatched.hasEvent .clamp = s.hasEvent .clamp := by
    simp only [hasEvent, cycleLatched_sp]
    exact hasEvent_placeCycle (by decide) s
  rw [cycleStart_reads_mode, cycleStart_reads_clampFlag, hafter, hasEvent_cycleStart, ← hold, ← hbefore, ← hduty]
  generalize s.cycleLatched = u
  refine ⟨fun hm => ?_, fun hm hf => ?_, fun hm hf => ?_⟩
  · rw [clampEvent_of_not_run hm]; exact ⟨rfl, rfl⟩
  · rw [clampEvent_of_unclamped hm hf]; exact ⟨rfl, rfl⟩
  · by_cases hr : u.os.clampRecord = some u.cq.duty
    · rw [clampEvent_of_recorded hm hf hr]; exact ⟨hr, fun _ => rfl, fun h => absurd hr h⟩
    · rw [clampEvent_of_new hm hf hr]; exact ⟨rfl, fun h => absurd h hr, fun _ => hasEvent_raise_same ..⟩

/-- Nothing in a local cycle start reads what a new count of the Output Stage changes. -/
theorem chosenMode_modOs (f : OutputStage → OutputStage) (s : State) : (s.modOs f).chosenMode = s.chosenMode :=
  chosenMode_congr rfl rfl (fun i => congrArg _ (inputRecord_congr rfl rfl rfl i)) rfl rfl

theorem localCycleStart_of_started (hs : s.sc.station ≠ .setup) :
    s.localCycleStart = (s.modOs .newCount).cycleStart true := if_neg hs

end State

open State in
/-- Settles O27, from the placement and the compare of the cycle that starts. -/
theorem localCycleStart : Obligations.LocalCycleStart := by
  unfold Obligations.LocalCycleStart
  intro s hs
  refine ⟨_, (exec_localCycleStart s).trans (congrArg _ (localCycleStart_of_started hs)), ?_⟩
  obtain ⟨hstill, hunclamped, hclamped⟩ := cycleStart_clamp true (s.modOs .newCount)
  refine ⟨by simp, by simp, by simp, ?offset, fun h => ?none, fun x h hx => ?reached, fun x h hx => ?ahead, ?length, ?cmp,
    ?flag, ?mode, hstill, hunclamped, hclamped, by simp, by simp, by simp, by simp, by simp, by simp, ?sp, ?events⟩
  case offset => rw [cycleStart_pu, placeCycle_offset]; rfl
  case none => rw [cycleStart_pu, placeCycle_pu_of_no_target (s := s.modOs _) h]; exact ⟨rfl, rfl⟩
  case reached =>
    rw [cycleStart_pu, placeCycle_offset] at hx
    rw [cycleStart_pu, placeCycle_pu_of_reached (s := s.modOs _) h hx]
    refine ⟨rfl, rfl, fun hslew => ?_⟩
    exact (steady_modOs_regate (steady_clampEvent (steady_enterRun (steady_latchCompare (Steady.rfl' (w := true)))))).hasEvent
      (hasEvent_placed_placeCycle (s := s.modOs _) h hx hslew)
  case ahead =>
    rw [cycleStart_pu, placeCycle_offset] at hx
    rw [cycleStart_pu, placeCycle_pu_of_ahead (s := s.modOs _) h hx]
    exact ⟨rfl, rfl⟩
  case length => rw [cycleStart_pu, placeCycle_length]; rfl
  case cmp =>
    rw [cycleStart_reads_cmp, cycleLatched_cmp, cycleStart_pu]
    rfl
  case flag =>
    rw [cycleStart_reads_clampFlag, cycleLatched_clampFlag]
    rfl
  case mode =>
    rw [cycleStart_reads_mode, cycleLatched_mode, chosenMode_modOs]
    rfl
  case sp =>
    rw [cycleStart_sp, clampEvent_sp, cycleLatched_sp, placeCycle_sp]
    rfl
  case events => exact (steady_cycleStart (e := true) (Steady.rfl' (w := true) (a := s.modOs .newCount))).events

/-! ### The step of a slewing cycle (R126) -/

/-- The shorter way from an offset to a target around the period, forward at half of it. -/
def shorterWay (period offset target : Nat) : Int :=
  if (period : Int) < 2 * (((target : Int) - offset) % period) then ((target : Int) - offset) % period - period
  else ((target : Int) - offset) % period

theorem slewStepOf_eq (period slew offset target : Nat) :
    slewStepOf period slew offset target = max (-(slew : Int)) (min slew (shorterWay period offset target)) := rfl

theorem shorterWay_spec {period : Nat} (hp : 0 < period) (offset target : Nat) :
    shorterWay period offset target % period = ((target : Int) - offset) % period
      ∧ -(period : Int) < 2 * shorterWay period offset target ∧ 2 * shorterWay period offset target ≤ period := by
  have hpos : (0 : Int) < period := by omega
  have hlow := Int.emod_nonneg ((target : Int) - offset) hpos.ne'
  have hhigh := Int.emod_lt_of_pos ((target : Int) - offset) hpos
  unfold shorterWay
  split
  · refine ⟨by simp, ?_, ?_⟩ <;> omega
  · refine ⟨by simp, ?_, ?_⟩ <;> omega

/-! ### Targets (R68, R123, R128 to R130) -/

namespace State

theorem slotOf_own (hs : s.ownEntry.state = .active) (hk : s.ownEntry.kind = .phase) :
    ∃ slot, slotOf s.rt.entries s.ownId = some slot := by
  rw [slotOf, if_pos]
  · exact ⟨_, rfl⟩
  · exact holdsSlot_iff.mpr ⟨hs, hk⟩

theorem slotOf_own_eq_none (h : s.ownEntry.state ≠ .active ∨ s.ownEntry.kind ≠ .phase) :
    slotOf s.rt.entries s.ownId = none := by
  rw [slotOf, if_neg]
  rw [holdsSlot_iff]
  exact fun hboth => h.elim (absurd hboth.1) (absurd hboth.2)

theorem targetNow_of_slot {slot : Nat} (hg : s.isMember = true ∨ s.isFollower = true)
    (h : slotOf s.rt.entries s.ownId = some slot) :
    s.targetNow = some (slot * s.period / phaseCount s.rt.entries) := by
  rw [targetNow, if_pos (by simpa [mayHaveTarget] using hg), h]
  rfl

theorem targetNow_eq_none (h : s.isMember = false ∧ s.isFollower = false ∨ slotOf s.rt.entries s.ownId = none) :
    s.targetNow = none := by
  obtain ⟨hm, hf⟩ | h := h
  · simp [targetNow, mayHaveTarget, hm, hf]
  · simp [targetNow, h]

theorem recomputeTarget_of_same (h : s.targetNow = s.pu.target) : s.recomputeTarget = s := by
  rw [recomputeTarget, if_pos h]

theorem recomputeTarget_of_lost (h : s.targetNow = none) :
    s.recomputeTarget = { s with pu := { s.pu with target := none } } := by
  by_cases hsame : s.targetNow = s.pu.target
  · have hkept : { s.pu with target := none } = s.pu := by rw [← h, hsame]
    rw [recomputeTarget_of_same hsame, hkept]
  · rw [recomputeTarget, if_neg hsame, h]
    rfl

/-- A new target in RUN without blanking is a retarget (R128). -/
theorem recomputeTarget_of_retarget {old new : Nat} (hold : s.pu.target = some old) (hnew : s.targetNow = some new)
    (hne : old ≠ new) (hm : s.os.mode = .run) (hb : s.os.blanking = false) : s.recomputeTarget = s.retargetTo new := by
  have hdiff : some new ≠ some old := fun h => hne (Option.some.inj h).symm
  simp [recomputeTarget, hnew, hold, hdiff, hm, hb]

theorem retargetTo_of_reached {new : Nat} (ho : s.pu.offset = new) (hs : s.pu.step = 0) : s.retargetTo new
    = { s with
        pu := { s.pu with target := some new, slewing := false }
        sp := { s.sp with events := if s.pu.slewing then s.sp.events ||| Event.placed.bit else s.sp.events } } := by
  cases hslew : s.pu.slewing <;> simp [retargetTo, ho, hs, doIf, modPu, raise, modSp, hslew]

theorem retargetTo_of_ahead {new : Nat} (h : s.pu.offset ≠ new ∨ s.pu.step ≠ 0) :
    s.retargetTo new = { s with pu := { s.pu with target := some new, slewing := true } } := by
  rw [retargetTo, if_neg]
  · rfl
  · simp only [Bool.and_eq_true, decide_eq_true_eq]
    exact fun hboth => h.elim (absurd hboth.1) (absurd hboth.2)

/-- A new target in any other case is a jump (R129). -/
theorem recomputeTarget_of_jump {new : Nat} (hnew : s.targetNow = some new) (hne : s.pu.target ≠ some new)
    (h : s.os.mode ≠ .run ∨ s.os.blanking = true ∨ s.pu.target = none) : s.recomputeTarget = s.jumpTo new := by
  have hcond : (decide (s.os.mode = .run) && !s.os.blanking && s.pu.target.isSome) = false := by
    obtain h | h | h := h <;> simp [h]
  simp only [recomputeTarget, hnew, if_neg hne.symm, hcond]
  rfl

theorem jumpTo_eq (new : Nat) (s : State) : s.jumpTo new
    = { s with
        pu := ⟨some new, new, false, 0, s.period⟩
        os := OutputStage.regate s.deadtime
          { s.os with p := (s.tb.b + s.period - new) % s.period, anchored := true }
        sp := { s.sp with events := s.sp.events ||| Event.placed.bit } } := rfl

/-! ### Re-anchoring (R127) -/

/-- The cycle in progress ended where it stands. -/
def atEnd (s : State) : State := s.modPu fun pu => { pu with offset := s.endOffset }

theorem reachTest_frame (s : State) : ∃ pu ev, s.reachTest = { s with pu := pu, sp := { s.sp with events := ev } } := by
  cases h : s.pu.target with
  | none => exact ⟨_, _, reachTest_of_no_target h⟩
  | some x =>
    by_cases hx : s.pu.offset = x
    · exact ⟨_, _, reachTest_of_reached h hx⟩
    · exact ⟨_, _, reachTest_of_ahead h hx⟩

theorem reanchor_eq (s : State) : s.reanchor = { s with
    pu := { s.atEnd.reachTest.pu with step := 0, length := s.period }
    os := OutputStage.regate s.deadtime { s.os with p := (s.tb.b + s.period - s.endOffset) % s.period, anchored := true }
    sp := s.atEnd.reachTest.sp } := by
  obtain ⟨pu, ev, h⟩ := reachTest_frame s.atEnd
  rw [reanchor, ← atEnd, h]
  rfl

theorem reanchor_pu (s : State) : s.reanchor.pu
    = ⟨s.pu.target, s.endOffset, s.pu.target.elim false fun x => decide (x ≠ s.endOffset), 0, s.period⟩ := by
  rw [reanchor_eq]
  cases h : s.pu.target with
  | none => rw [reachTest_of_no_target (s := s.atEnd) h]; simp [atEnd, h]
  | some x =>
    by_cases hx : s.endOffset = x
    · rw [reachTest_of_reached (s := s.atEnd) h hx]; simp [atEnd, h, hx]
    · rw [reachTest_of_ahead (s := s.atEnd) h hx]; simp [atEnd, h, Ne.symm hx]

end State

open State in
/-- Settles O29. -/
theorem slewStepChoice : Obligations.SlewStepChoice := by
  unfold Obligations.SlewStepChoice
  refine ⟨fun period slew offset target hp ho ht => ?step, by decide, by decide, by decide, by decide, by decide,
    fun s => ⟨fun hg hs hk => ?slot, fun h => ?noSlot⟩,
    fun s => ⟨recomputeTarget_of_same, recomputeTarget_of_lost, fun old new hold hnew hne hm hb => ?retarget,
      fun new hnew hne h => (recomputeTarget_of_jump hnew hne h).trans (jumpTo_eq new s)⟩,
    fun s => ⟨reanchor_pu s, ?os, ?frame, ?sp, fun h hslew => ?placed⟩⟩
  case step =>
    obtain ⟨hmod, hlow, hhigh⟩ := shorterWay_spec hp offset target
    refine ⟨_, hmod, hlow, hhigh, slewStepOf_eq .., ?_, ?_⟩ <;> rw [slewStepOf_eq] <;> omega
  case slot =>
    obtain ⟨slot, hslot⟩ := slotOf_own hs hk
    exact ⟨slot, hslot, targetNow_of_slot hg hslot⟩
  case noSlot => exact targetNow_eq_none (h.imp_right slotOf_own_eq_none)
  case retarget =>
    rw [recomputeTarget_of_retarget hold hnew hne hm hb]
    exact ⟨retargetTo_of_reached, retargetTo_of_ahead⟩
  case os =>
    rw [reanchor_eq]
    rfl
  case frame => rw [reanchor_eq]
  case sp =>
    rw [reanchor_eq]
    exact reachTest_sp s.atEnd
  case placed =>
    simp only [hasEvent, reanchor_eq]
    rw [reachTest_of_reached (s := s.atEnd) h rfl]
    simp [atEnd, hslew, Event.bit, Event.index]

end Sys2Proof.Machine
end

section
/-! The tests of the Fault Unit and the half-cycle point (R148, R156 to R159, R165 to R167): each test by its conditions and
by what it offers, and the latches that a half-cycle point clears. -/

namespace Sys2Proof.Machine

variable {s t : State}

namespace State

/-! ### Latches and pending proposals as quantified statements -/

theorem mem_allInputs (i : InputNo) : i ∈ allInputs := by cases i <;> decide

theorem classLatched_iff {c : InputClass} :
    s.classLatched c = true ↔ ∃ i, (s.inputRecord i).latched = true ∧ (s.input i).cls = c := by
  rw [classLatched, List.any_eq_true]
  simp [mem_allInputs]

theorem classLatched_eq_false_iff {c : InputClass} :
    s.classLatched c = false ↔ ∀ i, (s.inputRecord i).latched = true → (s.input i).cls ≠ c := by
  rw [← Bool.not_eq_true, classLatched_iff]
  simp

theorem admitPending_eq_false_iff {k : StationId} : s.admitPending k = false
    ↔ ∀ e ∈ s.cq.entries, e.target = k → ∀ fp kind, e.content ≠ .admission fp kind := by
  rw [admitPending, List.any_eq_false]
  refine forall₂_congr fun e he => ?_
  cases e.content <;> simp

theorem removePending_eq_false_iff {k : StationId} : s.removePending k = false
    ↔ ∀ e ∈ s.cq.entries, e.target = k → ∀ i r, e.content ≠ .remove i r := by
  rw [removePending, List.any_eq_false]
  refine forall₂_congr fun e he => ?_
  cases e.content <;> simp

theorem shedPending_eq_false_iff {k : StationId} : s.shedPending k = false
    ↔ ∀ e ∈ s.cq.entries, e.target = k → e.content ≠ .shed := by
  rw [shedPending, List.any_eq_false]
  simp

theorem hasQueued_eq_false_iff {test : QueuedBody → Bool} :
    s.hasQueued test = false ↔ ∀ y ∈ s.bi.queue, test y.body = false := by
  simp [hasQueued, List.any_eq_false]

/-- No standing of a station is to change: no ADMIT, REMOVE or SHED of it is pending (R116). -/
theorem noStandingPending_iff {k : StationId} :
    (s.admitPending k = false ∧ s.shedPending k = false ∧ s.removePending k = false)
      ↔ ∀ e ∈ s.cq.entries, e.target = k → e.content.changesStanding = false := by
  rw [admitPending_eq_false_iff, shedPending_eq_false_iff, removePending_eq_false_iff]
  constructor
  · rintro ⟨hadmit, hshed, hremove⟩ e he hk
    rw [← Bool.not_eq_true, changesStanding_iff]
    rintro (h | ⟨fp, kind, h⟩ | ⟨i, r, h⟩)
    · exact hshed e he hk h
    · exact hadmit e he hk fp kind h
    · exact hremove e he hk i r h
  · intro hnone
    have hno {e : QueueEntry} (he : e ∈ s.cq.entries) (hk : e.target = k) : ¬ e.content.changesStanding = true := by
      simp [hnone e he hk]
    refine ⟨fun e he hk fp kind h => ?_, fun e he hk h => ?_, fun e he hk i r h => ?_⟩ <;>
      exact hno he hk (by rw [h]; rfl)

/-! ### The readmission test (R166) -/

theorem readmissionTestPassed_iff : s.readmissionTestPassed = true ↔ s.sc.station = .member ∧ s.ownEntry.state = .shed
    ∧ (∀ i, (s.inputRecord i).latched = true → (s.input i).cls ≠ .shed) ∧ s.fu.readmitFrame = none
    ∧ ∀ e ∈ s.cq.entries, e.target = s.ownId → e.content.changesStanding = false := by
  rw [← classLatched_eq_false_iff, ← noStandingPending_iff]
  simp only [readmissionTestPassed, Bool.and_eq_true, decide_eq_true_eq, Bool.not_eq_true', Option.isNone_iff_eq_none]
  tauto

theorem readmissionTest_of_failed (h : s.readmissionTestPassed = false ∨ 6 ≤ s.bi.queue.length) :
    s.readmissionTest = s := by
  rw [readmissionTest]
  split
  next hpassed =>
    have hfull := h.resolve_left (by simp [hpassed])
    rw [offerPropose_of_full _ hfull]
    rfl
  next => rfl

theorem readmissionTest_of_passed (h : s.readmissionTestPassed = true) (hq : s.bi.queue.length < 6) :
    s.readmissionTest = (s.proposed s.admitContent).modFu fun fu => { fu with readmitFrame := some s.nextId } := by
  rw [readmissionTest, if_pos h, offerPropose_of_room _ hq]
  rfl

/-- The readmission test that is passed where there is room (R166). -/
theorem readmissionTest_proposes (h : s.readmissionTestPassed = true) (hq : s.bi.queue.length < 6) :
    s.readmissionTest.bi = { s.bi with
        queue := insertFrame ⟨.propose s.cq.nextSeq (.admission s.sp.fingerprint s.ownKind), 0, false⟩ s.bi.queue }
      ∧ s.readmissionTest.cq = { s.cq with nextSeq := s.cq.nextSeq + 1 }
      ∧ s.readmissionTest.fu.readmitFrame = some ⟨s.ownId, s.cq.nextSeq⟩ := by
  rw [readmissionTest_of_passed h hq]
  simp [admitContent, nextId]

/-! ### The shed test (R165) -/

theorem shedTestPassed_iff : s.shedTestPassed = true ↔ s.sc.station = .member ∧ s.ownEntry.state = .active
    ∧ s.ownEntry.kind = .phase ∧ (∃ i, (s.inputRecord i).latched = true ∧ (s.input i).cls = .shed)
    ∧ (∀ e ∈ s.cq.entries, e.target = s.ownId → e.content ≠ .shed ∧ ∀ k r, e.content ≠ .remove k r)
    ∧ s.fu.shedFrame = none ∧ ∀ y ∈ s.bi.queue, y.body.isRemoveOf s.ownId = false := by
  have hpending : (∀ e ∈ s.cq.entries, e.target = s.ownId → e.content ≠ .shed ∧ ∀ k r, e.content ≠ .remove k r)
      ↔ s.shedPending s.ownId = false ∧ s.removePending s.ownId = false := by
    rw [shedPending_eq_false_iff, removePending_eq_false_iff]
    exact ⟨fun h => ⟨fun e he hk => (h e he hk).1, fun e he hk => (h e he hk).2⟩,
      fun h e he hk => ⟨h.1 e he hk, h.2 e he hk⟩⟩
  rw [hpending, ← classLatched_iff, ← hasQueued_eq_false_iff, ← and_assoc (a := s.ownEntry.state = _), ← holdsSlot_iff]
  simp only [shedTestPassed, Bool.and_eq_true, decide_eq_true_eq, Bool.not_eq_true', Option.isNone_iff_eq_none]
  tauto

theorem shedTest_of_failed (h : s.shedTestPassed = false ∨ 6 ≤ s.bi.queue.length) : s.shedTest = s := by
  rw [shedTest]
  split
  next hpassed =>
    have hfull := h.resolve_left (by simp [hpassed])
    rw [offerPropose_of_full _ hfull]
    rfl
  next => rfl

theorem shedTest_of_passed (h : s.shedTestPassed = true) (hq : s.bi.queue.length < 6) :
    s.shedTest = (s.proposed .shed).modFu fun fu => { fu with shedFrame := some s.nextId } := by
  rw [shedTest, if_pos h, offerPropose_of_room _ hq]
  rfl

theorem shedTest_proposes (h : s.shedTestPassed = true) (hq : s.bi.queue.length < 6) :
    s.shedTest.bi = { s.bi with queue := insertFrame ⟨.propose s.cq.nextSeq .shed, 0, false⟩ s.bi.queue }
      ∧ s.shedTest.cq = { s.cq with nextSeq := s.cq.nextSeq + 1 }
      ∧ s.shedTest.fu.shedFrame = some ⟨s.ownId, s.cq.nextSeq⟩ := by
  rw [shedTest_of_passed h hq]
  simp [nextId]

/-! ### The withdrawal test (R167) -/

theorem withdrawalTest_of_no_admit (h : s.ownAdmit = none) : s.withdrawalTest = s := by
  simp only [withdrawalTest, h]

theorem withdrawalTest_of_failed {e : QueueEntry} (he : s.ownAdmit = some e)
    (h : s.sc.station ≠ .joining ∧ s.sc.station ≠ .member ∨ s.classLatched .shed = false ∨ e.phase = .firm
      ∨ s.withdrawalQueued e.id = true ∨ 6 ≤ s.bi.queue.length) : s.withdrawalTest = s := by
  simp only [withdrawalTest, he]
  split
  next hpassed =>
    simp only [Bool.and_eq_true, Bool.or_eq_true, decide_eq_true_eq, Bool.not_eq_true'] at hpassed
    obtain ⟨⟨⟨hstation, hlatched⟩, hopen⟩, hqueued⟩ := hpassed
    obtain ⟨hj, hm⟩ | h | h | h | hfull := h
    · exact absurd hstation (not_or.mpr ⟨hj, hm⟩)
    · simp [hlatched] at h
    · simp [hopen] at h
    · simp [hqueued] at h
    · rw [offer_of_full _ hfull]
      rfl
  next => rfl

theorem withdrawalTest_of_passed {e : QueueEntry} (he : s.ownAdmit = some e)
    (hs : s.sc.station = .joining ∨ s.sc.station = .member) (hl : s.classLatched .shed = true)
    (hp : e.phase = .openPhase) (hw : s.withdrawalQueued e.id = false) (hq : s.bi.queue.length < 6) :
    s.withdrawalTest = s.offered (.object e.id .withdrawn) := by
  simp only [withdrawalTest, he]
  rw [if_pos (by simp [hs, hl, hp, hw]), offer_of_room _ hq]
  rfl

/-! ### One input at a half-cycle point (R156, R158, R159) -/

theorem clearsAtPoint_iff {i : InputNo} : s.clearsAtPoint i = true ↔ (s.inputRecord i).latched = true
    ∧ (s.inputRecord i).active = false ∧ ((s.input i).manual = false ∨ (s.inputRecord i).ackArmed = true) := by
  simp [clearsAtPoint, and_assoc]

/-- The latch of an input cleared, with FAULT_OFF (R156, R159). -/
def unlatched (i : InputNo) (s : State) : State :=
  (s.modInput i fun r => { r with latched := false, ackArmed := false }).raise .faultOff

theorem pointForInput_of_stays {i : InputNo} (h : s.clearsAtPoint i = false) : s.pointForInput i = s := by
  simp [pointForInput, h]

theorem pointForInput_of_clears {i : InputNo} (h : s.clearsAtPoint i = true) :
    s.pointForInput i = (s.unlatched i).doIf ((s.input i).cls = .shed) readmissionTest := by
  simp [pointForInput, h, unlatched]

@[simp] theorem unlatched_kept (i : InputNo) (s : State) : (s.unlatched i).sc = s.sc ∧ (s.unlatched i).tb = s.tb
    ∧ (s.unlatched i).bi = s.bi ∧ (s.unlatched i).rt = s.rt ∧ (s.unlatched i).cq = s.cq
    ∧ (s.unlatched i).fu.tripSet = s.fu.tripSet ∧ (s.unlatched i).fu.readmitFrame = s.fu.readmitFrame
    ∧ (s.unlatched i).sp.record = s.sp.record ∧ (s.unlatched i).sp.tickets = s.sp.tickets
    ∧ (s.unlatched i).sp.fingerprint = s.sp.fingerprint := by
  simp [unlatched]

theorem inputRecord_unlatched_same (i : InputNo) (s : State) :
    (s.unlatched i).inputRecord i = { s.inputRecord i with latched := false, ackArmed := false } := by
  rw [unlatched, inputRecord_raise, inputRecord_modInput_same]

theorem inputRecord_unlatched_ne {i j : InputNo} (h : j ≠ i) (s : State) :
    (s.unlatched i).inputRecord j = s.inputRecord j := by
  rw [unlatched, inputRecord_raise, inputRecord_modInput_ne _ _ h]

theorem inputRecord_readmissionTest (s : State) (i : InputNo) :
    s.readmissionTest.inputRecord i = s.inputRecord i := inputRecord_congr (by simp) (by simp) (by simp) i

/-- The record of an input after a half-cycle point (R156, R158). -/
def recordAfterPoint (s : State) (i : InputNo) : InputRecord :=
  if s.clearsAtPoint i then { s.inputRecord i with latched := false, ackArmed := false } else s.inputRecord i

theorem inputRecord_doIf_readmissionTest (c : Bool) (s : State) (i : InputNo) :
    (s.doIf c readmissionTest).inputRecord i = s.inputRecord i := by
  cases c
  · rfl
  · exact inputRecord_readmissionTest s i

theorem inputRecord_pointForInput_same (s : State) (i : InputNo) :
    (s.pointForInput i).inputRecord i = s.recordAfterPoint i := by
  rw [recordAfterPoint]
  split
  next h => rw [pointForInput_of_clears h, inputRecord_doIf_readmissionTest, inputRecord_unlatched_same]
  next h => rw [pointForInput_of_stays (by simpa using h)]

theorem inputRecord_pointForInput_ne {i j : InputNo} (h : j ≠ i) (s : State) :
    (s.pointForInput i).inputRecord j = s.inputRecord j := by
  cases hc : s.clearsAtPoint i with
  | true => rw [pointForInput_of_clears hc, inputRecord_doIf_readmissionTest, inputRecord_unlatched_ne h]
  | false => rw [pointForInput_of_stays hc]

@[simp] theorem pointForInput_kept (s : State) (i : InputNo) : (s.pointForInput i).sc = s.sc
    ∧ (s.pointForInput i).tb = s.tb ∧ (s.pointForInput i).rt = s.rt ∧ (s.pointForInput i).cq.entries = s.cq.entries
    ∧ (s.pointForInput i).cq.duty = s.cq.duty ∧ (s.pointForInput i).fu.tripSet = s.fu.tripSet
    ∧ (s.pointForInput i).sp.record = s.sp.record ∧ (s.pointForInput i).sp.tickets = s.sp.tickets
    ∧ (s.pointForInput i).sp.fingerprint = s.sp.fingerprint := by
  cases hc : s.clearsAtPoint i with
  | true => simp [pointForInput_of_clears hc]
  | false => simp [pointForInput_of_stays hc]

theorem input_congr (h : t.sp.record = s.sp.record) (i : InputNo) : t.input i = s.input i := by simp only [input, h]

theorem clearsAtPoint_congr {i : InputNo} (hr : t.inputRecord i = s.inputRecord i) (h : t.sp.record = s.sp.record) :
    t.clearsAtPoint i = s.clearsAtPoint i := by
  simp only [clearsAtPoint, hr, input_congr h]

/-! ### All inputs at a half-cycle point -/

/-- The inputs of a list at a half-cycle point, one after the other. -/
def pointFor (l : List InputNo) (s : State) : State := l.foldl pointForInput s

theorem pointFor_cons (i : InputNo) (l : List InputNo) (s : State) :
    pointFor (i :: l) s = pointFor l (s.pointForInput i) := rfl

theorem halfPoint_eq (s : State) : s.halfPoint = (pointFor allInputs s).settle := rfl

@[simp] theorem pointFor_kept (l : List InputNo) (s : State) : (pointFor l s).sc = s.sc
    ∧ (pointFor l s).tb = s.tb ∧ (pointFor l s).rt = s.rt ∧ (pointFor l s).cq.entries = s.cq.entries
    ∧ (pointFor l s).cq.duty = s.cq.duty ∧ (pointFor l s).fu.tripSet = s.fu.tripSet
    ∧ (pointFor l s).sp.record = s.sp.record ∧ (pointFor l s).sp.tickets = s.sp.tickets := by
  induction l generalizing s with
  | nil => simp [pointFor]
  | cons i l ih => simp [pointFor_cons, ih]

theorem recordAfterPoint_congr {i : InputNo} (hr : t.inputRecord i = s.inputRecord i) (h : t.sp.record = s.sp.record) :
    t.recordAfterPoint i = s.recordAfterPoint i := by
  rw [recordAfterPoint, recordAfterPoint, hr, clearsAtPoint_congr hr h]

/-- Each input of the list is cleared as it stood, whatever went before it; the others stay. -/
theorem inputRecord_pointFor {l : List InputNo} (hl : l.Nodup) (s : State) (i : InputNo) :
    (pointFor l s).inputRecord i = if i ∈ l then s.recordAfterPoint i else s.inputRecord i := by
  induction l generalizing s with
  | nil => rfl
  | cons j l ih =>
    rw [List.nodup_cons] at hl
    rw [pointFor_cons, ih hl.2]
    by_cases hij : i = j
    · subst hij
      simp [hl.1, inputRecord_pointForInput_same]
    · have hr := inputRecord_pointForInput_ne hij s
      rw [recordAfterPoint_congr hr (by simp), hr]
      simp [hij]

theorem hasEvent_faultOff_pointFor {l : List InputNo} (hl : l.Nodup) (s : State) {i : InputNo} (hi : i ∈ l)
    (hc : s.clearsAtPoint i = true) : (pointFor l s).hasEvent .faultOff = true := by
  induction l generalizing s with
  | nil => cases hi
  | cons j l ih =>
    rw [List.nodup_cons] at hl
    rw [pointFor_cons]
    obtain rfl | hi := List.mem_cons.mp hi
    · rw [pointForInput_of_clears hc]
      exact (steady_foldl (fun _ _ => steady_pointForInput Steady.rfl') l
        (steady_doIf (Steady.rfl' (w := true)) (steady_readmissionTest .rfl'))).hasEvent (hasEvent_raise_same ..)
    · have hij : i ≠ j := fun h => hl.1 (h ▸ hi)
      refine ih hl.2 _ hi ?_
      rw [clearsAtPoint_congr (inputRecord_pointForInput_ne hij s) (by simp), hc]

/-- An input that holds no latch of class SHED offers nothing. -/
theorem pointForInput_offers_nothing {i : InputNo}
    (h : ¬((s.inputRecord i).latched = true ∧ (s.input i).cls = .shed)) : (s.pointForInput i).bi = s.bi
      ∧ (s.pointForInput i).cq = s.cq ∧ (s.pointForInput i).fu.readmitFrame = s.fu.readmitFrame := by
  cases hc : s.clearsAtPoint i with
  | true =>
    have hcls : decide ((s.input i).cls = .shed) = false :=
      decide_eq_false fun hcls => h ⟨(clearsAtPoint_iff.mp hc).1, hcls⟩
    simp [pointForInput_of_clears hc, hcls]
  | false => simp [pointForInput_of_stays hc]

theorem pointFor_offers_nothing {l : List InputNo} (hl : l.Nodup)
    (h : ∀ i ∈ l, ¬((s.inputRecord i).latched = true ∧ (s.input i).cls = .shed)) : (pointFor l s).bi = s.bi
      ∧ (pointFor l s).cq = s.cq ∧ (pointFor l s).fu.readmitFrame = s.fu.readmitFrame := by
  induction l generalizing s with
  | nil => exact ⟨rfl, rfl, rfl⟩
  | cons j l ih =>
    rw [List.nodup_cons] at hl
    obtain ⟨hbi, hcq, hframe⟩ := pointForInput_offers_nothing (h j List.mem_cons_self)
    have hrest : ∀ i ∈ l, ¬(((s.pointForInput j).inputRecord i).latched = true
        ∧ ((s.pointForInput j).input i).cls = .shed) := by
      intro i hi
      have hij : i ≠ j := fun heq => hl.1 (heq ▸ hi)
      rw [inputRecord_pointForInput_ne hij, input_congr (s := s) (by simp)]
      exact h i (List.mem_cons_of_mem _ hi)
    obtain ⟨hbi', hcq', hframe'⟩ := ih hl.2 hrest
    rw [pointFor_cons]
    exact ⟨hbi'.trans hbi, hcq'.trans hcq, hframe'.trans hframe⟩

/-- Nothing but a latch of class SHED stands against the readmission of this member (R166). -/
structure Readmissible (s : State) : Prop where
  station : s.sc.station = .member
  shed : s.ownEntry.state = .shed
  frame : s.fu.readmitFrame = none
  room : s.bi.queue.length < 6
  pending : ∀ e ∈ s.cq.entries, e.target = s.ownId → e.content.changesStanding = false

theorem ownEntry_congr (hr : t.rt.entries = s.rt.entries) (h : t.sp.record = s.sp.record) : t.ownEntry = s.ownEntry := by
  rw [ownEntry, ownEntry, entry, entry, hr, ownId_congr h]

theorem Readmissible.congr (h : s.Readmissible) (hsc : t.sc = s.sc) (hrt : t.rt = s.rt) (hbi : t.bi = s.bi)
    (hcq : t.cq = s.cq) (hframe : t.fu.readmitFrame = s.fu.readmitFrame) (hrec : t.sp.record = s.sp.record) :
    t.Readmissible := by
  refine ⟨by rw [hsc, h.station], ?_, hframe.trans h.frame, by rw [hbi]; exact h.room, ?_⟩
  · rw [ownEntry_congr (congrArg _ hrt) hrec, h.shed]
  · rw [hcq, ownId_congr hrec]
    exact h.pending

theorem Readmissible.passed_iff (h : s.Readmissible) : s.readmissionTestPassed = true
    ↔ ∀ i, (s.inputRecord i).latched = true → (s.input i).cls ≠ .shed := by
  rw [readmissionTestPassed_iff]
  exact ⟨fun hp => hp.2.2.1, fun hno => ⟨h.station, h.shed, hno, h.frame, h.pending⟩⟩

/-- The PROPOSE ADMIT of the readmission is queued under the next sequence number. -/
structure Readmitting (s t : State) : Prop where
  bi : t.bi = { s.bi with
    queue := insertFrame ⟨.propose s.cq.nextSeq (.admission s.sp.fingerprint s.ownKind), 0, false⟩ s.bi.queue }
  frame : t.fu.readmitFrame = some ⟨s.ownId, s.cq.nextSeq⟩
  seq : t.cq.nextSeq = s.cq.nextSeq + 1

theorem ownKind_congr (h : t.sp.record = s.sp.record) : t.ownKind = s.ownKind := by simp only [ownKind, h]

theorem Readmitting.of_same {u : State} (h : Readmitting u t) (hbi : u.bi = s.bi) (hcq : u.cq = s.cq)
    (hfp : u.sp.fingerprint = s.sp.fingerprint) (hrec : u.sp.record = s.sp.record) : Readmitting s t := by
  obtain ⟨hb, hf, hs⟩ := h
  rw [hbi, hcq, hfp, ownKind_congr hrec] at hb
  rw [hcq, ownId_congr hrec] at hf
  rw [hcq] at hs
  exact ⟨hb, hf, hs⟩

/-- Where every latch of class SHED is one of the list's and clears, the last of them proposes the readmission (R166). -/
theorem pointFor_readmits {l : List InputNo} (hl : l.Nodup) (h : s.Readmissible)
    (hclears : ∀ i, (s.inputRecord i).latched = true → (s.input i).cls = .shed → i ∈ l ∧ s.clearsAtPoint i = true)
    (hsome : ∃ i, (s.inputRecord i).latched = true ∧ (s.input i).cls = .shed) : Readmitting s (pointFor l s) := by
  induction l generalizing s with
  | nil =>
    obtain ⟨i, hi, hc⟩ := hsome
    cases (hclears i hi hc).1
  | cons j l ih =>
    rw [List.nodup_cons] at hl
    rw [pointFor_cons]
    by_cases hj : (s.inputRecord j).latched = true ∧ (s.input j).cls = .shed
    · have heq : s.pointForInput j = (s.unlatched j).readmissionTest := by
        rw [pointForInput_of_clears (hclears j hj.1 hj.2).2, decide_eq_true hj.2, doIf_true]
      have hu : (s.unlatched j).Readmissible := h.congr (by simp) (by simp) (by simp) (by simp) (by simp) (by simp)
      by_cases hmore : ∃ i, ((s.unlatched j).inputRecord i).latched = true ∧ ((s.unlatched j).input i).cls = .shed
      · have hfailed : (s.unlatched j).readmissionTestPassed = false := by
          rw [← Bool.not_eq_true, hu.passed_iff]
          obtain ⟨i, hi, hc⟩ := hmore
          exact fun hno => hno i hi hc
        rw [heq, readmissionTest_of_failed (.inl hfailed)]
        refine (ih hl.2 hu (fun i hi hc => ?_) hmore).of_same (by simp) (by simp) (by simp) (by simp)
        have hij : i ≠ j := by
          rintro rfl
          rw [inputRecord_unlatched_same] at hi
          cases hi
        have hr := inputRecord_unlatched_ne hij s
        rw [hr] at hi
        obtain ⟨hmem, hclear⟩ := hclears i hi (by rwa [input_congr (s := s) (by simp)] at hc)
        exact ⟨(List.mem_cons.mp hmem).resolve_left hij, (clearsAtPoint_congr hr (by simp)).trans hclear⟩
      · have hpassed : (s.unlatched j).readmissionTestPassed = true := by
          rw [hu.passed_iff]
          exact fun i hi hc => hmore ⟨i, hi, hc⟩
        obtain ⟨hbi, hcq, hframe⟩ := readmissionTest_proposes hpassed hu.room
        obtain ⟨hbi', hcq', hframe'⟩ := pointFor_offers_nothing (s := (s.unlatched j).readmissionTest) hl.2
          fun i _ hi => hmore ⟨i, by rw [inputRecord_readmissionTest] at hi; exact hi.1,
            by rw [input_congr (s := s.unlatched j) (by simp)] at hi; exact hi.2⟩
        rw [heq]
        refine Readmitting.of_same (u := s.unlatched j) ⟨?_, ?_, ?_⟩ (by simp) (by simp) (by simp) (by simp)
        · rw [hbi', hbi]
        · rw [hframe', hframe]
        · rw [hcq', hcq]
    · obtain ⟨hbi, hcq, hframe⟩ := pointForInput_offers_nothing hj
      have hother {i : InputNo} (hi : ((s.pointForInput j).inputRecord i).latched = true)
          (hc : ((s.pointForInput j).input i).cls = .shed) :
          i ≠ j ∧ (s.inputRecord i).latched = true ∧ (s.input i).cls = .shed := by
        rw [input_congr (s := s) (by simp)] at hc
        by_cases hij : i = j
        · subst hij
          rw [inputRecord_pointForInput_same, recordAfterPoint] at hi
          split at hi
          · cases hi
          · exact absurd ⟨hi, hc⟩ hj
        · rw [inputRecord_pointForInput_ne hij] at hi
          exact ⟨hij, hi, hc⟩
      refine (ih hl.2 (h.congr (by simp) (by simp) hbi hcq hframe (by simp)) (fun i hi hc => ?_) ?_).of_same hbi hcq
        (by simp) (by simp)
      · obtain ⟨hij, hi, hc⟩ := hother hi hc
        obtain ⟨hmem, hclear⟩ := hclears i hi hc
        exact ⟨(List.mem_cons.mp hmem).resolve_left hij,
          (clearsAtPoint_congr (inputRecord_pointForInput_ne hij s) (by simp)).trans hclear⟩
      · obtain ⟨i, hi, hc⟩ := hsome
        have hij : i ≠ j := by
          rintro rfl
          exact hj ⟨hi, hc⟩
        exact ⟨i, by rw [inputRecord_pointForInput_ne hij, hi], by rw [input_congr (s := s) (by simp), hc]⟩

theorem nodup_allInputs : allInputs.Nodup := by decide

theorem halfCyclePoint_of_started (hs : s.sc.station ≠ .setup) : s.halfCyclePoint = (pointFor allInputs s).settle :=
  if_neg hs

end State

open State in
/-- Settles O32: the three inputs one after the other, each as it stood before. -/
theorem halfCyclePoint : Obligations.HalfCyclePoint := by
  unfold Obligations.HalfCyclePoint
  refine ⟨fun s hs => ?point, fun s => readmissionTestPassed_iff, fun c => changesStanding_iff,
    fun s => ⟨readmissionTest_proposes, readmissionTest_of_failed⟩⟩
  case point =>
    refine ⟨_, (exec_halfCyclePoint s).trans (congrArg _ (halfCyclePoint_of_started hs)), fun i => ?records, ?event,
      fun hsome hall hm he hf hq hp => ?readmits, ?shared, by simp, by simp, by simp, by simp⟩
    case records =>
      rw [inputRecord_settle, inputRecord_pointFor nodup_allInputs, if_pos (mem_allInputs i), recordAfterPoint]
      simp only [clearsAtPoint_iff]
    case event =>
      rintro ⟨i, hi⟩
      exact (steady_settle (Steady.rfl' (w := true))).hasEvent
        (hasEvent_faultOff_pointFor nodup_allInputs s (mem_allInputs i) (clearsAtPoint_iff.mpr hi))
    case readmits =>
      have hreadmits := pointFor_readmits nodup_allInputs ⟨hm, he, hf, hq, hp⟩
        (fun i hi hc => ⟨mem_allInputs i, clearsAtPoint_iff.mpr ⟨hi, hall i hi hc⟩⟩) hsome
      simpa using ⟨hreadmits.bi, hreadmits.frame, hreadmits.seq⟩
    case shared => constructor <;> simp

end Sys2Proof.Machine
end

section
/-! Fault inputs (R136, R137, R153, R154, R163 to R168): what an activation does to the outputs, the TRIP slot and the
transmit queue, and the tests of the Fault Unit at every entry to MEMBER. -/

namespace Sys2Proof.Machine

variable {s t : State} {i : InputNo}

namespace State

/-! ### The shed frame and the readmit frame follow the queue (R152) -/

theorem offered_shedFrame_of_mem {body : QueuedBody} {id : ProposalId} {y : QueuedFrame} (hframe : s.fu.shedFrame = some id)
    (hy : y ∈ s.bi.queue) (hbody : y.body = .propose id.seq .shed) : (s.offered body).fu.shedFrame = s.fu.shedFrame := by
  simp [offered, setQueue, syncFaultFrames, hasQueued, hframe, Option.filter]
  exact fun _ => ⟨y, hy, by simp [hbody, QueuedBody.isPropose]⟩

theorem offered_shedFrame_of_none {body : QueuedBody} (h : s.fu.shedFrame = none) :
    (s.offered body).fu.shedFrame = none := by
  simp [offered, setQueue, syncFaultFrames, h]

theorem dropFrames_frames_of_none (test : QueuedFrame → Bool) :
    (s.fu.shedFrame = none → (s.dropFrames test).fu.shedFrame = none)
      ∧ (s.fu.readmitFrame = none → (s.dropFrames test).fu.readmitFrame = none) := by
  constructor <;> intro h <;> simp [dropFrames, setQueue, syncFaultFrames, h]

/-- A frame that the Fault Unit does not follow is not followed after a change of station state. -/
theorem moveTo_frames_of_none (new : StationState) :
    (s.fu.shedFrame = none → (s.moveTo new).fu.shedFrame = none)
      ∧ (s.fu.readmitFrame = none → (s.moveTo new).fu.readmitFrame = none) := by
  constructor <;> intro h <;> simp only [moveTo, doIf_fields, modTb_fu, stopDrive_kept, ite_self, faultUnit_shedFrame_ite,
    faultUnit_readmitFrame_ite, dropBodies]
  · rw [(dropFrames_frames_of_none _).1 (by simp [h])]
    simp [h]
  · rw [(dropFrames_frames_of_none _).2 (by simp [h])]
    simp [h]

/-! ### What the withdrawal test can do -/

theorem withdrawalTest_cases (s : State) :
    s.withdrawalTest = s ∨ ∃ id, s.withdrawalTest = s.offered (.object id .withdrawn) := by
  cases he : s.ownAdmit with
  | none => exact .inl (withdrawalTest_of_no_admit he)
  | some e =>
    simp only [withdrawalTest, he]
    split
    next =>
      obtain hq | hq := Nat.lt_or_ge s.bi.queue.length 6
      · exact .inr ⟨e.id, by rw [offer_of_room _ hq]; rfl⟩
      · exact .inl (by rw [offer_of_full _ hq]; rfl)
    next => exact .inl rfl

/-- A PROPOSE SHED that is queued and followed stays so under the withdrawal test. -/
theorem withdrawalTest_keeps_shed {id : ProposalId} {y : QueuedFrame} (hframe : s.fu.shedFrame = some id)
    (hy : y ∈ s.bi.queue) (hbody : y.body = .propose id.seq .shed) :
    y ∈ s.withdrawalTest.bi.queue ∧ s.withdrawalTest.fu.shedFrame = some id := by
  obtain h | ⟨k, h⟩ := withdrawalTest_cases s
  · rw [h]
    exact ⟨hy, hframe⟩
  · rw [h, offered_shedFrame_of_mem hframe hy hbody]
    exact ⟨by simp [hy], hframe⟩

/-! ### The output mode after an activation (R136, R137) -/

theorem outputsOff_of_chosenMode (hs : s.Settled) (h : s.chosenMode = .off) (hg : s.os.GatesOk) : s.OutputsOff := by
  have hmode : s.os.mode = .off := (hs.1 (by simp [h])).trans h
  obtain ⟨hgh, hgl⟩ := hg.2 hmode
  exact ⟨hmode, hgh, hgl, by simp [genAsserted, hmode]⟩

theorem chosenMode_of_offLatched (h : ∃ i, (s.inputRecord i).latched = true
    ∧ ((s.input i).cls = .trip ∨ (s.input i).lowClamp = false)) : s.chosenMode = .off := by
  obtain ⟨i, hi, hoff⟩ := h
  have hany : s.offLatched = true :=
    List.any_eq_true.mpr ⟨i, mem_allInputs i, by simpa [hi] using hoff⟩
  simp [chosenMode, hany]

theorem chosenMode_of_clampLatched (hm : s.isMember = true) (hk : s.ownKind = .phase) (ht : s.fu.tripSet = 0)
    (hall : ∀ j, (s.inputRecord j).latched = true → (s.input j).cls ≠ .trip ∧ (s.input j).lowClamp = true)
    (hsome : ∃ i, (s.inputRecord i).latched = true) : s.chosenMode = .lowClamp := by
  have hoff : s.offLatched = false := by
    refine List.any_eq_false.mpr fun j _ => ?_
    simp only [Bool.and_eq_true, Bool.or_eq_true, decide_eq_true_eq, Bool.not_eq_true', not_and, not_or]
    exact fun hj => ⟨(hall j hj).1, by simp [(hall j hj).2]⟩
  have hclamp : s.clampLatched = true := by
    obtain ⟨i, hi⟩ := hsome
    exact List.any_eq_true.mpr ⟨i, mem_allInputs i, by simp [hi, (hall i hi).2]⟩
  simp [chosenMode, hm, hk, ht, hoff, hclamp]

end State

/-- In LOW_CLAMP the low gate alone is requested, wherever P stands (R139, R143). -/
theorem OutputStage.regate_of_clamp {dt : Nat} {os : OutputStage} (h : os.mode = .lowClamp) :
    (os.regate dt).gh = false ∧ ((os.regate dt).gl = true ↔ os.blanking = false ∧ os.released = false
      ∧ (os.glWas = true ∨ dt ≤ os.inactiveRun)) := by
  have hrequest : os.request = if os.blanking then .neither else .low := by
    rw [OutputStage.request_eq]
    simp [h]
  constructor
  · rw [← Bool.not_eq_true, OutputStage.regate_gh_iff, hrequest]
    split <;> simp
  · rw [OutputStage.regate_gl_iff, hrequest]
    cases os.blanking <;> simp

namespace State

/-- A recomputed target leaves the Output Stage or takes P from B anew. -/
theorem recomputeTarget_os (s : State) : s.recomputeTarget.os = s.os
    ∨ ∃ p, s.recomputeTarget.os = OutputStage.regate s.deadtime { s.os with p := p, anchored := true } := by
  unfold recomputeTarget
  split
  · exact .inl rfl
  · split
    · exact .inl rfl
    · split
      · exact .inl (retargetTo_os _)
      · exact .inr ⟨_, rfl⟩

/-- The gates in the count in which LOW_CLAMP takes effect (R137, R143). -/
theorem settle_gates_of_clamp (hc : s.chosenMode = .lowClamp) (hm : s.os.mode ≠ .lowClamp) :
    s.settle.os.gh = false ∧ (s.settle.os.gl = true ↔ s.os.blanking = false ∧ s.os.released = false
      ∧ (s.os.glWas = true ∨ s.deadtime ≤ s.os.inactiveRun)) := by
  have hremode : s.remode = (s.modOs fun os => { os with mode := .lowClamp }).regate := by
    rw [remode, if_pos (by simp [hc, Ne.symm hm]), hc]
  obtain h | ⟨p, h⟩ := recomputeTarget_os s.remode
  · rw [settle, h, hremode]
    exact OutputStage.regate_of_clamp (os := { s.os with mode := .lowClamp }) rfl
  · rw [settle, h, hremode]
    exact OutputStage.regate_of_clamp
      (os := { OutputStage.regate s.deadtime { s.os with mode := .lowClamp } with p := p, anchored := true }) rfl

/-! ### An activation (R154) -/

/-- The input latched, counted and reported, before the outputs and the class effects follow. -/
def latchedInput (i : InputNo) (s : State) : State :=
  (s.modInput i fun r =>
    { active := true, disagree := 0, latched := true, ackArmed := false
      activations := min 255 (r.activations + 1) }).raise .faultOn

@[simp] theorem latchedInput_kept (i : InputNo) (s : State) : (s.latchedInput i).sc = s.sc ∧ (s.latchedInput i).tb = s.tb
    ∧ (s.latchedInput i).bi = s.bi ∧ (s.latchedInput i).rt = s.rt ∧ (s.latchedInput i).cq = s.cq
    ∧ (s.latchedInput i).os = s.os ∧ (s.latchedInput i).fu.tripSet = s.fu.tripSet
    ∧ (s.latchedInput i).fu.shedFrame = s.fu.shedFrame ∧ (s.latchedInput i).sp.record = s.sp.record
    ∧ (s.latchedInput i).sp.tickets = s.sp.tickets := by
  simp [latchedInput]

theorem inputRecord_latchedInput_same (i : InputNo) (s : State) : (s.latchedInput i).inputRecord i
    = ⟨true, 0, true, false, min 255 ((s.inputRecord i).activations + 1)⟩ := by
  rw [latchedInput, inputRecord_raise, inputRecord_modInput_same]

theorem inputRecord_latchedInput_ne {j : InputNo} (h : j ≠ i) (s : State) :
    (s.latchedInput i).inputRecord j = s.inputRecord j := by
  rw [latchedInput, inputRecord_raise, inputRecord_modInput_ne _ _ h]

theorem activateInput_eq (i : InputNo) (s : State) :
    s.activateInput i = (((s.latchedInput i).settle).activationEffects i).settle := rfl

@[simp] theorem activationEffects_kept (i : InputNo) (s : State) : (s.activationEffects i).sc = s.sc
    ∧ (s.activationEffects i).tb = s.tb ∧ (s.activationEffects i).rt = s.rt ∧ (s.activationEffects i).os = s.os
    ∧ (s.activationEffects i).pu = s.pu ∧ (s.activationEffects i).cq.entries = s.cq.entries
    ∧ (s.activationEffects i).cq.duty = s.cq.duty ∧ (s.activationEffects i).fu.tripSet = s.fu.tripSet
    ∧ (s.activationEffects i).sp = s.sp := by
  unfold activationEffects
  split <;> simp

/-- The class effects leave nothing to settle. -/
theorem activateInput_eq_effects (i : InputNo) (s : State) :
    s.activateInput i = ((s.latchedInput i).settle).activationEffects i := by
  rw [activateInput_eq]
  refine (Settled.congr (settle_settled (s.latchedInput i)) ?_).settle_eq
  exact ⟨isMember_congr (by simp), by simp [mayHaveTarget, isMember, isFollower], by simp,
    fun j => congrArg _ (inputRecord_activationEffects i j _), by simp, by simp, by simp, by simp⟩

/-- The class effects in the three cases that R154 and R163 tell apart. -/
theorem activationEffects_of_shed (h : (s.input i).cls = .shed) :
    s.activationEffects i = s.shedTest.withdrawalTest := by simp only [activationEffects, h]

theorem activationEffects_of_trip (h : (s.input i).cls = .trip) : s.activationEffects i
    = s.doIf s.isMember (fillTripSlot { input := BitVec.ofNat 8 (allInputs.idxOf i), en := s.tb.en }) := by
  simp only [activationEffects, h]

theorem activationEffects_tripSlot (h : (s.input i).cls ≠ .trip ∨ s.isMember = false) :
    (s.activationEffects i).bi.tripSlot = s.bi.tripSlot := by
  unfold activationEffects
  split
  next => simp
  next hc => simp [h.resolve_left (fun hne => hne hc)]
  next => rfl
  next => rfl

/-! ### Entry to MEMBER (R8, R13, R168) -/

/-- A member that has just entered the group, before the tests of the Fault Unit. -/
def enteredMember (s : State) : State :=
  ((s.moveTo .member).modRt fun rt => { rt with copySource := .own }).modSc fun sc => { sc with tracked := none }

theorem becomeMember_eq_tests (h : s.sc.leavePending = false) : s.becomeMember = s.enteredMember.memberTests :=
  becomeMember_of_not_pending h

@[simp] theorem enteredMember_kept (s : State) : s.enteredMember.sc.station = .member
    ∧ s.enteredMember.rt.entries = s.rt.entries ∧ s.enteredMember.cq.entries = s.cq.entries
    ∧ s.enteredMember.cq.nextSeq = s.cq.nextSeq ∧ s.enteredMember.sp.record = s.sp.record
    ∧ s.enteredMember.sp.fingerprint = s.sp.fingerprint ∧ s.enteredMember.fu.flt0 = s.fu.flt0
    ∧ s.enteredMember.fu.flt1 = s.fu.flt1 ∧ s.enteredMember.fu.flt2 = s.fu.flt2
    ∧ s.enteredMember.bi.queue = s.bi.queue.filter fun x => !x.body.isQuery := by
  simp [enteredMember, moveTo_queue]

theorem enteredMember_frames (s : State) : (s.fu.shedFrame = none → s.enteredMember.fu.shedFrame = none)
    ∧ (s.fu.readmitFrame = none → s.enteredMember.fu.readmitFrame = none) := moveTo_frames_of_none .member

theorem length_queue_enteredMember (s : State) : s.enteredMember.bi.queue.length ≤ s.bi.queue.length := by
  simpa using List.length_filter_le _ s.bi.queue

/-- The tests of a MEMBER whose shed test is passed propose the shed alone: its entry is not SHED (R165, R166). -/
theorem memberTests_of_shed (h : s.shedTestPassed = true) (hq : s.bi.queue.length < 6) :
    s.memberTests.sc.station = .member ∧ ⟨.propose s.cq.nextSeq .shed, 0, false⟩ ∈ s.memberTests.bi.queue
      ∧ s.memberTests.fu.shedFrame = some ⟨s.ownId, s.cq.nextSeq⟩ ∧ s.memberTests.cq.nextSeq = s.cq.nextSeq + 1 := by
  obtain ⟨hm, hactive, -⟩ := shedTestPassed_iff.mp h
  obtain ⟨hbi, hcq, hframe⟩ := shedTest_proposes h hq
  have hfailed : s.shedTest.readmissionTestPassed = false := by
    rw [← Bool.not_eq_true, readmissionTestPassed_iff, ownEntry_congr (s := s) (by simp) (by simp), hactive]
    simp
  rw [memberTests, readmissionTest_of_failed (.inl hfailed), hbi, hcq, hframe]
  exact ⟨by simp [hm], by simp, rfl, rfl⟩

/-- The tests of a MEMBER whose readmission test is passed propose the ADMIT alone: its entry holds no slot. -/
theorem memberTests_of_readmission (h : s.readmissionTestPassed = true) (hq : s.bi.queue.length < 6) :
    s.memberTests.sc.station = .member
      ∧ ⟨.propose s.cq.nextSeq (.admission s.sp.fingerprint s.ownKind), 0, false⟩ ∈ s.memberTests.bi.queue
      ∧ s.memberTests.fu.readmitFrame = some ⟨s.ownId, s.cq.nextSeq⟩ ∧ s.memberTests.cq.nextSeq = s.cq.nextSeq + 1 := by
  obtain ⟨hm, hshed, -⟩ := readmissionTestPassed_iff.mp h
  have hfailed : s.shedTestPassed = false := by
    rw [← Bool.not_eq_true, shedTestPassed_iff, hshed]
    simp
  obtain ⟨hbi, hcq, hframe⟩ := readmissionTest_proposes h hq
  rw [memberTests, shedTest_of_failed (.inl hfailed), hbi, hcq, hframe]
  exact ⟨by simp [hm], by simp, rfl, rfl⟩

/-- The founder before the tests of the Fault Unit (R5). -/
def foundedMember (s : State) : State :=
  let s₁ := ((s.emptyQueue .resync).setTripSet 0).setRoster s.founderRoster
  let s₂ := (s₁.modCq fun cq => { cq with duty := 0 }).modRt fun rt => { rt with
    copySource := .own, expectedKey := none, groupFingerprint := none, countdown := 0, pendingReplies := 0 }
  let s₃ := (s₂.modTb fun tb => { tb with en := 0 }).enterLocked
  (((s₃.moveTo .member).modSc fun sc => { sc with tracked := none }).remode).adoptTarget

theorem found_eq (s : State) : s.found = s.foundedMember.memberTests := rfl

@[simp] theorem foundedMember_kept (s : State) : s.foundedMember.sc.station = .member
    ∧ s.foundedMember.rt.entries = s.founderRoster ∧ s.foundedMember.cq.entries = []
    ∧ s.foundedMember.cq.nextSeq = s.cq.nextSeq ∧ s.foundedMember.sp.record = s.sp.record
    ∧ s.foundedMember.fu.flt0 = s.fu.flt0
    ∧ s.foundedMember.fu.flt1 = s.fu.flt1 ∧ s.foundedMember.fu.flt2 = s.fu.flt2
    ∧ s.foundedMember.bi.queue = s.bi.queue.filter fun x => !x.body.isQuery := by
  simp [foundedMember, moveTo_queue]

theorem foundedMember_shedFrame (h : s.fu.shedFrame = none) : s.foundedMember.fu.shedFrame = none := by
  simp only [foundedMember, adoptTarget_kept, remode_kept, modSc_fu]
  exact (moveTo_frames_of_none .member).1 (by simp [h])

theorem founderRoster_own (s : State) : s.founderRoster.getD s.ownId.val .absentEntry
    = ⟨.active, s.ownKind, some 0, 0, false, none⟩ := by
  rw [founderRoster, List.getD_eq_getElem?_getD, List.getElem?_set_self (by simp)]
  rfl

theorem classLatched_congr {c : InputClass} (hr : ∀ i, t.inputRecord i = s.inputRecord i)
    (h : t.sp.record = s.sp.record) : t.classLatched c = s.classLatched c := by
  simp only [classLatched, hr, input_congr h]

/-- A station that enters MEMBER with an ACTIVE PHASE entry and a latch of class SHED proposes its shed at once (R165). -/
theorem becomeMember_sheds (hleave : s.sc.leavePending = false) (hq : s.bi.queue.length < 6)
    (hs : s.ownEntry.state = .active) (hk : s.ownEntry.kind = .phase)
    (hp : ∀ e ∈ s.cq.entries, e.target = s.ownId → e.content ≠ .shed ∧ ∀ k r, e.content ≠ .remove k r)
    (hl : s.classLatched .shed = true) (hf : s.fu.shedFrame = none)
    (hr : ∀ y ∈ s.bi.queue, y.body.isRemoveOf s.ownId = false) :
    s.becomeMember.sc.station = .member ∧ ⟨.propose s.cq.nextSeq .shed, 0, false⟩ ∈ s.becomeMember.bi.queue
      ∧ s.becomeMember.fu.shedFrame = some ⟨s.ownId, s.cq.nextSeq⟩ ∧ s.becomeMember.cq.nextSeq = s.cq.nextSeq + 1 := by
  have hrec (i : InputNo) : s.enteredMember.inputRecord i = s.inputRecord i :=
    inputRecord_congr (by simp) (by simp) (by simp) i
  have hown : s.enteredMember.ownId = s.ownId := ownId_congr (by simp)
  have hentry : s.enteredMember.ownEntry = s.ownEntry := ownEntry_congr (by simp) (by simp)
  have hpassed : s.enteredMember.shedTestPassed = true := by
    rw [shedTestPassed_iff, ← classLatched_iff, classLatched_congr hrec (by simp), hentry, hown]
    refine ⟨by simp, hs, hk, hl, by simpa using hp, (enteredMember_frames s).1 hf, fun y hy => hr y ?_⟩
    rw [(enteredMember_kept s).2.2.2.2.2.2.2.2.2] at hy
    exact (List.mem_filter.mp hy).1
  have htests := memberTests_of_shed hpassed ((length_queue_enteredMember s).trans_lt hq)
  rw [becomeMember_eq_tests hleave]
  simpa [hown] using htests

theorem found_sheds (hq : s.bi.queue.length < 6) (hk : s.ownKind = .phase)
    (hl : s.classLatched .shed = true) (hf : s.fu.shedFrame = none)
    (hr : ∀ y ∈ s.bi.queue, y.body.isRemoveOf s.ownId = false) :
    s.found.sc.station = .member ∧ ⟨.propose s.cq.nextSeq .shed, 0, false⟩ ∈ s.found.bi.queue
      ∧ s.found.fu.shedFrame = some ⟨s.ownId, s.cq.nextSeq⟩ ∧ s.found.cq.nextSeq = s.cq.nextSeq + 1 := by
  have hrec (i : InputNo) : s.foundedMember.inputRecord i = s.inputRecord i :=
    inputRecord_congr (by simp) (by simp) (by simp) i
  have hown : s.foundedMember.ownId = s.ownId := ownId_congr (by simp)
  have hqueue : s.foundedMember.bi.queue = s.bi.queue.filter fun x => !x.body.isQuery := by simp
  have hentry : s.foundedMember.ownEntry = ⟨.active, .phase, some 0, 0, false, none⟩ := by
    have hentries : s.foundedMember.rt.entries = s.founderRoster := by simp
    rw [ownEntry, entry, hentries, hown, founderRoster_own, hk]
  have hpassed : s.foundedMember.shedTestPassed = true := by
    rw [shedTestPassed_iff, ← classLatched_iff, classLatched_congr hrec (by simp), hentry, hown]
    refine ⟨by simp, rfl, rfl, hl, by simp, foundedMember_shedFrame hf, fun y hy => hr y ?_⟩
    rw [hqueue] at hy
    exact (List.mem_filter.mp hy).1
  have hroom : s.foundedMember.bi.queue.length < 6 := by
    rw [hqueue]
    exact (List.length_filter_le _ _).trans_lt hq
  have htests := memberTests_of_shed hpassed hroom
  rw [found_eq]
  simpa [hown] using htests

/-- A station that enters MEMBER with a SHED entry and no latch of class SHED proposes its readmission at once (R166). -/
theorem becomeMember_readmits (hleave : s.sc.leavePending = false) (hq : s.bi.queue.length < 6)
    (hs : s.ownEntry.state = .shed) (hl : s.classLatched .shed = false) (hf : s.fu.readmitFrame = none)
    (hp : ∀ e ∈ s.cq.entries, e.target = s.ownId → e.content.changesStanding = false) :
    s.becomeMember.sc.station = .member
      ∧ ⟨.propose s.cq.nextSeq (.admission s.sp.fingerprint s.ownKind), 0, false⟩ ∈ s.becomeMember.bi.queue
      ∧ s.becomeMember.fu.readmitFrame = some ⟨s.ownId, s.cq.nextSeq⟩
      ∧ s.becomeMember.cq.nextSeq = s.cq.nextSeq + 1 := by
  have hrec (i : InputNo) : s.enteredMember.inputRecord i = s.inputRecord i :=
    inputRecord_congr (by simp) (by simp) (by simp) i
  have hown : s.enteredMember.ownId = s.ownId := ownId_congr (by simp)
  have hkind : s.enteredMember.ownKind = s.ownKind := ownKind_congr (by simp)
  have hentry : s.enteredMember.ownEntry = s.ownEntry := ownEntry_congr (by simp) (by simp)
  have hpassed : s.enteredMember.readmissionTestPassed = true := by
    rw [readmissionTestPassed_iff, ← classLatched_eq_false_iff, classLatched_congr hrec (by simp), hentry, hown]
    exact ⟨by simp, hs, hl, (enteredMember_frames s).2 hf, by simpa using hp⟩
  have htests := memberTests_of_readmission hpassed ((length_queue_enteredMember s).trans_lt hq)
  rw [becomeMember_eq_tests hleave]
  simpa [hown, hkind] using htests

theorem enterGroup_of_present (h : s.ownEntry.state ≠ .absent) :
    s.enterGroup = s.becomeMember.settle.jumpToTarget.settle := by
  rw [enterGroup, if_pos (isPresent_iff.mpr h), enterMember]

/-! ### The commands of an input (R153, R154) -/

theorem evaluates_of_started (hs : s.sc.station ≠ .setup) (hc : (s.input i).cls ≠ .unused) : s.evaluates i = true := by
  simp [evaluates, hs, hc]

theorem faultActivation_eq (hs : s.sc.station ≠ .setup) (hc : (s.input i).cls ≠ .unused)
    (ha : (s.inputRecord i).active = false) :
    s.faultActivation i = ((s.latchedInput i).settle).activationEffects i :=
  (faultActivation_of_inactive (evaluates_of_started hs hc) ha).trans (activateInput_eq_effects i s)

theorem faultRelease_eq (hs : s.sc.station ≠ .setup) (hc : (s.input i).cls ≠ .unused)
    (ha : (s.inputRecord i).active = true) :
    s.faultRelease i = s.modInput i fun r => { r with active := false, disagree := 0 } := by
  rw [faultRelease, if_pos (by simp [evaluates_of_started hs hc, ha])]
  rfl

/-- The state in which the class effects of an activation are judged: latched and settled (R154). -/
def activated (i : InputNo) (s : State) : State := (s.latchedInput i).settle

@[simp] theorem activated_kept (i : InputNo) (s : State) : (s.activated i).sc = s.sc ∧ (s.activated i).tb = s.tb
    ∧ (s.activated i).bi = s.bi ∧ (s.activated i).rt = s.rt ∧ (s.activated i).cq = s.cq
    ∧ (s.activated i).fu.tripSet = s.fu.tripSet ∧ (s.activated i).fu.shedFrame = s.fu.shedFrame
    ∧ (s.activated i).sp.record = s.sp.record ∧ (s.activated i).sp.tickets = s.sp.tickets := by
  simp [activated]

theorem inputRecord_activated (j : InputNo) : (s.activated i).inputRecord j = (s.latchedInput i).inputRecord j :=
  inputRecord_settle ..

theorem settled_activationEffects_activated (i : InputNo) (s : State) : ((s.activated i).activationEffects i).Settled := by
  rw [activated, ← activateInput_eq_effects]
  exact settle_settled _

/-- Every latch after the activation is the new one or an old one. -/
theorem latched_activated_cases {j : InputNo} (h : ((s.activated i).inputRecord j).latched = true) :
    j = i ∨ (s.inputRecord j).latched = true := by
  by_cases hj : j = i
  · exact .inl hj
  · rw [inputRecord_activated, inputRecord_latchedInput_ne hj] at h
    exact .inr h

theorem latched_activated_self (i : InputNo) (s : State) : ((s.activated i).inputRecord i).latched = true := by
  rw [inputRecord_activated, inputRecord_latchedInput_same]

theorem classLatched_activated (hc : (s.input i).cls = .shed) : (s.activated i).classLatched .shed = true :=
  classLatched_iff.mpr ⟨i, latched_activated_self i s, by rw [input_congr (s := s) (by simp), hc]⟩

/-- An activation of class SHED in a MEMBER that holds a slot proposes the shed (R165). -/
theorem activated_sheds (hc : (s.input i).cls = .shed) (hm : s.sc.station = .member) (hs : s.ownEntry.state = .active)
    (hk : s.ownEntry.kind = .phase)
    (hp : ∀ e ∈ s.cq.entries, e.target = s.ownId → e.content ≠ .shed ∧ ∀ k r, e.content ≠ .remove k r)
    (hf : s.fu.shedFrame = none) (hr : ∀ y ∈ s.bi.queue, y.body.isRemoveOf s.ownId = false)
    (hq : s.bi.queue.length < 6) :
    let t := (s.activated i).activationEffects i
    ⟨.propose s.cq.nextSeq .shed, 0, false⟩ ∈ t.bi.queue ∧ t.fu.shedFrame = some ⟨s.ownId, s.cq.nextSeq⟩
      ∧ t.cq.nextSeq = s.cq.nextSeq + 1 := by
  intro t
  have hown : (s.activated i).ownId = s.ownId := ownId_congr (by simp)
  have hpassed : (s.activated i).shedTestPassed = true := by
    rw [shedTestPassed_iff, ← classLatched_iff, ownEntry_congr (s := s) (by simp) (by simp), hown]
    exact ⟨by simp [hm], hs, hk, classLatched_activated hc, by simpa using hp, by simp [hf], by simpa using hr⟩
  obtain ⟨hbi, hcq, hframe⟩ := shedTest_proposes hpassed (by simpa using hq)
  have hmem : ⟨.propose s.cq.nextSeq .shed, 0, false⟩ ∈ (s.activated i).shedTest.bi.queue := by simp [hbi]
  obtain ⟨hkept, hfollowed⟩ := withdrawalTest_keeps_shed hframe hmem (by simp)
  have ht : t = (s.activated i).shedTest.withdrawalTest :=
    activationEffects_of_shed (by rw [input_congr (s := s) (by simp), hc])
  rw [ht]
  refine ⟨hkept, by simpa [hown] using hfollowed, by simp [hcq]⟩

/-- An activation of class SHED withdraws the own OPEN ADMIT (R167). -/
theorem activated_withdraws {e : QueueEntry} (hc : (s.input i).cls = .shed)
    (hst : s.sc.station = .joining ∨ (s.sc.station = .member ∧ s.ownEntry.state = .shed)) (he : s.ownAdmit = some e)
    (hp : e.phase = .openPhase) (hw : s.withdrawalQueued e.id = false) (hq : s.bi.queue.length < 6) :
    ((s.activated i).activationEffects i).bi.queue = insertFrame ⟨.object e.id .withdrawn, 0, false⟩ s.bi.queue := by
  have hfailed : (s.activated i).shedTestPassed = false := by
    rw [← Bool.not_eq_true, shedTestPassed_iff, ownEntry_congr (s := s) (by simp) (by simp)]
    rintro ⟨hm, hactive, -⟩
    obtain hj | ⟨-, hshed⟩ := hst
    · simp [hj] at hm
    · simp [hshed] at hactive
  have hadmit : (s.activated i).ownAdmit = some e := by
    simp only [ownAdmit, activated_kept, ownId_congr (t := s.activated i) (s := s) (by simp)]
    exact he
  have hqueued : (s.activated i).withdrawalQueued e.id = false := by
    simpa only [withdrawalQueued, hasQueued, activated_kept] using hw
  rw [activationEffects_of_shed (by rw [input_congr (s := s) (by simp), hc]), shedTest_of_failed (.inl hfailed),
    withdrawalTest_of_passed hadmit (by simpa using hst.imp_right And.left) (classLatched_activated hc) hp hqueued
      (by simpa using hq)]
  simp

end State

open State in
/-- Settles O33. -/
theorem faultInputs : Obligations.FaultInputs := by
  unfold Obligations.FaultInputs
  refine ⟨fun i s hs hc ha => ⟨(s.activated i).activationEffects i, ?activation⟩, fun s => shedTestPassed_iff,
    fun s => ⟨shedTest_proposes, shedTest_of_failed⟩,
    fun s e he => ⟨fun hst hl hp hw hq => ?withdrawn, withdrawalTest_of_failed he⟩,
    fun s => withdrawalTest_of_no_admit, fun s t hm hleave hq hentry hl hf hr => ?sheds,
    fun s hm hleave hq hs hl hf hp => becomeMember_readmits hleave hq hs hl hf hp,
    fun s => ⟨rfl, enterGroup_of_present⟩, fun i s hs hc ha => ?release⟩
  case withdrawn =>
    rw [withdrawalTest_of_passed he hst hl hp hw hq]
    simp
  case sheds =>
    obtain ⟨ht, hs, hk, hp⟩ | ⟨ht, hk⟩ := hentry <;> rw [ht]
    · exact becomeMember_sheds hleave hq hs hk hp hl hf hr
    · exact found_sheds hq hk hl hf hr
  case release =>
    have heq := faultRelease_eq hs hc ha
    refine ⟨_, (exec_faultRelease i s).trans (congrArg _ heq), by simp, fun j hj => inputRecord_modInput_ne _ _ hj,
      by simp, by simp, by simp, by simp, rfl⟩
  case activation =>
    have hsettled := settled_activationEffects_activated i s
    have hrecord (j : InputNo) : ((s.activated i).activationEffects i).inputRecord j = (s.latchedInput i).inputRecord j := by
      rw [inputRecord_activationEffects, inputRecord_activated]
    have hinput (j : InputNo) : ((s.activated i).activationEffects i).input j = s.input j := input_congr (by simp) j
    have hlatched {j : InputNo} (h : (((s.activated i).activationEffects i).inputRecord j).latched = true) :
        j = i ∨ (s.inputRecord j).latched = true :=
      latched_activated_cases (by rwa [inputRecord_activationEffects] at h)
    refine ⟨?exec, ?self, fun j hj => ?others, ?event, fun hoff hg => ?off, fun hm hk ht hcls hlow hall => ?clamp,
      fun hcls hm => ?slot, fun hno => ?noSlot, ?shed, fun e hcls hst he hp hw hq => activated_withdraws hcls hst he hp hw hq,
      ?shared, by simp, by simp, by simp, by simp⟩
    case exec => rw [exec_faultActivation, faultActivation_eq hs hc ha]; rfl
    case self => rw [hrecord, inputRecord_latchedInput_same]
    case others => rw [hrecord, inputRecord_latchedInput_ne hj]
    case event =>
      exact (steady_activationEffects (steady_settle (Steady.rfl' (w := true)))).hasEvent (hasEvent_raise_same ..)
    case off =>
      refine outputsOff_of_chosenMode hsettled (chosenMode_of_offLatched ⟨i, ?_, by rwa [hinput]⟩) ?_
      · rw [inputRecord_activationEffects]
        exact latched_activated_self i s
      · exact (steady_activationEffects (steady_settle (steady_raise (steady_modInput (Steady.rfl' (w := true)))))).gates hg
    case clamp =>
      have hchosen : ((s.activated i).activationEffects i).chosenMode = .lowClamp := by
        refine chosenMode_of_clampLatched ((isMember_congr (by simp)).trans hm) ((ownKind_congr (by simp)).trans hk)
          (by simp [ht]) (fun j hj => ?_) ⟨i, by rw [inputRecord_activationEffects]; exact latched_activated_self i s⟩
        rw [hinput]
        obtain rfl | hj := hlatched hj
        · exact ⟨hcls, hlow⟩
        · exact hall j hj
      have hmode := (hsettled.1 (by simp [hchosen])).trans hchosen
      refine ⟨hmode, by rw [genAsserted, hmode]; decide, fun hne => ?_⟩
      have hbefore : (s.latchedInput i).chosenMode = .lowClamp := by
        rw [← hchosen]
        exact chosenMode_congr (isMember_congr (by simp)) (by simp) (fun j => congrArg _ (hrecord j).symm) (by simp) (by simp)
      have hdeadtime : (s.latchedInput i).deadtime = s.deadtime := by simp [deadtime]
      simpa [activated, hdeadtime] using settle_gates_of_clamp hbefore (by simpa using hne)
    case slot =>
      rw [activationEffects_of_trip (by rw [input_congr (s := s) (by simp), hcls]), isMember_congr (s := s) (by simp), hm, doIf_true]
      exact ⟨_, rfl, rfl, by simp⟩
    case noSlot =>
      rw [activationEffects_tripSlot (by rwa [input_congr (s := s) (by simp), isMember_congr (s := s) (by simp)])]
      simp
    case shed => exact fun hcls hm he hk hp hf hr hq => activated_sheds hcls hm he hk hp hf hr hq
    case shared => constructor <;> simp

end Sys2Proof.Machine
end

section
/-! The station states entered for a fault or a divergence, ISOLATED, HALTED, RESYNC and LISTEN, and the other events of the
mark line (R14, R15, R18, R19, R26, R27, R35 to R38). -/

namespace Sys2Proof.Machine

variable {s t : State}

namespace State

/-! ### ISOLATED (R18) -/

/-- What the entry to ISOLATED forgets before the time base runs free. -/
def isolatedForgotten (r : Reason) (s : State) : State :=
  (((((((s.voidTickets .isolated).moveTo .isolated).clearBus.forgetRoster.forgetQueue).clearFaults).modSc fun sc =>
      { sc with reason := r, standing := .none, leavePending := false, tracked := none }).clearBlanking))

theorem enterIsolated_eq (r : Reason) (s : State) :
    s.enterIsolated r = (s.isolatedForgotten r).freeTimeBase.settle := rfl

@[simp] theorem isolatedForgotten_kept (r : Reason) (s : State) :
    (s.isolatedForgotten r).sc = { s.sc with
        station := .isolated, withdrawOwed := false, reason := r, standing := .none, leavePending := false
        tracked := none }
      ∧ (s.isolatedForgotten r).rt = RosterTable.reset
      ∧ (s.isolatedForgotten r).cq.entries = [] ∧ (s.isolatedForgotten r).cq.duty = 0
      ∧ (s.isolatedForgotten r).cq.frozenRef = none
      ∧ (s.isolatedForgotten r).pu = s.pu ∧ (s.isolatedForgotten r).bi.queue = []
      ∧ (s.isolatedForgotten r).bi.line = s.bi.line ∧ (s.isolatedForgotten r).bi.stuckEpochs = 0
      ∧ (s.isolatedForgotten r).bi.tripSlot = none ∧ (s.isolatedForgotten r).bi.attempt = none
      ∧ (s.isolatedForgotten r).bi.rx = none
      ∧ (s.isolatedForgotten r).sp.record = s.sp.record ∧ (s.isolatedForgotten r).tb.levelLow = s.tb.levelLow
      ∧ (s.isolatedForgotten r).tb.lowRun = s.tb.lowRun ∧ (s.isolatedForgotten r).fu = FaultUnit.reset
      ∧ (s.isolatedForgotten r).os.blanking = false := by
  simp [isolatedForgotten]

theorem isolatedForgotten_tickets (r : Reason) (s : State) :
    (s.isolatedForgotten r).sp.tickets = s.ticketsVoided .isolated := by
  have hmoved := moveTo_tickets_of_finished .isolated (s := s.voidTickets .isolated)
    (by simpa using fun x hx => unfinished_of_mem_ticketsVoided hx)
  simp [isolatedForgotten, hmoved]

/-- ISOLATED: no copy of the group state, an empty Bus Interface, every ticket VOIDED, a free time base. -/
@[simp] theorem enterIsolated_kept (r : Reason) (s : State) :
    (s.enterIsolated r).sc = { s.sc with
        station := .isolated, withdrawOwed := false, reason := r, standing := .none, leavePending := false
        tracked := none }
      ∧ (s.enterIsolated r).rt = RosterTable.reset ∧ (s.enterIsolated r).fu = FaultUnit.reset
      ∧ (s.enterIsolated r).cq.entries = [] ∧ (s.enterIsolated r).cq.duty = 0
      ∧ (s.enterIsolated r).bi.queue = [] ∧ (s.enterIsolated r).bi.line = s.bi.line
      ∧ (s.enterIsolated r).bi.tripSlot = none ∧ (s.enterIsolated r).bi.attempt = none
      ∧ (s.enterIsolated r).bi.rx = none ∧ (s.enterIsolated r).bi.stuckEpochs = 0
      ∧ (s.enterIsolated r).sp.record = s.sp.record
      ∧ (s.enterIsolated r).sp.tickets = s.ticketsVoided .isolated := by
  obtain ⟨-, -, hbi, hfu⟩ := freeTimeBase_of_empty (s := s.isolatedForgotten r) (by simp)
  simp [enterIsolated_eq, hbi, hfu, isolatedForgotten_tickets]

theorem enterIsolated_tb (r : Reason) (s : State) :
    (s.enterIsolated r).tb.b = s.tb.b ∧ (s.enterIsolated r).tb.k = s.tb.k ∧ (s.enterIsolated r).tb.en = s.tb.en
      ∧ (s.enterIsolated r).tb.lastLead = s.tb.lastLead :=
  (steady_enterIsolated (w := true) Steady.rfl').counters rfl

theorem sameCounters_enterIsolated (r : Reason) (s : State) : (s.enterIsolated r).SameCounters s := by
  obtain ⟨hb, hk, hen, -⟩ := enterIsolated_tb r s
  exact sameCounters_of_tb hb hk hen

theorem noCopy_enterIsolated (r : Reason) (s : State) : (s.enterIsolated r).NoCopy := by
  constructor <;> simp [RosterTable.reset, FaultUnit.reset]

theorem outputsOff_enterIsolated (r : Reason) (hg : s.os.GatesOk) : (s.enterIsolated r).OutputsOff :=
  outputsOff_of_settled (settle_settled _) (by simp [isMember]) ((steady_enterIsolated (w := true) .rfl').gates hg)

theorem steady_isolatedForgotten (r : Reason) (s : State) : Steady true (s.voidTickets .isolated) (s.isolatedForgotten r) :=
  steady_clearBlanking (steady_modSc (steady_clearFaults (steady_forgetQueue (steady_forgetRoster (steady_clearBus
    (steady_moveTo .rfl' (by decide)))))) id)

theorem hasEvent_state_enterIsolated (r : Reason) (s : State) : (s.enterIsolated r).hasEvent .state = true := by
  have hsteady : Steady true ((s.voidTickets .isolated).moveTo .isolated) (s.enterIsolated r) :=
    steady_settle (steady_freeTimeBase (steady_clearBlanking (steady_modSc (steady_clearFaults (steady_forgetQueue
      (steady_forgetRoster (steady_clearBus .rfl')))) id)))
  exact hsteady.hasEvent (hasEvent_moveTo _ _)

theorem hasEvent_ticket_enterIsolated (r : Reason) (h : ∃ x ∈ s.sp.tickets, x.unfinished = true) :
    (s.enterIsolated r).hasEvent .ticket = true := by
  rw [enterIsolated_eq]
  exact (steady_settle (steady_freeTimeBase (steady_isolatedForgotten r s))).hasEvent (hasEvent_voidTickets h)

theorem isolate_of_canIsolate (r : Reason) (h : s.canIsolate = true) : s.isolate r = s.enterIsolated r := by
  simp [isolate, h]

theorem isolate_of_cannot (r : Reason) (h : s.canIsolate = false) : s.isolate r = s := by simp [isolate, h]

/-! ### HOLDOVER (R35 to R38) -/

theorem enterHoldover_eq (h : s.tb.state ≠ .holdover) : s.enterHoldover
    = ((s.modTb fun tb => { tb with
        state := .holdover, resume := if s.tb.state = .locked then .locked else .free
        inWindow := if s.tb.state = .locked then 3 else 0, holdoverEpochs := 0, driveLeft := 0, driveReadLow := false
        failedDrives := 0 }).raise .line).doIf (s.hasQueued (·.isQuery)) (dropBodies (·.isQuery)) := by
  simp [enterHoldover, h]

theorem dropBodies_eq_self_of_none {test : QueuedBody → Bool} (h : s.hasQueued test = false) :
    s.bi.queue.filter (fun x => !test x.body) = s.bi.queue := by
  rw [List.filter_eq_self]
  intro y hy
  simp [hasQueued_eq_false_iff.mp h y hy]

/-- Entry to HOLDOVER: LINE, the resume state, the end of a drive, and no query waits any more. -/
theorem enterHoldover_tb (h : s.tb.state ≠ .holdover) : s.enterHoldover.tb = { s.tb with
    state := .holdover, resume := if s.tb.state = .locked then .locked else .free
    inWindow := if s.tb.state = .locked then 3 else 0, holdoverEpochs := 0, driveLeft := 0, driveReadLow := false
    failedDrives := 0 } := by
  simp [enterHoldover_eq h]

theorem enterHoldover_queue (h : s.tb.state ≠ .holdover) :
    s.enterHoldover.bi.queue = s.bi.queue.filter fun y => !y.body.isQuery := by
  rw [enterHoldover_eq h]
  cases hq : s.hasQueued (·.isQuery) with
  | true => simp
  | false => simp [dropBodies_eq_self_of_none hq]

theorem hasEvent_line_enterHoldover (h : s.tb.state ≠ .holdover) : s.enterHoldover.hasEvent .line = true := by
  rw [enterHoldover_eq h]
  exact (steady_doIf (Steady.rfl' (w := true)) (steady_dropBodies .rfl')).hasEvent (hasEvent_raise_same ..)

theorem leaveHoldover_free (h : s.tb.resume = .free) :
    s.leaveHoldover = { s with tb := { s.tb with state := .free, holdoverEpochs := 0, resume := .free } } := by
  simp only [leaveHoldover, h, reduceCtorEq, if_false]
  rfl

theorem leaveHoldover_locked (h : s.tb.resume = .locked) : s.leaveHoldover = { s with
    tb := { s.tb with state := .locked, inWindow := 3, holdoverEpochs := 0, resume := .free }
    sc := { s.sc with unlocked := 0 }, sp := { s.sp with events := s.sp.events ||| Event.lock.bit } } := by
  simp only [leaveHoldover, h, if_true]
  rfl

theorem isQuery_eq_false_iff {b : QueuedBody} : b.isQuery = false ↔ b ≠ .query := by
  cases b <;> simp [QueuedBody.isQuery]

/-- HOLDOVER at a boundary with the line still low: one more epoch, and ISOLATED at LOSS_EPOCHS (R38). -/
theorem holdoverAtBoundary_low (h : s.tb.state = .holdover) (hl : s.tb.levelLow = true) : s.holdoverAtBoundary
    = (s.modTb fun tb => { tb with holdoverEpochs := min s.lossEpochs (s.tb.holdoverEpochs + 1) }).doIf
        (min s.lossEpochs (s.tb.holdoverEpochs + 1) = s.lossEpochs) (isolate .markStuck) := by
  simp [holdoverAtBoundary, h, hl]

theorem canIsolate_modTb (f : TimeBase → TimeBase) (s : State) : (s.modTb f).canIsolate = s.canIsolate := rfl

/-! ### The end of a mark drive (R26) -/

theorem stopDrive_eq (s : State) : s.stopDrive = s.modTb fun tb => { tb with driveLeft := 0, driveReadLow := false } := rfl

theorem markDriveEnd_succeeded (hs : s.sc.station ≠ .setup) (hd : s.tb.driveLeft ≠ 0) : s.markDriveEnd false
    = { s with tb := { s.tb with driveLeft := 0, driveReadLow := false, failedDrives := 0 } } := by
  rw [markDriveEnd, if_neg (by simp [hs, hd])]
  rfl

/-- The state after a failed drive, before its consequence. -/
def driveFailed (s : State) : State := { s with
  tb := { s.tb with driveLeft := 0, driveReadLow := false, failedDrives := s.tb.failedDrives + 1 }
  sp := { s.sp with events := s.sp.events ||| Event.line.bit } }

theorem markDriveEnd_failed (hs : s.sc.station ≠ .setup) (hd : s.tb.driveLeft ≠ 0) : s.markDriveEnd true
    = s.driveFailed.doIf (s.lossEpochs ≤ s.tb.failedDrives + 1) (isolate .markDrive) := by
  rw [markDriveEnd, if_neg (by simp [hs, hd])]
  rfl

theorem station_ne_setup_of_canIsolate (h : s.canIsolate = true) : s.sc.station ≠ .setup := by
  rintro hs
  simp [canIsolate, hs] at h

theorem holdoverEntry_eq (hs : s.sc.station ≠ .setup) : s.holdoverEntry
    = (s.modTb fun tb => { tb with levelLow := true, lowRun := max 65 tb.lowRun, filterRun := 0 }).enterHoldover :=
  if_neg hs

end State

open State in
/-- Settles O26. -/
theorem markLineEvents : Obligations.MarkLineEvents := by
  unfold Obligations.MarkLineEvents
  refine ⟨fun s hs => ?release, fun s hs hh hq => ?entry, fun s hs hh => ?entryFields, fun s hs hd => ?drive,
    fun s hs hd hf => ?failed, fun s hc hd hf => ?isolated, fun s => ⟨fun h => ?elsewhere, fun h hl hr => ?free,
      fun h hl hr => ?locked, fun h hl hn => ?counted, fun h hl hn => ⟨fun hc => ?stuck, fun hc => ?stays⟩⟩⟩
  case release =>
    rw [exec_markRelease, markRelease, if_neg hs]
    rfl
  case entry =>
    have hnone : s.hasQueued (·.isQuery) = false :=
      hasQueued_eq_false_iff.mpr fun y hy => isQuery_eq_false_iff.mpr (hq y hy)
    have hnone' : (s.modTb fun tb => { tb with levelLow := true, lowRun := max 65 tb.lowRun, filterRun := 0 }).hasQueued
        (·.isQuery) = false := hnone
    rw [exec_holdoverEntry, holdoverEntry_eq hs, enterHoldover_eq (by simpa using hh), hnone', doIf_false]
    rfl
  case entryFields =>
    refine ⟨_, (exec_holdoverEntry s).trans (congrArg _ (holdoverEntry_eq hs)), ?_⟩
    have hh' : (s.modTb fun tb => { tb with levelLow := true, lowRun := max 65 tb.lowRun, filterRun := 0 }).tb.state
        ≠ .holdover := hh
    rw [enterHoldover_tb hh', enterHoldover_queue hh']
    refine ⟨rfl, rfl, rfl, rfl, rfl, rfl, hasEvent_line_enterHoldover hh', ?_, rfl, by simp, by simp, by simp, by simp, by simp⟩
    constructor <;> simp
  case drive => rw [exec_markDriveEnd, markDriveEnd_succeeded hs hd]
  case failed =>
    rw [exec_markDriveEnd, markDriveEnd_failed hs hd, decide_eq_false (by omega), doIf_false]
    rfl
  case isolated =>
    have hs := station_ne_setup_of_canIsolate hc
    have heq : s.markDriveEnd true = s.driveFailed.enterIsolated .markDrive := by
      rw [markDriveEnd_failed hs hd, decide_eq_true hf, doIf_true, isolate_of_canIsolate (s := s.driveFailed) _ hc]
    refine ⟨_, (exec_markDriveEnd true s).trans (congrArg _ heq), by simp, by simp, ?_, noCopy_enterIsolated ..,
      fun hg => outputsOff_enterIsolated _ hg, by simp, ?_, by simp; rfl,
      fun hx => hasEvent_ticket_enterIsolated _ hx⟩
    · exact (steady_enterIsolated (Steady.rfl' (w := true))).hasEvent (hasEvent_raise_same .line _)
    · obtain ⟨hb, hk, hen⟩ := sameCounters_enterIsolated .markDrive s.driveFailed
      exact ⟨hb, hk, hen⟩
  case elsewhere => rw [holdoverAtBoundary, if_pos h]
  case free =>
    rw [← leaveHoldover_free hr]
    simp [holdoverAtBoundary, h, hl]
  case locked =>
    rw [← leaveHoldover_locked hr]
    simp [holdoverAtBoundary, h, hl]
  case counted =>
    rw [holdoverAtBoundary_low h hl, decide_eq_false (by omega), doIf_false, Nat.min_eq_right hn.le]
    rfl
  case stuck =>
    rw [holdoverAtBoundary_low h hl, decide_eq_true (by omega), doIf_true, isolate_of_canIsolate (s := s.modTb _) _ hc]
    exact ⟨by simp, by simp, noCopy_enterIsolated .., by simp; rfl, fun hg => outputsOff_enterIsolated _ hg,
      hasEvent_state_enterIsolated ..⟩
  case stays =>
    rw [holdoverAtBoundary_low h hl, decide_eq_true (by omega), doIf_true, isolate_of_cannot (s := s.modTb _) _ hc, Nat.min_eq_left hn]
    rfl

end Sys2Proof.Machine
end

section
/-! The application of an entry of the Commit Queue and its FIRM (R13, R14, R60, R100, R101, R109 to R114). -/

namespace Sys2Proof.Machine

variable {s t : State} {e : QueueEntry}

namespace State

/-! ### Finished tickets stay (R180, R182) -/

/-- A finished ticket is beyond every later report. -/
theorem mem_tickets_updateTickets {x : Ticket} {hit : Ticket → Bool} {f : Ticket → Ticket} (hx : x ∈ s.sp.tickets)
    (hu : x.unfinished = false) : x ∈ (s.updateTickets hit f).sp.tickets := by
  rw [(updateTickets_kept hit f s).2.2.2.2.2.2.2.2.2.2.2.2.2]
  exact List.mem_map.mpr ⟨x, hx, by simp [hu]⟩

theorem mem_tickets_moveTo {x : Ticket} {new : StationState} (hx : x ∈ s.sp.tickets) (hu : x.unfinished = false) :
    x ∈ (s.moveTo new).sp.tickets := by
  rw [moveTo_tickets]
  split
  · exact mem_tickets_updateTickets hx hu
  · exact hx

theorem mem_tickets_enterDormant {x : Ticket} (hx : x ∈ s.sp.tickets) (hu : x.unfinished = false) :
    x ∈ s.enterDormant.sp.tickets := by
  simpa [enterDormant] using mem_tickets_moveTo hx hu

/-- A report reaches the unfinished ticket of its number and kind (R182). -/
theorem mem_tickets_reportTicket {x : Ticket} {d : ProposalContent} (f : Ticket → Ticket) (hx : x ∈ s.sp.tickets)
    (hu : x.unfinished = true) (hk : x.kind.fits d = true) (hr : x.reserved = false) :
    f x ∈ (s.reportTicket x.number d f).sp.tickets := by
  rw [reportTicket, (updateTickets_kept _ f s).2.2.2.2.2.2.2.2.2.2.2.2.2]
  exact List.mem_map.mpr ⟨x, hx, by simp [hu, hk, hr]⟩

theorem hasEvent_reportTicket {x : Ticket} {d : ProposalContent} {f : Ticket → Ticket} (hx : x ∈ s.sp.tickets)
    (hu : x.unfinished = true) (hk : x.kind.fits d = true) (hr : x.reserved = false) (hf : (f x).unfinished = false) :
    (s.reportTicket x.number d f).hasEvent .ticket = true :=
  hasEvent_updateTickets ⟨x, hx, hu, by simp [hk, hr], hf⟩

/-! ### Entries of the roster -/

theorem entry_congr (h : t.rt.entries = s.rt.entries) (i : StationId) : t.entry i = s.entry i := by
  simp only [entry, h]

theorem entry_setEntry_self (i : StationId) (x : RosterEntry) (h : s.rt.entries.length = 16) :
    (s.setEntry i x).entry i = x := by
  simp [entry, h]

theorem entry_setEntry_ne {i j : StationId} (x : RosterEntry) (h : j ≠ i) : (s.setEntry i x).entry j = s.entry j := by
  have hval : i.val ≠ j.val := fun hv => h (Fin.ext hv.symm)
  simp [entry, List.getElem?_set_ne hval]

/-! ### The change an entry makes (R109 to R113) -/

@[simp] theorem dropEntry_kept (id : ProposalId) (s : State) : (s.dropEntry id).sc = s.sc ∧ (s.dropEntry id).tb = s.tb
    ∧ (s.dropEntry id).rt = s.rt ∧ (s.dropEntry id).pu = s.pu ∧ (s.dropEntry id).os = s.os ∧ (s.dropEntry id).sp = s.sp
    ∧ (s.dropEntry id).cq.duty = s.cq.duty ∧ (s.dropEntry id).cq.nextSeq = s.cq.nextSeq
    ∧ (s.dropEntry id).cq.frozenRef = s.cq.frozenRef
    ∧ (s.dropEntry id).cq.entries = s.cq.entries.filter (fun x => x.id ≠ id)
    ∧ (s.dropEntry id).cq.pendingObjections = s.cq.pendingObjections.filter (fun o => o.1 ≠ id)
    ∧ (s.dropEntry id).bi.queue = s.bi.queue.filter (fun y => !y.body.objectsTo id)
    ∧ (s.dropEntry id).fu.flt0 = s.fu.flt0 ∧ (s.dropEntry id).fu.flt1 = s.fu.flt1
    ∧ (s.dropEntry id).fu.flt2 = s.fu.flt2 ∧ (s.dropEntry id).fu.tripSet = s.fu.tripSet
    ∧ (s.dropEntry id).fu.lastTrip = s.fu.lastTrip := by
  simp [dropEntry]

@[simp] theorem applyContent_kept (e : QueueEntry) (s : State) : (s.applyContent e).sc = s.sc
    ∧ (s.applyContent e).tb = s.tb ∧ (s.applyContent e).bi = s.bi ∧ (s.applyContent e).pu = s.pu
    ∧ (s.applyContent e).os = s.os ∧ (s.applyContent e).cq.entries = s.cq.entries
    ∧ (s.applyContent e).sp.record = s.sp.record ∧ (s.applyContent e).sp.tickets = s.sp.tickets
    ∧ (s.applyContent e).rt.copySource = s.rt.copySource := by
  unfold applyContent
  split <;> simp

theorem isNoEffect_iff : s.isNoEffect e = true ↔
    ((∃ fp kind, e.content = .admission fp kind) ∧ (s.entry e.target).state = .active)
      ∨ ((∃ i r, e.content = .remove i r) ∧ (s.entry e.target).state = .absent)
      ∨ (e.content = .shed ∧ (s.entry e.target).state ≠ .active)
      ∨ ∃ i : StationId, e.content = .clearTrip i ∧ s.fu.tripSet.getLsbD i.val = false := by
  rw [isNoEffect]
  cases hc : e.content <;> simp [RosterEntry.isPresent]

/-- The entry applied and its ticket reported, before the station state follows. -/
def applied (e : QueueEntry) (s : State) : State :=
  ((s.dropEntry e.id).doIf (!s.isNoEffect e) (applyContent e)).doIf e.isLocal
    (reportTicket e.id.seq e.content (Ticket.finish (.applied (s.isNoEffect e))))

theorem applyEntry_eq (s : State) (e : QueueEntry) : s.applyEntry e = (s.applied e).applyToOwn e := rfl

@[simp] theorem applied_kept (e : QueueEntry) (s : State) : (s.applied e).sc = s.sc ∧ (s.applied e).tb = s.tb
    ∧ (s.applied e).pu = s.pu ∧ (s.applied e).os = s.os ∧ (s.applied e).sp.record = s.sp.record
    ∧ (s.applied e).cq.entries = s.cq.entries.filter (fun x => x.id ≠ e.id)
    ∧ (s.applied e).bi.queue = s.bi.queue.filter (fun y => !y.body.objectsTo e.id)
    ∧ (s.applied e).rt.copySource = s.rt.copySource := by
  simp [applied]

theorem applied_of_noEffect (h : s.isNoEffect e = true) : (s.applied e).rt = s.rt ∧ (s.applied e).cq.duty = s.cq.duty
    ∧ (s.applied e).fu.tripSet = s.fu.tripSet := by
  simp [applied, h]

theorem applied_of_effect (h : s.isNoEffect e = false) : (s.applied e).rt = ((s.dropEntry e.id).applyContent e).rt
    ∧ (s.applied e).cq.duty = ((s.dropEntry e.id).applyContent e).cq.duty
    ∧ (s.applied e).fu.tripSet = ((s.dropEntry e.id).applyContent e).fu.tripSet := by
  simp [applied, h]

/-! ### What the change of station state leaves (R8, R13, R14) -/

theorem proposeLeave_shared (s : State) : s.proposeLeave.rt.entries = s.rt.entries ∧ s.proposeLeave.cq.entries = s.cq.entries
    ∧ s.proposeLeave.cq.duty = s.cq.duty ∧ s.proposeLeave.fu.tripSet = s.fu.tripSet := by
  obtain hq | hq := Nat.lt_or_ge s.bi.queue.length 6
  · obtain ⟨-, -, -, -, -, ⟨hentries, hqueue, hduty, htrip⟩, -⟩ := proposeLeave_kept hq
    exact ⟨hentries.symm, hqueue.symm, hduty.symm, htrip.symm⟩
  · rw [proposeLeave_of_full hq]
    exact ⟨rfl, rfl, rfl, rfl⟩

theorem leaveIfPending_shared (s : State) : s.leaveIfPending.rt.entries = s.rt.entries
    ∧ s.leaveIfPending.cq.entries = s.cq.entries ∧ s.leaveIfPending.cq.duty = s.cq.duty
    ∧ s.leaveIfPending.fu.tripSet = s.fu.tripSet := by
  obtain ⟨hentries, hqueue, hduty, htrip⟩ := proposeLeave_shared s
  simp [leaveIfPending, hentries, hqueue, hduty, htrip]

theorem becomeMember_shared (s : State) : s.becomeMember.rt.entries = s.rt.entries
    ∧ s.becomeMember.cq.entries = s.cq.entries ∧ s.becomeMember.cq.duty = s.cq.duty
    ∧ s.becomeMember.fu.tripSet = s.fu.tripSet := by
  obtain ⟨hentries, hqueue, hduty, htrip⟩ := leaveIfPending_shared (((s.moveTo .member).modRt fun rt =>
    { rt with copySource := .own }).modSc fun sc => { sc with tracked := none })
  simp [becomeMember, hentries, hqueue, hduty, htrip]

@[simp] theorem listenRemoved_kept (s : State) :
    s.listenRemoved.sc = ⟨.listen, .none, 0, 0, s.listenEpochs, .confirmed, false, none, false, false⟩
      ∧ s.listenRemoved.rt.entries = s.rt.entries ∧ s.listenRemoved.rt.copySource = .own
      ∧ s.listenRemoved.cq.entries = s.cq.entries ∧ s.listenRemoved.cq.duty = s.cq.duty
      ∧ s.listenRemoved.fu.tripSet = s.fu.tripSet ∧ s.listenRemoved.tb.driveLeft = 0
      ∧ s.listenRemoved.bi.queue = s.bi.queue.filter (·.body.isQuery) := by
  simp [listenRemoved, enterListen, moveTo_tb, moveTo_queue]

theorem outputsOff_listenRemoved (hg : s.os.GatesOk) : s.listenRemoved.OutputsOff :=
  outputsOff_of_settled (settle_settled _) (isMember_of_listen (by simp))
    ((steady_listenRemoved (w := true) .rfl').gates hg)

theorem hasEvent_listenRemoved (s : State) : s.listenRemoved.hasEvent .state = true := by
  have hsteady : Steady true (s.moveTo .listen) s.listenRemoved :=
    steady_settle (steady_modRt (steady_dropGroupFrames (steady_modTb (steady_modSc .rfl' id) fun _ => ⟨rfl, rfl, rfl, rfl⟩)) id)
  exact hsteady.hasEvent (hasEvent_moveTo _ s)

theorem applyToOwn_shared (e : QueueEntry) (s : State) : (s.applyToOwn e).rt.entries = s.rt.entries
    ∧ (s.applyToOwn e).cq.entries = s.cq.entries ∧ (s.applyToOwn e).cq.duty = s.cq.duty
    ∧ (s.applyToOwn e).fu.tripSet = s.fu.tripSet := by
  obtain ⟨hentries, hqueue, hduty, htrip⟩ := becomeMember_shared s
  unfold applyToOwn
  split
  · exact ⟨rfl, rfl, rfl, rfl⟩
  · split <;> simp [hentries, hqueue, hduty, htrip]

/-- The state follows an ADMIT or a REMOVE of the own ID alone. -/
theorem applyToOwn_of_others (h : e.target ≠ s.ownId ∨ e.content = .shed ∨ (∃ d, e.content = .demand d)
    ∨ ∃ i, e.content = .clearTrip i) : s.applyToOwn e = s := by
  unfold applyToOwn
  split
  next => rfl
  next hown =>
    obtain h | h | ⟨d, h⟩ | ⟨i, h⟩ := h
    · exact absurd h hown
    all_goals simp only [h]

/-! ### An entry becomes FIRM (R60, R100) -/

theorem makeEntryFirm_eq (s : State) (e : QueueEntry) : ∃ late : Bool,
    (late = true ↔ s.hasQueued (·.objectsTo e.id) = true ∨ (s.cq.pendingObjections.any fun o => o.1 = e.id) = true
      ∨ (e.isLocal && s.sp.tickets.any fun x => x.unfinished && x.number = e.id.seq && x.kind.fits e.content
            && x.withdrawRequest && !x.withdrawQueued) = true)
    ∧ s.makeEntryFirm e = (((s.modCq fun cq => { cq with
          entries := cq.entries.map fun x => if x.id = e.id then { x with phase := .firm } else x
          pendingObjections := cq.pendingObjections.filter fun o => o.1 ≠ e.id }).dropBodies (·.objectsTo e.id)).doIf
        e.isLocal (reportTicket e.id.seq e.content fun t =>
          { t with state := .firm, withdrawRequest := false, withdrawQueued := false })).doIf late (raise .lateObjection) :=
  ⟨_, by rw [Bool.or_eq_true, Bool.or_eq_true, or_assoc], rfl⟩

theorem hasEvent_doIf_raise_of_ne {c : Bool} {f k : Event} (h : k ≠ f) (s : State) :
    (s.doIf c (raise f)).hasEvent k = s.hasEvent k := by
  cases c
  · rfl
  · exact hasEvent_raise_of_ne h s

/-- A report raises TICKET at most (R182). -/
theorem hasEvent_updateTickets_of_ne {hit : Ticket → Bool} {f : Ticket → Ticket} {k : Event} (h : k ≠ .ticket) (s : State) :
    (s.updateTickets hit f).hasEvent k = s.hasEvent k := hasEvent_doIf_raise_of_ne h _

theorem hasEvent_doIf_reportTicket_of_ne {c : Bool} {n : Byte} {d : ProposalContent} {f : Ticket → Ticket} {k : Event}
    (h : k ≠ .ticket) (s : State) : (s.doIf c (reportTicket n d f)).hasEvent k = s.hasEvent k := by
  cases c
  · rfl
  · exact hasEvent_updateTickets_of_ne h s

theorem hasEvent_doIf_raise_same (c : Bool) (e : Event) (s : State) :
    (s.doIf c (raise e)).hasEvent e = (s.hasEvent e || c) := by
  cases c
  · simp
  · simp [hasEvent_raise_same]

theorem tickets_doIf_raise (c : Bool) (f : Event) (s : State) : (s.doIf c (raise f)).sp.tickets = s.sp.tickets := by
  cases c <;> rfl

/-! ### The entry of the target after an application -/

theorem applied_entry_ne {i : StationId} (h : i ≠ e.target) : (s.applied e).entry i = s.entry i := by
  cases hn : s.isNoEffect e with
  | true => exact entry_congr (congrArg _ (applied_of_noEffect hn).1) i
  | false =>
    rw [entry_congr (s := (s.dropEntry e.id).applyContent e) (congrArg _ (applied_of_effect hn).1)]
    have hdropped : (s.dropEntry e.id).entry i = s.entry i := entry_congr (by simp) i
    cases hc : e.content with
    | admission fp kind => simp only [applyContent, hc, entry_setEntry_ne _ h, hdropped]
    | remove k r =>
      have hk : i ≠ k := by simpa [QueueEntry.target, targetOf, hc] using h
      simp only [applyContent, hc, entry_setEntry_ne _ hk, hdropped]
    | shed => simp only [applyContent, hc, entry_setEntry_ne _ h, hdropped]
    | demand d => simp only [applyContent, hc]; exact (entry_congr (by simp) i).trans hdropped
    | clearTrip k => simp only [applyContent, hc]; exact (entry_congr (by simp) i).trans hdropped

theorem applied_of_admission {fp : Word} {kind : StationKind} (hlen : s.rt.entries.length = 16)
    (hc : e.content = .admission fp kind) :
    (s.applied e).entry e.target = (if (s.entry e.target).state = .active then s.entry e.target
        else ⟨.active, kind, some s.tb.en, 0, false, none⟩)
      ∧ (s.applied e).cq.duty = s.cq.duty ∧ (s.applied e).fu.tripSet = s.fu.tripSet := by
  have hnone : s.isNoEffect e = decide ((s.entry e.target).state = .active) := by simp only [isNoEffect, hc]
  by_cases hactive : (s.entry e.target).state = .active
  · obtain ⟨hrt, hduty, htrip⟩ := applied_of_noEffect (hnone.trans (decide_eq_true hactive))
    exact ⟨by rw [if_pos hactive, entry_congr (congrArg _ hrt)], hduty, htrip⟩
  · obtain ⟨hrt, hduty, htrip⟩ := applied_of_effect (hnone.trans (decide_eq_false hactive))
    rw [hduty, htrip, entry_congr (congrArg _ hrt), if_neg hactive]
    simp only [applyContent, hc]
    exact ⟨by rw [entry_setEntry_self _ _ (by simpa using hlen)]; simp, by simp, by simp⟩

theorem applied_of_remove {i : StationId} {r : RemoveReason} (hlen : s.rt.entries.length = 16)
    (hc : e.content = .remove i r) :
    (s.applied e).entry i = (if (s.entry i).state = .absent then s.entry i else ⟨.absent, .phase, none, 0, false, none⟩)
      ∧ (s.applied e).cq.duty = s.cq.duty ∧ (s.applied e).fu.tripSet = s.fu.tripSet := by
  have htarget : e.target = i := by simp [QueueEntry.target, targetOf, hc]
  have hnone : s.isNoEffect e = decide ((s.entry i).state = .absent) := by
    simp [isNoEffect, hc, htarget, RosterEntry.isPresent]
  by_cases habsent : (s.entry i).state = .absent
  · obtain ⟨hrt, hduty, htrip⟩ := applied_of_noEffect (hnone.trans (decide_eq_true habsent))
    exact ⟨by rw [if_pos habsent, entry_congr (congrArg _ hrt)], hduty, htrip⟩
  · obtain ⟨hrt, hduty, htrip⟩ := applied_of_effect (hnone.trans (decide_eq_false habsent))
    rw [hduty, htrip, entry_congr (congrArg _ hrt), if_neg habsent]
    simp only [applyContent, hc]
    exact ⟨by rw [entry_setEntry_self _ _ (by simpa using hlen)]; rfl, by simp, by simp⟩

theorem applied_of_shed (hlen : s.rt.entries.length = 16) (hc : e.content = .shed) :
    (s.applied e).entry e.target
        = (if (s.entry e.target).state = .active then { s.entry e.target with state := .shed } else s.entry e.target)
      ∧ (s.applied e).cq.duty = s.cq.duty ∧ (s.applied e).fu.tripSet = s.fu.tripSet := by
  have hnone : s.isNoEffect e = decide ((s.entry e.target).state ≠ .active) := by simp only [isNoEffect, hc]
  by_cases hactive : (s.entry e.target).state = .active
  · obtain ⟨hrt, hduty, htrip⟩ := applied_of_effect (hnone.trans (decide_eq_false (not_not.mpr hactive)))
    rw [hduty, htrip, entry_congr (congrArg _ hrt), if_pos hactive]
    simp only [applyContent, hc]
    have hdropped : (s.dropEntry e.id).entry e.target = s.entry e.target := entry_congr (by simp) _
    exact ⟨by rw [entry_setEntry_self _ _ (by simpa using hlen), hdropped], by simp, by simp⟩
  · obtain ⟨hrt, hduty, htrip⟩ := applied_of_noEffect (hnone.trans (decide_eq_true hactive))
    exact ⟨by rw [if_neg hactive, entry_congr (congrArg _ hrt)], hduty, htrip⟩

theorem applied_of_demand {d : Word} (hc : e.content = .demand d) : (s.applied e).cq.duty = d ∧ (s.applied e).rt = s.rt
    ∧ (s.applied e).fu.tripSet = s.fu.tripSet := by
  obtain ⟨hrt, hduty, htrip⟩ := applied_of_effect (s := s) (e := e) (by simp only [isNoEffect, hc])
  rw [hrt, hduty, htrip]
  simp [applyContent, hc]

theorem getLsbD_stationBit (i j : StationId) : (stationBit i).getLsbD j.val = decide (j = i) := by
  revert i j; decide

theorem applied_of_clearTrip {i : StationId} (hc : e.content = .clearTrip i) :
    (∀ j : StationId, (s.applied e).fu.tripSet.getLsbD j.val = (s.fu.tripSet.getLsbD j.val && j ≠ i))
      ∧ (s.applied e).cq.duty = s.cq.duty ∧ (s.applied e).rt = s.rt := by
  have hnone : s.isNoEffect e = !s.fu.tripSet.getLsbD i.val := by simp only [isNoEffect, hc]
  cases hset : s.fu.tripSet.getLsbD i.val with
  | true =>
    obtain ⟨hrt, hduty, htrip⟩ := applied_of_effect (s := s) (e := e) (by rw [hnone, hset]; rfl)
    rw [hrt, hduty, htrip]
    simp only [applyContent, hc]
    refine ⟨fun j => ?_, by simp, by simp⟩
    simp only [setTripSet_kept, dropEntry_kept, BitVec.getLsbD_and, BitVec.getLsbD_not, getLsbD_stationBit]
    simp
  | false =>
    obtain ⟨hrt, hduty, htrip⟩ := applied_of_noEffect (s := s) (e := e) (by rw [hnone, hset]; rfl)
    refine ⟨fun j => ?_, hduty, hrt⟩
    rw [htrip]
    by_cases hj : j = i
    · rw [hj, hset]; rfl
    · simp [hj]

/-- The ticket of a local entry that is applied (R114). -/
theorem applied_ticket {x : Ticket} (hl : e.isLocal = true) (hx : x ∈ s.sp.tickets) (hu : x.unfinished = true)
    (hn : x.number = e.id.seq) (hk : x.kind.fits e.content = true) (hr : x.reserved = false) :
    { x with state := .applied (s.isNoEffect e), withdrawRequest := false, withdrawQueued := false }
        ∈ (s.applied e).sp.tickets
      ∧ (s.applied e).hasEvent .ticket = true := by
  have hfinished : ({ x with state := .applied (s.isNoEffect e), withdrawRequest := false, withdrawQueued := false } : Ticket)
      = Ticket.finish (.applied (s.isNoEffect e)) x := by simp [Ticket.finish, hr]
  have hx' : x ∈ ((s.dropEntry e.id).doIf (!s.isNoEffect e) (applyContent e)).sp.tickets := by simpa using hx
  rw [hfinished, applied, hl, doIf_true, ← hn]
  exact ⟨mem_tickets_reportTicket _ hx' hu hk hr, hasEvent_reportTicket hx' hu hk hr rfl⟩

/-- A ticket stands for a DEMAND, a CLEAR_TRIP or the own REMOVE(LEFT) (R182). -/
theorem content_of_fits {k : TicketKind} {d : ProposalContent} (h : k.fits d = true) :
    (∃ x, d = .demand x) ∨ (∃ i, d = .clearTrip i) ∨ ∃ i, d = .remove i .left := by
  cases k <;> cases d <;> simp_all [TicketKind.fits]
  next i r => cases r <;> simp_all

/-- After a report the application changes the station state at most by the own REMOVE(LEFT), which leaves it standing. -/
theorem applyToOwn_of_fits {k : TicketKind} (h : k.fits e.content = true) :
    s.applyToOwn e = s ∨ s.applyToOwn e = s.enterDormant := by
  obtain ⟨x, hc⟩ | ⟨i, hc⟩ | ⟨i, hc⟩ := content_of_fits h
  · exact .inl (applyToOwn_of_others (.inr (.inr (.inl ⟨x, hc⟩))))
  · exact .inl (applyToOwn_of_others (.inr (.inr (.inr ⟨i, hc⟩))))
  · simp only [applyToOwn, hc]
    split
    · exact .inl rfl
    · cases s.isMember
      · exact .inl rfl
      · exact .inr rfl

theorem applyToOwn_admission {fp : Word} {kind : StationKind} (hc : e.content = .admission fp kind)
    (ht : e.target = s.ownId) (hs : s.sc.station = .joining) : s.applyToOwn e = s.becomeMember := by
  simp [applyToOwn, hc, ht, hs]

theorem applyToOwn_left (hc : e.content = .remove s.ownId .left) (hm : s.isMember = true) :
    s.applyToOwn e = s.enterDormant := by
  simp [applyToOwn, QueueEntry.target, targetOf, hc, hm]

theorem applyToOwn_lost (hc : e.content = .remove s.ownId .lost) (hm : s.isMember = true) :
    s.applyToOwn e = s.listenRemoved := by
  simp [applyToOwn, QueueEntry.target, targetOf, hc, hm]

theorem becomeMember_fields (h : s.sc.leavePending = false) : s.becomeMember.sc.station = .member
    ∧ s.becomeMember.sc.tracked = none ∧ s.becomeMember.rt.copySource = .own
    ∧ s.becomeMember.hasEvent .state = true := by
  rw [becomeMember_of_not_pending h]
  refine ⟨by simp, by simp, by simp, ?_⟩
  exact (steady_memberTests (steady_modSc (steady_modRt (Steady.rfl' (w := true)) id) id)).hasEvent
    (hasEvent_moveTo .member s)

end State

open State in
/-- Settles O21: the change by the kind of the entry, then the station state that follows it, which leaves the change. -/
theorem applicationOfAnEntry : Obligations.ApplicationOfAnEntry := by
  unfold Obligations.ApplicationOfAnEntry
  refine ⟨fun s e hlen => ?shared, fun s e noEffect hno => ?station, fun s e => ?firm⟩
  case shared =>
    obtain ⟨hentries, hqueue, hduty, htrip⟩ := applyToOwn_shared e (s.applied e)
    have hentry (i : StationId) : (s.applyEntry e).entry i = (s.applied e).entry i := entry_congr hentries i
    rw [← applyEntry_eq] at hqueue hduty htrip
    refine ⟨by rw [hqueue]; simp, fun i hi => (hentry i).trans (applied_entry_ne hi), fun fp kind hc => ?_, fun i r hc => ?_,
      fun hc => ?_, fun d hc => ?_, fun i hc => ?_⟩
    · rw [hentry, hduty, htrip]; exact applied_of_admission hlen hc
    · rw [hentry, hduty, htrip]; exact applied_of_remove hlen hc
    · rw [hentry, hduty, htrip]; exact applied_of_shed hlen hc
    · rw [applyEntry_eq, applyToOwn_of_others (.inr (.inr (.inl ⟨d, hc⟩)))]; exact applied_of_demand hc
    · rw [applyEntry_eq, applyToOwn_of_others (.inr (.inr (.inr ⟨i, hc⟩)))]; exact applied_of_clearTrip hc
  case station =>
    obtain rfl : noEffect = s.isNoEffect e := Bool.eq_iff_iff.mpr (hno.trans isNoEffect_iff.symm)
    have hown : (s.applied e).ownId = s.ownId := ownId_congr (by simp)
    have hmember : (s.applied e).isMember = s.isMember := isMember_congr (by simp)
    refine ⟨fun hl x hx hu hn hk hr => ?_, fun h => ?_, fun ⟨fp, kind, hc⟩ ht hs hp => ?_, fun hc hm hg => ?_,
      fun hc hm hg => ?_⟩ <;> rw [applyEntry_eq]
    · obtain ⟨hmem, hevent⟩ := applied_ticket hl hx hu hn hk hr
      obtain h | h := applyToOwn_of_fits (s := s.applied e) hk <;> rw [h]
      · exact ⟨hmem, hevent⟩
      · exact ⟨mem_tickets_enterDormant hmem rfl, (steady_enterDormant (Steady.rfl' (w := true))).hasEvent hevent⟩
    · rw [applyToOwn_of_others (by rwa [hown])]
      simp
    · rw [applyToOwn_admission hc (by rw [ht, hown]) (by simpa using hs)]
      exact becomeMember_fields (by simpa using hp)
    · rw [applyToOwn_left (by rw [hc, hown]) (hmember.trans hm)]
      refine ⟨by simp, outputsOff_enterDormant (by simpa using hg), by simp, ?_, by simp, hasEvent_enterDormant _⟩
      simp [refEpoch]
    · rw [applyToOwn_lost (by rw [hc, hown]) (hmember.trans hm)]
      refine ⟨by simp, by simp, by simp [listenEpochs], by simp, outputsOff_listenRemoved (by simpa using hg), by simp, ?_,
        hasEvent_listenRemoved _⟩
      intro y hy
      simp only [listenRemoved_kept, List.mem_filter] at hy
      by_contra hne
      rw [isQuery_eq_false_iff.mpr hne] at hy
      exact Bool.false_ne_true hy.2
  case firm =>
    intro t
    obtain ⟨late, hlate, heq⟩ := makeEntryFirm_eq s e
    have ht : t = _ := heq
    rw [ht]
    refine ⟨by simp, by simp, by simp, ?_, fun hl x hx hu hn hk hr => ?_, by simp, by simp, by simp, by simp, by simp, by simp,
      by simp⟩
    · rw [hasEvent_doIf_raise_same, hasEvent_doIf_reportTicket_of_ne (by decide), Bool.or_assoc, Bool.or_assoc]
      refine congrArg₂ _ (by simp [hasEvent]) (Bool.eq_iff_iff.mpr ?_)
      rw [hlate, Bool.or_eq_true, Bool.or_eq_true]
      rfl
    · have hx' : x ∈ ((s.modCq fun cq => { cq with
          entries := cq.entries.map fun x => if x.id = e.id then { x with phase := .firm } else x
          pendingObjections := cq.pendingObjections.filter fun o => o.1 ≠ e.id }).dropBodies
            (·.objectsTo e.id)).sp.tickets := by simpa using hx
      have hfirm := mem_tickets_reportTicket (fun y : Ticket =>
        { y with state := .firm, withdrawRequest := false, withdrawQueued := false }) hx' hu hk hr
      rw [hl, doIf_true, ← hn, (tickets_doIf_raise _ _ _)]
      exact hfirm

end Sys2Proof.Machine
end

section
/-! Step 3 of a boundary: silence, losses and the vote, and the entry to RESYNC of a loser (R15, R73, R74, R76). -/

namespace Sys2Proof.Machine

variable {s t : State}

namespace State

/-! ### RESYNC (R15) -/

theorem emptyQueue_tickets_of_finished (r : VoidReason) (h : ∀ x ∈ s.sp.tickets, x.unfinished = false) :
    (s.emptyQueue r).sp.tickets = s.sp.tickets := by
  have hreports (l : List QueueEntry) : ∀ u : State, (∀ x ∈ u.sp.tickets, x.unfinished = false) →
      (l.foldl (fun u e => u.reportTicket e.id.seq e.content (Ticket.finish (.voided r))) u).sp.tickets = u.sp.tickets := by
    induction l with
    | nil => exact fun _ _ => rfl
    | cons e l ih =>
      intro u hu
      have hsame := updateTickets_of_finished (hit := fun x => x.number = e.id.seq && x.kind.fits e.content && !x.reserved)
        (f := Ticket.finish (.voided r)) hu
      exact (ih (u.reportTicket e.id.seq e.content (Ticket.finish (.voided r))) fun x hx => hu x (hsame ▸ hx)).trans hsame
  simp only [emptyQueue, modCq]
  exact hreports _ s h

theorem moveTo_cq_of_none (new : StationState) (h : s.cq.pendingObjections = []) : (s.moveTo new).cq = s.cq := by
  have hcq : ∀ x : CommitQueue, x.pendingObjections = [] → { x with pendingObjections := [] } = x := by
    intro x hx
    rw [← hx]
  simp [moveTo, dropMemberWork, hcq _ h]

/-- RESYNC: the queue is empty, the copy is the own one of before, every ticket is VOIDED. -/
@[simp] theorem enterResync_kept (key : Option Nat) (s : State) :
    (s.enterResync key).sc = { s.sc with
        station := .resync, withdrawOwed := false, quiet := 0, standing := .none, leavePending := false, tracked := none }
      ∧ (s.enterResync key).tb = { s.tb with enAdopted := false }
      ∧ (s.enterResync key).rt = { s.rt with
        copySource := .old, armed := false, expectedKey := key, countdown := 0, pendingReplies := 0, heardGroup := none }
      ∧ (s.enterResync key).cq = { s.cq with entries := [], pendingObjections := [] }
      ∧ (s.enterResync key).bi.queue = s.bi.queue.filter (fun y => !y.body.isShared)
      ∧ (s.enterResync key).fu.tripSet = s.fu.tripSet ∧ (s.enterResync key).sp.record = s.sp.record
      ∧ (s.enterResync key).sp.tickets = s.ticketsVoided .resync := by
  have hvoided : ∀ x ∈ (s.voidTickets .resync).sp.tickets, x.unfinished = false := fun x hx =>
    unfinished_of_mem_ticketsVoided (by simpa using hx)
  have hemptied := emptyQueue_tickets_of_finished .resync hvoided
  have hmoved := moveTo_tickets_of_finished .resync (s := (s.voidTickets .resync).emptyQueue .resync)
    fun x hx => hvoided x (hemptied ▸ hx)
  have hcq := moveTo_cq_of_none .resync (s := (s.voidTickets .resync).emptyQueue .resync) (by simp)
  simp [enterResync, moveTo_tb, moveTo_queue, hmoved, hemptied, hcq]

theorem isMember_of_resync (h : s.sc.station = .resync) : s.isMember = false := by simp [isMember, h]

theorem outputsOff_enterResync (key : Option Nat) (hg : s.os.GatesOk) : (s.enterResync key).OutputsOff :=
  outputsOff_of_settled (settle_settled _) (isMember_of_resync (by simp))
    ((steady_enterResync (w := true) .rfl').gates hg)

/-! ### Silence (R73) -/

theorem entry_of_map {f : StationId → RosterEntry} (h : s.rt.entries = allStations.map f) (i : StationId) :
    s.entry i = f i := by
  rw [entry, h, getD_map_allStations]

theorem silenceOf_eq (limit : Nat) (e : RosterEntry) : silenceOf limit e = if e.state = .absent then e
    else if e.heard then { e with silent := 0 } else { e with silent := min limit (e.silent + 1) } := by
  cases hs : e.state <;> simp [silenceOf, RosterEntry.isPresent, hs]

theorem entry_updateSilence (admitted : StationId → Bool) (s : State) (i : StationId) :
    (s.updateSilence admitted).entry i
      = if i = s.ownId ∨ admitted i = true ∨ (s.entry i).state = .absent then s.entry i
        else if (s.entry i).heard then { s.entry i with silent := 0 }
        else { s.entry i with silent := min s.lossEpochs ((s.entry i).silent + 1) } := by
  rw [entry_of_map (s := s.updateSilence admitted)
    (f := fun i => if i = s.ownId || admitted i then s.entry i else silenceOf s.lossEpochs (s.entry i)) rfl i, silenceOf_eq]
  by_cases hown : i = s.ownId <;> by_cases hadm : admitted i = true <;> simp [hown, hadm]

theorem entry_clearHeard (s : State) (i : StationId) : s.clearHeard.entry i = { s.entry i with heard := false } := by
  simp only [entry, clearHeard, modRt, List.getD_eq_getElem?_getD, List.getElem?_map]
  cases s.rt.entries[i.val]? <;> rfl

@[simp] theorem updateSilence_kept (admitted : StationId → Bool) (s : State) : (s.updateSilence admitted).sc = s.sc
    ∧ (s.updateSilence admitted).tb = s.tb ∧ (s.updateSilence admitted).bi = s.bi ∧ (s.updateSilence admitted).cq = s.cq
    ∧ (s.updateSilence admitted).os = s.os ∧ (s.updateSilence admitted).fu = s.fu
    ∧ (s.updateSilence admitted).sp = s.sp := by
  simp [updateSilence]

@[simp] theorem clearHeard_kept (s : State) : s.clearHeard.sc = s.sc ∧ s.clearHeard.tb = s.tb ∧ s.clearHeard.bi = s.bi
    ∧ s.clearHeard.cq = s.cq ∧ s.clearHeard.os = s.os ∧ s.clearHeard.fu = s.fu ∧ s.clearHeard.sp = s.sp := by
  simp [clearHeard]

/-! ### Losses (R74) -/

/-- A peer that is silent for LOSS_EPOCHS and that no REMOVE names, in the Commit Queue or in the transmit queue. -/
def isLost (s : State) (i : StationId) : Bool := i ≠ s.ownId && (s.entry i).isPresent && (s.entry i).silent = s.lossEpochs
  && !s.removePending i && !s.hasQueued (·.isRemoveOf i)

theorem proposeLoss_of_lost {i : StationId} (h : s.isLost i = true) (hq : s.bi.queue.length < 6) :
    s.proposeLoss i = s.proposed (.remove i .lost) := by
  have hp : s.proposeLoss i = orKeep (s.offerPropose (.remove i .lost)) s := if_pos h
  rw [hp, offerPropose_of_room _ hq]
  rfl

theorem proposeLoss_of_full {i : StationId} (hq : 6 ≤ s.bi.queue.length) : s.proposeLoss i = s := by
  rw [proposeLoss, offerPropose_of_full _ hq]
  exact ite_self s

theorem proposeLoss_of_not_lost {i : StationId} (h : s.isLost i = false) : s.proposeLoss i = s :=
  if_neg (Bool.eq_false_iff.mp h)

theorem isLost_iff {i : StationId} : s.isLost i = true ↔ i ≠ s.ownId ∧ (s.entry i).state ≠ .absent
    ∧ (s.entry i).silent = s.lossEpochs ∧ s.removePending i = false ∧ ∀ y ∈ s.bi.queue, y.body.isRemoveOf i = false := by
  rw [← hasQueued_eq_false_iff]
  simp [isLost, RosterEntry.isPresent, and_assoc]

theorem proposeLoss_cases (s : State) (i : StationId) : s.proposeLoss i = s ∨ s.proposeLoss i = s.proposed (.remove i .lost) := by
  cases h : s.isLost i with
  | false => exact .inl (proposeLoss_of_not_lost h)
  | true =>
    obtain hq | hq := Nat.lt_or_ge s.bi.queue.length 6
    · exact .inr (proposeLoss_of_lost h hq)
    · exact .inl (proposeLoss_of_full hq)

/-- A loss proposal changes the transmit queue and the next sequence number at most. -/
theorem proposeLosses_kept (s : State) : s.proposeLosses.sc = s.sc ∧ s.proposeLosses.tb = s.tb
    ∧ s.proposeLosses.rt = s.rt ∧ s.proposeLosses.os = s.os ∧ s.proposeLosses.sp = s.sp
    ∧ s.proposeLosses.cq.entries = s.cq.entries ∧ s.proposeLosses.cq.duty = s.cq.duty
    ∧ s.proposeLosses.fu.tripSet = s.fu.tripSet := by
  refine ⟨foldl_keeps (P := (·.sc)) ?_ _ s, foldl_keeps (P := (·.tb)) ?_ _ s, foldl_keeps (P := (·.rt)) ?_ _ s, foldl_keeps (P := (·.os)) ?_ _ s,
    foldl_keeps (P := (·.sp)) ?_ _ s, foldl_keeps (P := (·.cq.entries)) ?_ _ s, foldl_keeps (P := (·.cq.duty)) ?_ _ s,
    foldl_keeps (P := (·.fu.tripSet)) ?_ _ s⟩ <;>
  · intro s i
    obtain h | h := proposeLoss_cases s i <;> simp [h]

/-! ### The vote (R76) -/

theorem losesVote_iff : s.losesVote = true ↔
    (s.voters.filter s.agrees).length + 1 < (s.voters.filter fun i => !s.agrees i).length
      ∨ ((s.voters.filter s.agrees).length + 1 = (s.voters.filter fun i => !s.agrees i).length
          ∧ lowestOf (s.voters.filter fun i => !s.agrees i) < min s.ownId.val (lowestOf (s.voters.filter s.agrees))) := by
  simp only [losesVote, Bool.or_eq_true, Bool.and_eq_true, decide_eq_true_iff]

theorem elim_eq_true_iff {α : Type} {o : Option α} {p : α → Bool} : o.elim false p = true ↔ ∃ r, o = some r ∧ p r = true := by
  cases o <;> simp

theorem mem_voters {i : StationId} : i ∈ s.voters ↔ i ≠ s.ownId ∧ (s.entry i).state ≠ .absent ∧ (s.entry i).heard = true
    ∧ ∃ r, (s.entry i).lastBeat = some r ∧ r.resync = false := by
  simp [voters, mem_allStations, RosterEntry.isPresent, elim_eq_true_iff, and_assoc]

theorem agrees_iff {i : StationId} : s.agrees i = true ↔
    ∃ r, (s.entry i).lastBeat = some r ∧ r.en = s.tb.en - 1 ∧ r.digest = s.rt.epochDigest := by
  simp [agrees, elim_eq_true_iff]

theorem pairwise_voters (s : State) : s.voters.Pairwise (· < ·) := by
  have hall : allStations.Pairwise (· < ·) := by decide
  exact hall.filter _

/-! ### Step 3 -/

theorem stepThree_of_member (admitted : StationId → Bool) (h : s.isMember = true) : s.stepThree admitted
    = (s.updateSilence admitted).proposeLosses.clearHeard.doIf (s.updateSilence admitted).proposeLosses.losesVote
        (enterResync none) := by
  have hm : (s.updateSilence admitted).proposeLosses.isMember = true :=
    (isMember_congr (by rw [(proposeLosses_kept _).1]; simp)).trans h
  simp [stepThree, countsSilence, h, hm]

theorem stepThree_of_follower (admitted : StationId → Bool) (h : s.isFollower = true) : s.stepThree admitted
    = if s.hasCopy then (s.updateSilence admitted).clearHeard else s := by
  have hm : s.isMember = false := by
    simp only [isFollower, isMember, Bool.or_eq_true, decide_eq_true_iff] at h ⊢
    obtain (h | h) | h := h <;> simp [h]
  have hm' : (s.updateSilence admitted).isMember = false := (isMember_congr (by simp)).trans hm
  cases hc : s.hasCopy <;> simp [stepThree, countsSilence, h, hm, hm', hc]

theorem stepThree_lost (admitted : StationId → Bool) (h : s.isMember = true)
    (hl : (s.updateSilence admitted).proposeLosses.losesVote = true) :
    (s.stepThree admitted).sc.station = .resync ∧ (s.stepThree admitted).cq.entries = []
      ∧ (s.stepThree admitted).rt.copySource = .old ∧ (s.os.GatesOk → (s.stepThree admitted).OutputsOff)
      ∧ (s.stepThree admitted).fu.tripSet = s.fu.tripSet ∧ (s.stepThree admitted).cq.duty = s.cq.duty
      ∧ (s.stepThree admitted).sp.tickets = s.ticketsVoided .resync := by
  obtain ⟨-, -, -, hos, hsp, -, hduty, htrip⟩ := proposeLosses_kept (s.updateSilence admitted)
  rw [stepThree_of_member admitted h, hl, doIf_true]
  refine ⟨by simp, by simp, by simp, fun hg => outputsOff_enterResync none ?_, by simp [htrip], by simp [hduty],
    by simp [ticketsVoided, hsp]⟩
  rw [(clearHeard_kept _).2.2.2.2.1, hos]
  simpa using hg

end State

open State in
/-- Settles O22. -/
theorem divergenceVote : Obligations.DivergenceVote := by
  unfold Obligations.DivergenceVote
  refine ⟨fun s => losesVote_iff, fun s => ⟨pairwise_voters s, fun i => mem_voters⟩, fun s i => agrees_iff,
    ⟨rfl, fun _ _ => rfl⟩, entry_updateSilence, fun s => rfl, fun s i => ⟨fun ⟨hi, hp, hl, hr, hq, hroom⟩ => ?_, fun h => ?_⟩,
    fun a s hm => ⟨stepThree_lost a hm, fun hl => ?_⟩, fun a s hf => ⟨fun hc => ?_, fun hc => ?_⟩, entry_clearHeard⟩
  · rw [proposeLoss_of_lost (isLost_iff.mpr ⟨hi, hp, hl, hr, hq⟩) hroom]
    simp
  · obtain hroom | hfull := Nat.lt_or_ge s.bi.queue.length 6
    · refine proposeLoss_of_not_lost (Bool.eq_false_iff.mpr fun hlost => ?_)
      obtain ⟨hi, hp, hl, hr, hq⟩ := isLost_iff.mp hlost
      obtain h | h | h | h | ⟨y, hy, h⟩ | h := h
      · exact hi h
      · exact hp h
      · exact h hl
      · exact absurd (h.symm.trans hr) (by decide)
      · exact absurd (h.symm.trans (hq y hy)) (by decide)
      · exact absurd hroom (Nat.not_lt.mpr h)
    · exact proposeLoss_of_full hfull
  · rw [stepThree_of_member a hm, hl, doIf_false]
    exact ⟨rfl, by simp [(proposeLosses_kept _).1]⟩
  · rw [stepThree_of_follower a hf, if_pos hc]
  · rw [stepThree_of_follower a hf, hc]; rfl

end Sys2Proof.Machine
end

section
/-! The work of a boundary after its three steps, part by part: what each part leaves, and that a station that comes out of
it as a member has the shared state it went in with (R22, R80, R107). -/

namespace Sys2Proof.Machine

variable {s t u : State}

namespace State

/-! ### What the offers of a boundary leave -/

theorem orKeep_offer (body : QueuedBody) (s : State) :
    orKeep (s.offer body) s = s.offered body ∨ orKeep (s.offer body) s = s := by
  obtain hq | hq := Nat.lt_or_ge s.bi.queue.length 6
  · exact .inl (by rw [offer_of_room body hq]; rfl)
  · exact .inr (by rw [offer_of_full body hq]; rfl)

@[simp] theorem enqueueBeat_kept (f : BeatFields) (s : State) : (s.enqueueBeat f).sc = s.sc
    ∧ (s.enqueueBeat f).tb = s.tb ∧ (s.enqueueBeat f).rt = s.rt ∧ (s.enqueueBeat f).cq = s.cq
    ∧ (s.enqueueBeat f).pu = s.pu ∧ (s.enqueueBeat f).os = s.os ∧ (s.enqueueBeat f).sp = s.sp
    ∧ (s.enqueueBeat f).fu.tripSet = s.fu.tripSet ∧ (s.enqueueBeat f).bi.line = s.bi.line := by
  unfold enqueueBeat
  split
  · simp
  · obtain h | h := orKeep_offer (.beat f) s <;> simp [h]

@[simp] theorem takeDigest_kept (s : State) : s.takeDigest.sc = s.sc ∧ s.takeDigest.tb = s.tb
    ∧ s.takeDigest.cq = s.cq ∧ s.takeDigest.pu = s.pu ∧ s.takeDigest.os = s.os ∧ s.takeDigest.sp = s.sp
    ∧ s.takeDigest.fu = s.fu ∧ s.takeDigest.bi = s.bi
    ∧ s.takeDigest.rt = { s.rt with epochDigest := s.digest, armed := s.isMember || s.hasCopy } := by
  simp [takeDigest]

@[simp] theorem buildBeat_kept (n : Nat) (s : State) : (s.buildBeat n).sc = s.sc
    ∧ (s.buildBeat n).tb = s.tb ∧ (s.buildBeat n).rt = s.rt ∧ (s.buildBeat n).cq = s.cq
    ∧ (s.buildBeat n).pu = s.pu ∧ (s.buildBeat n).os = s.os ∧ (s.buildBeat n).sp = s.sp
    ∧ (s.buildBeat n).fu.tripSet = s.fu.tripSet ∧ (s.buildBeat n).bi.line = s.bi.line := by
  simp [buildBeat]

@[simp] theorem offerObjections_kept (l : List (ProposalId × ObjectReason)) (s : State) :
    (offerObjections l s).sc = s.sc ∧ (offerObjections l s).tb = s.tb ∧ (offerObjections l s).rt = s.rt
      ∧ (offerObjections l s).pu = s.pu ∧ (offerObjections l s).os = s.os ∧ (offerObjections l s).sp = s.sp
      ∧ (offerObjections l s).cq.entries = s.cq.entries ∧ (offerObjections l s).cq.duty = s.cq.duty
      ∧ (offerObjections l s).fu.tripSet = s.fu.tripSet ∧ (offerObjections l s).bi.line = s.bi.line := by
  induction l generalizing s with
  | nil => simp [offerObjections]
  | cons o l ih =>
    obtain hq | hq := Nat.lt_or_ge s.bi.queue.length 6
    · simp [offerObjections, offer_of_room _ hq, ih]
    · simp [offerObjections, offer_of_full _ hq]

@[simp] theorem offerOwedWithdrawal_kept (s : State) :
    s.offerOwedWithdrawal.sc.station = s.sc.station ∧ s.offerOwedWithdrawal.sc.standing = s.sc.standing
      ∧ s.offerOwedWithdrawal.sc.leavePending = s.sc.leavePending ∧ s.offerOwedWithdrawal.sc.tracked = s.sc.tracked
      ∧ s.offerOwedWithdrawal.tb = s.tb ∧ s.offerOwedWithdrawal.rt = s.rt ∧ s.offerOwedWithdrawal.cq = s.cq
      ∧ s.offerOwedWithdrawal.pu = s.pu ∧ s.offerOwedWithdrawal.os = s.os ∧ s.offerOwedWithdrawal.sp = s.sp
      ∧ s.offerOwedWithdrawal.fu.tripSet = s.fu.tripSet ∧ s.offerOwedWithdrawal.bi.line = s.bi.line := by
  unfold offerOwedWithdrawal
  split
  · split
    · obtain hq | hq := Nat.lt_or_ge s.bi.queue.length 6
      · simp [offer_of_room _ hq]
      · simp [offer_of_full _ hq]
    · simp
  · simp

@[simp] theorem offerWithdrawal_kept (e : QueueEntry) (s : State) : (s.offerWithdrawal e).sc = s.sc
    ∧ (s.offerWithdrawal e).tb = s.tb ∧ (s.offerWithdrawal e).rt = s.rt ∧ (s.offerWithdrawal e).cq = s.cq
    ∧ (s.offerWithdrawal e).pu = s.pu ∧ (s.offerWithdrawal e).os = s.os
    ∧ (s.offerWithdrawal e).sp.record = s.sp.record
    ∧ (s.offerWithdrawal e).fu.tripSet = s.fu.tripSet ∧ (s.offerWithdrawal e).bi.line = s.bi.line := by
  unfold offerWithdrawal
  split
  · obtain hq | hq := Nat.lt_or_ge s.bi.queue.length 6
    · simp [offer_of_room _ hq]
    · simp [offer_of_full _ hq]
  · simp

/-- What the withdraw requests leave, one after the other. -/
theorem foldl_offerWithdrawal_kept (l : List QueueEntry) (s : State) : (l.foldl offerWithdrawal s).sc = s.sc
    ∧ (l.foldl offerWithdrawal s).tb = s.tb ∧ (l.foldl offerWithdrawal s).rt = s.rt
    ∧ (l.foldl offerWithdrawal s).cq = s.cq ∧ (l.foldl offerWithdrawal s).pu = s.pu
    ∧ (l.foldl offerWithdrawal s).os = s.os ∧ (l.foldl offerWithdrawal s).sp.record = s.sp.record
    ∧ (l.foldl offerWithdrawal s).fu.tripSet = s.fu.tripSet ∧ (l.foldl offerWithdrawal s).bi.line = s.bi.line := by
  induction l generalizing s with
  | nil => simp
  | cons e l ih => simpa using ih (s.offerWithdrawal e)

@[simp] theorem offerAtBoundary_kept (s : State) :
    s.offerAtBoundary.sc.station = s.sc.station ∧ s.offerAtBoundary.sc.standing = s.sc.standing
      ∧ s.offerAtBoundary.sc.leavePending = s.sc.leavePending ∧ s.offerAtBoundary.sc.tracked = s.sc.tracked
      ∧ s.offerAtBoundary.tb = s.tb ∧ s.offerAtBoundary.rt = s.rt ∧ s.offerAtBoundary.pu = s.pu
      ∧ s.offerAtBoundary.os = s.os ∧ s.offerAtBoundary.cq.entries = s.cq.entries
      ∧ s.offerAtBoundary.cq.duty = s.cq.duty ∧ s.offerAtBoundary.fu.tripSet = s.fu.tripSet
      ∧ s.offerAtBoundary.sp.record = s.sp.record ∧ s.offerAtBoundary.bi.line = s.bi.line := by
  simp only [offerAtBoundary, foldl_offerWithdrawal_kept]
  simp

@[simp] theorem queryAtBoundary_kept (s : State) : s.queryAtBoundary.sc = s.sc ∧ s.queryAtBoundary.tb = s.tb
    ∧ s.queryAtBoundary.cq = s.cq ∧ s.queryAtBoundary.pu = s.pu ∧ s.queryAtBoundary.os = s.os
    ∧ s.queryAtBoundary.sp = s.sp ∧ s.queryAtBoundary.fu.tripSet = s.fu.tripSet
    ∧ s.queryAtBoundary.bi.line = s.bi.line
    ∧ s.queryAtBoundary.rt.entries = s.rt.entries ∧ s.queryAtBoundary.rt.copySource = s.rt.copySource
    ∧ s.queryAtBoundary.rt.epochDigest = s.rt.epochDigest ∧ s.queryAtBoundary.rt.armed = s.rt.armed := by
  simp only [queryAtBoundary]
  split
  · simp
  · split
    · obtain hq | hq := Nat.lt_or_ge s.bi.queue.length 6
      · simp [offer_of_room _ hq]
      · simp [offer_of_full _ hq]
    · simp

@[simp] theorem offerReply_kept (i : StationId) (s : State) : (s.offerReply i).sc = s.sc
    ∧ (s.offerReply i).tb = s.tb ∧ (s.offerReply i).cq = s.cq ∧ (s.offerReply i).pu = s.pu
    ∧ (s.offerReply i).os = s.os ∧ (s.offerReply i).sp = s.sp ∧ (s.offerReply i).fu.tripSet = s.fu.tripSet
    ∧ (s.offerReply i).rt.entries = s.rt.entries ∧ (s.offerReply i).rt.copySource = s.rt.copySource
    ∧ (s.offerReply i).rt.epochDigest = s.rt.epochDigest ∧ (s.offerReply i).rt.armed = s.rt.armed
    ∧ (s.offerReply i).bi.line = s.bi.line := by
  simp only [offerReply]
  split
  · split
    · simp
    · obtain hq | hq := Nat.lt_or_ge s.bi.queue.length 6
      · simp [offer_of_room _ hq]
      · simp [offer_of_full _ hq]
  · simp

theorem foldl_offerReply_kept (l : List StationId) (s : State) : (l.foldl offerReply s).sc = s.sc
    ∧ (l.foldl offerReply s).tb = s.tb ∧ (l.foldl offerReply s).cq = s.cq ∧ (l.foldl offerReply s).pu = s.pu
    ∧ (l.foldl offerReply s).os = s.os ∧ (l.foldl offerReply s).sp = s.sp
    ∧ (l.foldl offerReply s).fu.tripSet = s.fu.tripSet
    ∧ (l.foldl offerReply s).rt.entries = s.rt.entries ∧ (l.foldl offerReply s).rt.copySource = s.rt.copySource
    ∧ (l.foldl offerReply s).rt.epochDigest = s.rt.epochDigest ∧ (l.foldl offerReply s).rt.armed = s.rt.armed
    ∧ (l.foldl offerReply s).bi.line = s.bi.line := by
  induction l generalizing s with
  | nil => simp
  | cons i l ih => simpa using ih (s.offerReply i)

@[simp] theorem lateOffers_kept (s : State) : s.lateOffers.sc = s.sc ∧ s.lateOffers.tb = s.tb
    ∧ s.lateOffers.cq.entries = s.cq.entries ∧ s.lateOffers.cq.duty = s.cq.duty ∧ s.lateOffers.pu = s.pu
    ∧ s.lateOffers.os = s.os ∧ s.lateOffers.sp = s.sp ∧ s.lateOffers.fu.tripSet = s.fu.tripSet
    ∧ s.lateOffers.rt.entries = s.rt.entries ∧ s.lateOffers.rt.copySource = s.rt.copySource
    ∧ s.lateOffers.rt.epochDigest = s.rt.epochDigest ∧ s.lateOffers.rt.armed = s.rt.armed
    ∧ s.lateOffers.bi.line = s.bi.line := by
  simp only [lateOffers, foldl_offerReply_kept]
  simp

/-! ### A member after the work is one that stayed, or one that a confirmation took in -/

/-- Outside the group and without a standing in it: not a member, and none that this boundary can take in. -/
structure Outcast (s : State) : Prop where
  isMember : s.isMember = false
  standing : s.sc.standing = .none

/-- What a part of the work at a boundary does: it sees no mark, it takes in no outcast, and it keeps the shared state or
leaves an outcast. -/
structure Follows (s t : State) : Prop where
  markSeen : s.tb.markSeen = false → t.tb.markSeen = false
  outcast : s.Outcast → t.Outcast
  shared : t.SameShared s ∨ t.Outcast

theorem SameShared.rfl' : s.SameShared s := ⟨rfl, rfl, rfl, rfl⟩

theorem SameShared.trans' (h : t.SameShared s) (k : u.SameShared t) : u.SameShared s :=
  ⟨h.entries.trans k.entries, h.queue.trans k.queue, h.duty.trans k.duty, h.tripSet.trans k.tripSet⟩

theorem Follows.refl (s : State) : Follows s s := ⟨id, id, .inl .rfl'⟩

theorem Follows.trans (h : Follows s t) (k : Follows t u) : Follows s u where
  markSeen := k.markSeen ∘ h.markSeen
  outcast := k.outcast ∘ h.outcast
  shared := by
    obtain hu | hu := k.shared
    · obtain ht | ht := h.shared
      · exact .inl (ht.trans' hu)
      · exact .inr (k.outcast ht)
    · exact .inr hu

theorem Follows.of_kept (hm : t.tb.markSeen = s.tb.markSeen) (hst : t.sc.station = s.sc.station)
    (hsd : t.sc.standing = s.sc.standing) (h : t.SameShared s) : Follows s t where
  markSeen hs := hm.trans hs
  outcast hs := ⟨(isMember_congr hst).trans hs.isMember, hsd.trans hs.standing⟩
  shared := .inl h

theorem Follows.of_outcast (hm : s.tb.markSeen = false → t.tb.markSeen = false) (h : t.Outcast) : Follows s t :=
  ⟨hm, fun _ => h, .inr h⟩

theorem Follows.doIf {c : Bool} {f : State → State} (h : c = true → Follows s (f s)) : Follows s (s.doIf c f) := by
  cases c
  · exact .refl s
  · exact h rfl

theorem Outcast.of_station (hs : s.sc.station ≠ .member ∧ s.sc.station ≠ .leaving) (hsd : s.sc.standing = .none) :
    s.Outcast := ⟨by simp [State.isMember, hs], hsd⟩

theorem follows_modTb {f : TimeBase → TimeBase} (h : (f s.tb).markSeen = s.tb.markSeen) : Follows s (s.modTb f) :=
  .of_kept h rfl rfl ⟨rfl, rfl, rfl, rfl⟩

theorem follows_modBi (f : BusInterface → BusInterface) (s : State) : Follows s (s.modBi f) :=
  .of_kept rfl rfl rfl ⟨rfl, rfl, rfl, rfl⟩

theorem follows_modSc {f : StationController → StationController} (h : (f s.sc).station = s.sc.station)
    (hs : (f s.sc).standing = s.sc.standing) : Follows s (s.modSc f) :=
  .of_kept rfl h hs ⟨rfl, rfl, rfl, rfl⟩

theorem follows_modRt {f : RosterTable → RosterTable} (h : (f s.rt).entries = s.rt.entries) : Follows s (s.modRt f) :=
  .of_kept rfl rfl rfl ⟨h.symm, rfl, rfl, rfl⟩

/-- A member after the work has the shared state it had before. -/
theorem Follows.sameShared_of_member (h : Follows s t) (hm : t.isMember = true) : t.SameShared s :=
  h.shared.resolve_right fun ho => absurd (hm.symm.trans ho.isMember) (by decide)

/-! ### The parts of the work -/

theorem freeTimeBase_markSeen (s : State) : s.freeTimeBase.tb.markSeen = false := by
  simp only [freeTimeBase]
  split <;> simp

theorem follows_isolate (r : Reason) (s : State) : Follows s (s.isolate r) := by
  refine .doIf fun _ => .of_outcast (fun _ => ?_) (.of_station (by simp) (by simp))
  rw [enterIsolated_eq, (settle_kept _).2.1, freeTimeBase_markSeen]

theorem follows_settle (s : State) : Follows s s.settle :=
  .of_kept (by simp) (by simp) (by simp) (by constructor <;> simp)

theorem isMember_of_follower (h : s.isFollower = true) : s.isMember = false := by
  simp only [isFollower, isMember, Bool.or_eq_true, decide_eq_true_iff] at h ⊢
  obtain (h | h) | h := h <;> simp [h]

theorem follows_discardCopy (h : s.isMember = false) : Follows s s.discardCopy :=
  .of_outcast (by simp) ⟨(isMember_congr (by simp)).trans h, by simp⟩

theorem follows_joinMissed (s : State) : Follows s s.joinMissed := by
  simp only [joinMissed]
  split
  · exact .of_outcast (by simp [enterDormant]) (.of_station (by simp) (by simp))
  · exact .of_outcast (by simp) (.of_station (by simp) (by simp))

theorem follows_yieldToGroup (n : Nat) (h : s.isFollower = true) : Follows s (s.yieldToGroup n) := by
  have hm := isMember_of_follower h
  simp only [yieldToGroup]
  split
  · exact (follows_modRt rfl).trans (.doIf fun _ => follows_discardCopy hm)
  · exact .doIf fun _ => follows_discardCopy hm
  · exact follows_joinMissed s
  · exact .refl s

theorem follows_heardGroupTest (s : State) : Follows s s.heardGroupTest := by
  have hforgotten : Follows s (s.modRt fun rt => { rt with heardGroup := none }) := follows_modRt rfl
  simp only [heardGroupTest]
  split
  next hf =>
    cases s.lowerGroup with
    | none => exact hforgotten
    | some n => exact hforgotten.trans (follows_yieldToGroup (s := s.modRt _) n hf)
  next => exact hforgotten

theorem follows_groupWork (n : Nat) (s : State) : Follows s (s.groupWork n) := by
  refine .doIf fun _ => ?_
  have hbuilt : Follows s (s.takeDigest.buildBeat n) := .of_kept (by simp) (by simp) (by simp) (by constructor <;> simp)
  exact (hbuilt.trans (follows_heardGroupTest _)).trans
    (.of_kept (by simp) (by simp) (by simp) (by constructor <;> simp))

theorem follows_holdoverAtBoundary (s : State) : Follows s s.holdoverAtBoundary := by
  simp only [holdoverAtBoundary]
  split
  · exact .refl s
  · split
    · exact .of_kept (by simp) (by simp) (by simp) (by constructor <;> simp)
    · exact (follows_modTb rfl).trans (.doIf fun _ => follows_isolate _ _)

theorem markSeenAtBoundary_markSeen (natural : Bool) (s : State) : (s.markSeenAtBoundary natural).tb.markSeen = false := rfl

theorem follows_markSeenAtBoundary (natural : Bool) (s : State) : Follows s (s.markSeenAtBoundary natural) where
  markSeen _ := rfl
  outcast h := ⟨(isMember_congr (by simp [markSeenAtBoundary])).trans h.isMember, by
    simpa [markSeenAtBoundary] using h.standing⟩
  shared := .inl (by constructor <;> simp [markSeenAtBoundary])

theorem follows_startDrive (s : State) : Follows s s.startDrive :=
  .doIf fun _ => follows_modTb rfl

theorem follows_advanceClashWindow (s : State) : Follows s s.advanceClashWindow := follows_modBi _ s

theorem follows_countStuck (s : State) : Follows s s.countStuck := by
  simp only [countStuck]
  split
  · exact (follows_modBi _ s).trans (.doIf fun _ => follows_isolate _ _)
  · exact follows_modBi _ s

theorem follows_lineWork (natural : Bool) (s : State) : Follows (s.holdoverAtBoundary.markSeenAtBoundary natural)
    (s.lineWork natural) :=
  ((follows_startDrive _).trans (follows_advanceClashWindow _)).trans (follows_countStuck _)

theorem follows_countHoldoff (c : Bool) (s : State) : Follows s (s.countHoldoff c) :=
  .doIf fun _ => follows_modSc rfl rfl

theorem follows_countQuiet (c : Bool) (s : State) : Follows s (s.countQuiet c) := by
  unfold countQuiet
  split
  · exact follows_modSc rfl rfl
  · exact follows_modSc rfl rfl
  · exact .refl s

theorem follows_countUnlocked (s : State) : Follows s s.countUnlocked := by
  simp only [countUnlocked]
  split
  · exact (follows_modSc rfl rfl).trans (.doIf fun _ => follows_isolate _ _)
  · exact .refl s

@[simp] theorem listenUnheard_kept (s : State) :
    s.listenUnheard.sc = ⟨.listen, .none, 0, 0, 0, .none, false, none, false, false⟩
      ∧ s.listenUnheard.tb.markSeen = s.tb.markSeen ∧ s.listenUnheard.tb.driveLeft = 0
      ∧ s.listenUnheard.rt.entries = List.replicate 16 .absentEntry ∧ s.listenUnheard.rt.copySource = .none
      ∧ s.listenUnheard.rt.armed = false ∧ s.listenUnheard.cq.entries = [] ∧ s.listenUnheard.cq.duty = 0
      ∧ s.listenUnheard.fu.tripSet = 0
      ∧ s.listenUnheard.bi.queue = s.bi.queue.filter (·.body.isQuery) := by
  simp [listenUnheard, enterListen, moveTo_tb, moveTo_queue]

theorem follows_resyncTimeout (s : State) : Follows s s.resyncTimeout :=
  .doIf fun _ => .of_outcast (by simp) (.of_station (by simp) (by simp))

theorem proposeLeave_tb (s : State) : s.proposeLeave.tb = s.tb := by
  obtain hq | hq := Nat.lt_or_ge s.bi.queue.length 6
  · cases hr : s.reservedTicket with
    | none => simp [proposeLeave_fresh hr hq]
    | some r => simp [proposeLeave_reserved hr hq]
  · rw [proposeLeave_of_full hq]

theorem leaveIfPending_tb (s : State) : s.leaveIfPending.tb = s.tb := by
  simp [leaveIfPending, proposeLeave_tb]

theorem becomeMember_tb (s : State) : s.becomeMember.tb = s.tb := by
  simp [becomeMember, leaveIfPending_tb, moveTo_tb]

theorem enterMember_shared (s : State) : s.enterMember.SameShared s ∧ s.enterMember.tb.markSeen = s.tb.markSeen := by
  obtain ⟨hentries, hqueue, hduty, htrip⟩ := becomeMember_shared s
  exact ⟨⟨by simp [enterMember, hentries], by simp [enterMember, hqueue], by simp [enterMember, hduty],
    by simp [enterMember, htrip]⟩, by simp [enterMember, becomeMember_tb]⟩

theorem proposeAdmission_shared (s : State) :
    s.proposeAdmission.SameShared s ∧ s.proposeAdmission.tb.markSeen = s.tb.markSeen := by
  unfold proposeAdmission
  obtain hq | hq := Nat.lt_or_ge s.bi.queue.length 6
  · rw [offerPropose_of_room _ hq]
    exact ⟨by constructor <;> simp, by simp⟩
  · rw [offerPropose_of_full _ hq]
    exact ⟨.rfl', rfl⟩

theorem enterGroup_shared (s : State) : s.enterGroup.SameShared s ∧ s.enterGroup.tb.markSeen = s.tb.markSeen := by
  obtain ⟨hshared, hmark⟩ := proposeAdmission_shared s
  unfold enterGroup
  split
  · exact enterMember_shared s
  · split
    · exact ⟨.rfl', rfl⟩
    · exact ⟨hshared.trans' (by constructor <;> simp), by simp [hmark]⟩

/-- Only a confirmed follower is taken in. -/
theorem follows_enterGroup (h : s.sc.standing = .confirmed) : Follows s s.enterGroup where
  markSeen hs := (enterGroup_shared s).2.trans hs
  outcast hs := absurd (h.symm.trans hs.standing) (by decide)
  shared := .inl (enterGroup_shared s).1

theorem follows_joinTest (s : State) : Follows s s.joinTest :=
  .doIf fun h => follows_enterGroup (by
    simp only [Bool.and_eq_true, decide_eq_true_iff] at h
    exact h.1.1.2)

theorem follows_resyncTest (s : State) : Follows s s.resyncTest :=
  .doIf fun h => follows_enterGroup (by
    simp only [Bool.and_eq_true, decide_eq_true_iff] at h
    exact h.2)

/-- A leave leaves the group a member that was one. -/
theorem follows_leaveIfPending (s : State) : Follows s s.leaveIfPending := by
  obtain ⟨hentries, hqueue, hduty, htrip⟩ := leaveIfPending_shared s
  refine ⟨fun hs => (congrArg _ (leaveIfPending_tb s)).trans hs, fun hs => ?_,
    .inl ⟨hentries.symm, hqueue.symm, hduty.symm, htrip.symm⟩⟩
  have hst : s.sc.station ≠ .member := fun h => absurd ((show s.isMember = true by simp [isMember, h]).symm.trans hs.isMember)
    (by decide)
  rwa [leaveIfPending, show (decide (s.sc.station = .member) && s.sc.leavePending) = false by simp [hst]]

theorem follows_controllerWork (c d : Bool) (s : State) : Follows s (s.controllerWork c d) :=
  ((((((follows_countHoldoff c s).trans (follows_countQuiet d _)).trans (follows_countUnlocked _)).trans
    (follows_resyncTimeout _)).trans (follows_joinTest _)).trans (follows_resyncTest _)).trans (follows_leaveIfPending _)

theorem follows_lateOffers (s : State) : Follows s s.lateOffers :=
  .of_kept (by simp) (by simp) (by simp) (by constructor <;> simp)

/-- The work after the three steps of a boundary. -/
def afterSteps (depth : Nat) (natural wasListen unreadable : Bool) (s : State) : State :=
  (((((s.groupWork depth).lineWork natural).controllerWork wasListen unreadable).settle).lateOffers).settle

theorem boundary_eq (natural : Bool) (s : State) : s.boundary natural
    = s.stepsOneToThree.afterSteps s.stepsOneAndTwo.cq.entries.length natural (s.sc.station = .listen)
        (s.tb.state = .holdover || s.bi.line = .stuck) := rfl

theorem follows_afterSteps (n : Nat) (c d e : Bool) (s : State) : Follows s (s.afterSteps n c d e)
    ∧ (s.afterSteps n c d e).tb.markSeen = false := by
  have hbefore : Follows s ((s.groupWork n).holdoverAtBoundary.markSeenAtBoundary c) :=
    ((follows_groupWork n s).trans (follows_holdoverAtBoundary _)).trans (follows_markSeenAtBoundary c _)
  have hafter : Follows ((s.groupWork n).holdoverAtBoundary.markSeenAtBoundary c) (s.afterSteps n c d e) :=
    ((((follows_lineWork c _).trans (follows_controllerWork d e _)).trans (follows_settle _)).trans
      (follows_lateOffers _)).trans (follows_settle _)
  exact ⟨hbefore.trans hafter, hafter.markSeen rfl⟩

theorem steady_afterSteps {w : Bool} {n : Nat} {c d e : Bool} (h : Steady w t s) : Steady w t (s.afterSteps n c d e) :=
  steady_settle (steady_lateOffers (steady_settle (steady_controllerWork (steady_lineWork (steady_groupWork h)))))

end State
end Sys2Proof.Machine
end

section
/-! The natural boundary (R21, R22, R24, R32, R70, R71, R94, R100, R101). -/

namespace Sys2Proof.Machine

variable {s t u : State}

namespace State

/-! ### The parts of the work, by the case that applies -/

theorem takeDigest_eq (s : State) : s.takeDigest = { s with rt := { s.rt with
    epochDigest := digestOfCode (rosterCode s.rt.entries) s.cq.duty s.fu.tripSet
    armed := decide (s.isMember = true ∨ s.rt.copySource = .own ∨ s.rt.copySource = .reply) } } := by
  have harmed : (s.isMember || s.hasCopy)
      = decide (s.isMember = true ∨ s.rt.copySource = .own ∨ s.rt.copySource = .reply) := by
    simp [hasCopy, Bool.decide_or]
  simp only [takeDigest, modRt, digest, harmed]

/-- The BEAT stands in the queue, in the place of an older one or in a place of its own (R57, R71). -/
theorem mem_enqueueBeat (f : BeatFields) (h : s.bi.queue.length < 6 ∨ ∃ y ∈ s.bi.queue, y.body.isBeat = true) :
    ∃ y ∈ (s.enqueueBeat f).bi.queue, y.attempts = 0 ∧ y.body = .beat f := by
  unfold enqueueBeat
  split
  next hb =>
    obtain ⟨y, hy, hyb⟩ := List.any_eq_true.mp hb
    refine ⟨{ y with body := .beat f, attempts := 0 }, ?_, rfl, rfl⟩
    simp only [doIf_fields, modBi_bi, setQueue_kept, ite_self, busInterface_queue_ite]
    exact List.mem_map.mpr ⟨y, hy, if_pos hyb⟩
  next hb =>
    have hroom : s.bi.queue.length < 6 := h.resolve_right fun ⟨y, hy, hyb⟩ => hb (List.any_eq_true.mpr ⟨y, hy, hyb⟩)
    rw [offer_of_room _ hroom]
    exact ⟨⟨.beat f, 0, false⟩, by simp [orKeep], rfl, rfl⟩

theorem buildBeat_of_drives (n : Nat) (h : s.drivesMarks = true) : s.buildBeat n = s.enqueueBeat (s.beatNow n) := by
  simp [buildBeat, h]

theorem markSeenAtBoundary_lost (h : s.tb.state = .acquiring) (hm : s.tb.markSeen = false) :
    s.markSeenAtBoundary true = { s with tb := { s.tb with state := .free, inWindow := 0, markSeen := false } } := by
  simp only [markSeenAtBoundary, h, hm]
  rfl

theorem markSeenAtBoundary_kept (h : s.tb.state ≠ .acquiring ∨ s.tb.markSeen = true) :
    s.markSeenAtBoundary true = { s with tb := { s.tb with markSeen := false } } := by
  have hfalse : (true && decide (s.tb.state = .acquiring) && !s.tb.markSeen) = false := by
    obtain h | h := h <;> simp [h]
  rw [markSeenAtBoundary, hfalse]
  rfl

/-! ### The resting states (R18, R19) -/

theorem isolate_fun_of_cannot (r : Reason) {f : TimeBase → TimeBase} {c : Bool} (h : s.canIsolate = false) :
    (s.modTb f).doIf c (isolate r) = s.modTb f := by
  cases c
  · rfl
  · exact isolate_of_cannot r h

/-- The line work of a station that no fault can isolate is the work of the Time Base and the Bus Interface alone. -/
theorem lineWork_resting (natural : Bool) (h : s.canIsolate = false) :
    (s.lineWork natural).sc.station = s.sc.station ∧ (s.lineWork natural).SameShared s
      ∧ (s.lineWork natural).bi.queue = s.bi.queue := by
  have hheld : s.holdoverAtBoundary.sc.station = s.sc.station ∧ s.holdoverAtBoundary.SameShared s
      ∧ s.holdoverAtBoundary.bi.queue = s.bi.queue := by
    simp only [holdoverAtBoundary]
    split
    · exact ⟨rfl, .rfl', rfl⟩
    · split
      · exact ⟨by simp, by constructor <;> simp, by simp⟩
      · rw [isolate_fun_of_cannot _ h]
        exact ⟨by simp, by constructor <;> simp, by simp⟩
  obtain ⟨hst, hshared, hqueue⟩ := hheld
  generalize hw : ((s.holdoverAtBoundary.markSeenAtBoundary natural).startDrive).advanceClashWindow = w
  have hcan : w.canIsolate = false := by
    have hwst : w.sc.station = s.sc.station := by
      rw [← hw]
      simp [markSeenAtBoundary, startDrive, advanceClashWindow, hst]
    simp only [canIsolate, hwst] at h ⊢
    exact h
  have hline : s.lineWork natural = w.modBi fun bi => { bi with stuckEpochs := 0 } := by
    rw [lineWork, hw, countStuck, hcan, Bool.and_false]
    rfl
  rw [hline, ← hw]
  exact ⟨by simp [markSeenAtBoundary, startDrive, advanceClashWindow, hst],
    hshared.trans' (by constructor <;> simp [markSeenAtBoundary, startDrive, advanceClashWindow]),
    by simp [markSeenAtBoundary, startDrive, advanceClashWindow, hqueue]⟩

/-- The Station Controller counts and tests nothing outside LISTEN and RESYNC, where no leave waits in MEMBER. -/
theorem controllerWork_eq_self (c d : Bool) (hl : s.sc.station ≠ .listen) (hr : s.sc.station ≠ .resync)
    (hp : s.sc.station = .member → s.sc.leavePending = false) : s.controllerWork c d = s := by
  have hquiet : s.countQuiet d = s := by
    unfold countQuiet
    split
    next h => exact absurd h hl
    next h => exact absurd h hr
    next => rfl
  have hleave : (decide (s.sc.station = .member) && s.sc.leavePending) = false := by
    by_cases hm : s.sc.station = .member
    · simp [hp hm]
    · simp [hm]
  simp [controllerWork, countHoldoff, hquiet, countUnlocked, resyncTimeout, joinTest, resyncTest, leaveIfPending, hl, hr,
    hleave]

/-- Outside the group nothing is offered. -/
theorem lateOffers_queue_resting (hm : s.isMember = false) (hf : s.isFollower = false) :
    s.lateOffers.bi.queue = s.bi.queue := by
  have hst : s.sc.station ≠ .member ∧ s.sc.station ≠ .listen ∧ s.sc.station ≠ .joining ∧ s.sc.station ≠ .resync := by
    simp only [isMember, isFollower, Bool.or_eq_false_iff, decide_eq_false_iff_not] at hm hf
    exact ⟨hm.1, hf.1.1, hf.1.2, hf.2⟩
  obtain ⟨hmember, hlisten, hjoining, hresync⟩ := hst
  have hneeds : s.needsRoster = false := by simp [needsRoster, hlisten, hresync]
  have hquery : s.queryAtBoundary = s.modRt fun rt => { rt with countdown := 0 } := by
    simp only [queryAtBoundary, hneeds, hf, Bool.false_and, doIf_false]
    rfl
  have hshed : s.queryAtBoundary.shedTest = s.queryAtBoundary :=
    shedTest_of_failed (.inl (by simp [shedTestPassed, hquery, hmember]))
  have hreadmit : s.queryAtBoundary.readmissionTest = s.queryAtBoundary :=
    readmissionTest_of_failed (.inl (by simp [readmissionTestPassed, hquery, hmember]))
  have hwithdraw : s.queryAtBoundary.withdrawalTest = s.queryAtBoundary := by
    cases he : s.queryAtBoundary.ownAdmit with
    | none => exact withdrawalTest_of_no_admit he
    | some e => exact withdrawalTest_of_failed he (.inl (by simp [hjoining, hmember]))
  have hreply (i : StationId) (v : State) (hv : v.isMember = false) : v.offerReply i = v := by
    simp [offerReply, hv]
  have hreplies (l : List StationId) (v : State) (hv : v.isMember = false) : l.foldl offerReply v = v := by
    induction l with
    | nil => rfl
    | cons i l ih => rw [List.foldl_cons, hreply i v hv, ih]
  rw [lateOffers, hshed, hreadmit, hwithdraw, hreplies _ _ ((isMember_congr (by simp)).trans hm), hquery]
  rfl

/-! ### The counters (R21, R22) -/

/-- The instant of a natural boundary: B and K are 0. -/
def atBoundary (s : State) : State := s.modTb fun tb => { tb with b := 0, k := 0 }

theorem naturalBoundary_eq (hs : s.sc.station ≠ .setup) : s.naturalBoundary = s.atBoundary.boundary true := if_neg hs

theorem foundsNow_atBoundary (s : State) : s.atBoundary.foundsNow = s.foundsNow := rfl

theorem found_counters (s : State) : s.found.tb.b = s.tb.b ∧ s.found.tb.k = s.tb.k ∧ s.found.tb.en = 0
    ∧ s.found.tb.lastLead = s.tb.lastLead := by
  simp [found, moveTo_tb]

theorem stepsOneToThree_of_founds (h : s.foundsNow = true) : s.stepsOneToThree = s.found := by
  simp [stepsOneToThree, stepsOneAndTwo, h]

theorem stepsOneToThree_of_acts (h : s.foundsNow = false) (ha : s.actsAtBoundary = true) :
    s.stepsOneToThree = (s.stepOne.stepTwo.stepThree s.stepOne.admittedNow).settle := by
  simp [stepsOneToThree, stepsOneAndTwo, h, ha]

theorem stepsOneToThree_of_rests (ha : s.actsAtBoundary = false) (h : s.foundsNow = false) :
    s.stepsOneToThree = s.stepOne := by
  simp [stepsOneToThree, stepsOneAndTwo, h, ha]

theorem stepsOneToThree_counters (s : State) : s.stepsOneToThree.tb.b = s.tb.b ∧ s.stepsOneToThree.tb.k = s.tb.k
    ∧ s.stepsOneToThree.tb.en = (if s.foundsNow then 0 else s.tb.en + 1)
    ∧ s.stepsOneToThree.tb.lastLead = s.tb.lastLead := by
  cases hf : s.foundsNow with
  | true => rw [stepsOneToThree_of_founds hf]; exact found_counters s
  | false =>
    cases ha : s.actsAtBoundary with
    | true =>
      have hsteady : Steady true s.stepOne ((s.stepOne.stepTwo.stepThree s.stepOne.admittedNow).settle) :=
        steady_settle (steady_stepThree (steady_stepTwo .rfl'))
      rw [stepsOneToThree_of_acts hf ha]
      exact hsteady.counters rfl
    | false => rw [stepsOneToThree_of_rests ha hf]; exact ⟨rfl, rfl, rfl, rfl⟩

theorem boundary_counters (natural : Bool) (s : State) : (s.boundary natural).tb.b = s.tb.b
    ∧ (s.boundary natural).tb.k = s.tb.k ∧ (s.boundary natural).tb.en = (if s.foundsNow then 0 else s.tb.en + 1)
    ∧ (s.boundary natural).tb.lastLead = s.tb.lastLead := by
  obtain ⟨hb, hk, hen, hlead⟩ := stepsOneToThree_counters s
  have hsteady : Steady true s.stepsOneToThree (s.boundary natural) := steady_afterSteps .rfl'
  obtain ⟨hb', hk', hen', hlead'⟩ := hsteady.counters rfl
  exact ⟨hb'.trans hb, hk'.trans hk, hen'.trans hen, hlead'.trans hlead⟩

/-- ISOLATED and HALTED: the boundary advances EN and leaves the shared state. -/
theorem boundary_resting (natural : Bool) (h : s.sc.station = .isolated ∨ s.sc.station = .halted) :
    (s.boundary natural).sc.station = s.sc.station ∧ (s.boundary natural).SameShared s
      ∧ (s.boundary natural).bi.queue = s.bi.queue := by
  have hresting (v : State) (hv : v.sc.station = s.sc.station) : v.isMember = false ∧ v.isFollower = false
      ∧ v.canIsolate = false ∧ v.foundsNow = false := by
    obtain h | h := h <;> simp [isMember, isFollower, canIsolate, foundsNow, hv, h]
  obtain ⟨hm, hf, hc, hfounds⟩ := hresting s rfl
  have hacts : s.actsAtBoundary = false := by simp [actsAtBoundary, hm, hf]
  have hwork (n : Nat) : s.stepOne.groupWork n = s.stepOne := by
    have hacts' : s.stepOne.actsAtBoundary = false := hacts
    simp [groupWork, hacts']
  obtain ⟨hst, hshared, hqueue⟩ := lineWork_resting (s := s.stepOne) natural hc
  have hst' : (s.stepOne.lineWork natural).sc.station = s.sc.station := hst
  have hcontrol (c d : Bool) : (s.stepOne.lineWork natural).controllerWork c d = s.stepOne.lineWork natural :=
    controllerWork_eq_self c d (by obtain h | h := h <;> simp [hst', h]) (by obtain h | h := h <;> simp [hst', h])
      (by obtain h | h := h <;> simp [hst', h])
  obtain ⟨hm', hf', -, -⟩ := hresting (s.stepOne.lineWork natural).settle (by simp [hst'])
  rw [boundary_eq, stepsOneToThree_of_rests hacts hfounds, afterSteps, hwork, hcontrol]
  have hshared' : (s.stepOne.lineWork natural).SameShared s := ⟨hshared.1, hshared.2, hshared.3, hshared.4⟩
  refine ⟨by simp [hst'], hshared'.trans' (by constructor <;> simp), ?_⟩
  rw [(settle_kept _).2.2.1, lateOffers_queue_resting hm' hf', (settle_kept _).2.2.1]
  exact hqueue

end State

open State in
/-- Settles O19: counters by the steadiness of the parts, the shared state of a member by what each part hands on. -/
theorem naturalBoundaryCounts : Obligations.NaturalBoundaryCounts := by
  unfold Obligations.NaturalBoundaryCounts
  refine ⟨fun s hs => ?boundary, fun n s hd hq => ?beat, fun n s => ⟨fun h => ?_, fun hm hf => ?_, fun h => ?_⟩,
    takeDigest_eq, fun s => rfl, fun s => ⟨markSeenAtBoundary_lost, markSeenAtBoundary_kept⟩,
    fun s => ⟨fun hd hl => ?_, fun h => ?_⟩, fun c d s => rfl, fun s => rfl⟩
  case boundary =>
    obtain ⟨hb, hk, hen, hlead⟩ := boundary_counters true s.atBoundary
    have hsteady : Steady false s s.naturalBoundary := steady_naturalBoundary
    rw [naturalBoundary_eq hs] at hsteady
    obtain ⟨hfollows, hmark⟩ := follows_afterSteps s.atBoundary.stepsOneAndTwo.cq.entries.length true
      (s.atBoundary.sc.station = .listen) (s.atBoundary.tb.state = .holdover || s.atBoundary.bi.line = .stuck)
      s.atBoundary.stepsOneToThree
    rw [← boundary_eq] at hmark
    refine ⟨s.atBoundary.boundary true, (exec_eq_next_iff.mpr (naturalBoundary_eq hs)), hb, hk, hen, hmark, hlead,
      hsteady.record, hsteady.mask, hsteady.pins, fun h => ?rest, fun h hf => ?act⟩
    case rest =>
      obtain ⟨hst, hshared, hqueue⟩ := boundary_resting (s := s.atBoundary) true (List.mem_pair.mp h)
      exact ⟨hst, ⟨hshared.1, hshared.2, hshared.3, hshared.4⟩, hqueue⟩
    case act =>
      have hacts : s.atBoundary.actsAtBoundary = true := by rwa [actsAtBoundary, Bool.or_eq_true]
      have hsteps := stepsOneToThree_of_acts (s := s.atBoundary) hf hacts
      have htwo : s.atBoundary.stepsOneAndTwo = s.atBoundary.stepOne.stepTwo := by
        simp [stepsOneAndTwo, foundsNow_atBoundary, hf, hacts]
      intro u applied firm decided
      have hstart : s.atBoundary.stepOne = u := rfl
      have happlied : u.applyDue = applied := rfl
      have hfirm : applied.makeFirm = firm := rfl
      rw [hstart] at hsteps htwo
      rw [stepTwo, happlied, hfirm] at hsteps htwo
      have hdecided : s.atBoundary.stepsOneToThree = decided := hsteps
      clear_value firm decided
      rw [htwo, hdecided] at hfollows
      rw [boundary_eq, htwo, hdecided]
      exact ⟨by rw [afterSteps]; rfl, hfollows.sameShared_of_member⟩
  case beat =>
    rw [buildBeat_of_drives n hd]
    exact mem_enqueueBeat _ hq
  · have hacts : s.actsAtBoundary = true := by rwa [actsAtBoundary, Bool.or_eq_true]
    simp [groupWork, hacts]
  · simp [groupWork, actsAtBoundary, hm, hf]
  · simp [buildBeat, h]
  · rw [startDrive, hd, decide_eq_true hl]
    rfl
  · have hfalse : (s.drivesMarks && decide (s.tb.state = .locked)) = false := by
      obtain h | h := h <;> simp [h]
    rw [startDrive, hfalse]
    rfl

end Sys2Proof.Machine
end

section
/-! Founding, and the counts of the Station Controller at a boundary (R4, R5, R15, R18). -/

namespace Sys2Proof.Machine

variable {s t u : State}

namespace State

/-! ### A member at a boundary -/

theorem heardGroupTest_of_member (h : s.isMember = true) :
    s.heardGroupTest = s.modRt fun rt => { rt with heardGroup := none } := by
  have hf : s.isFollower = false := by
    simp only [isMember, Bool.or_eq_true, decide_eq_true_iff] at h
    obtain h | h := h <;> simp [isFollower, h]
  simp only [heardGroupTest]
  split
  next hf' => exact absurd (hf.symm.trans hf') (by decide)
  next => rfl

theorem holdoverAtBoundary_of_ne (h : s.tb.state ≠ .holdover) : s.holdoverAtBoundary = s := if_pos h

theorem countStuck_of_ne (h : s.bi.line ≠ .stuck) : s.countStuck = s.modBi fun bi => { bi with stuckEpochs := 0 } := by
  simp [countStuck, h]

theorem groupWork_of_member (n : Nat) (h : s.isMember = true) : s.groupWork n
    = ((s.takeDigest.buildBeat n).modRt fun rt => { rt with heardGroup := none }).offerAtBoundary := by
  have hacts : s.actsAtBoundary = true := by simp [actsAtBoundary, h]
  rw [groupWork, hacts, doIf_true, heardGroupTest_of_member ((isMember_congr (by simp)).trans h)]

/-- The line work of a locked station that drives marks, on a line that is not stuck. -/
theorem lineWork_of_locked (hd : s.drivesMarks = true) (hl : s.tb.state = .locked) (hline : s.bi.line ≠ .stuck) :
    s.lineWork true = ((s.modTb fun tb => { tb with markSeen := false, driveLeft := 16, driveReadLow := false }
      ).advanceClashWindow).modBi fun bi => { bi with stuckEpochs := 0 } := by
  have hmark := markSeenAtBoundary_kept (s := s) (.inl (by rw [hl]; decide))
  have hdrives : ({ s with tb := { s.tb with markSeen := false } } : State).drivesMarks = true := hd
  rw [lineWork, holdoverAtBoundary_of_ne (by rw [hl]; decide), hmark, startDrive, hdrives, decide_eq_true hl]
  exact countStuck_of_ne hline

/-- What the group work and the line work make of a locked member on a line that is not stuck. -/
theorem lineWork_groupWork_of_member (n : Nat) (hm : s.isMember = true) (hl : s.tb.state = .locked)
    (hline : s.bi.line ≠ .stuck) :
    ((s.groupWork n).lineWork true).sc.station = s.sc.station
      ∧ ((s.groupWork n).lineWork true).sc.leavePending = s.sc.leavePending
      ∧ ((s.groupWork n).lineWork true).tb = { s.tb with markSeen := false, driveLeft := 16, driveReadLow := false }
      ∧ ((s.groupWork n).lineWork true).SameShared s
      ∧ ((s.groupWork n).lineWork true).rt.copySource = s.rt.copySource
      ∧ ((s.groupWork n).lineWork true).rt.epochDigest = s.digest ∧ ((s.groupWork n).lineWork true).rt.armed = true
      ∧ ((s.groupWork n).lineWork true).pu = s.pu ∧ ((s.groupWork n).lineWork true).os = s.os
      ∧ ((s.groupWork n).lineWork true).sp.record = s.sp.record := by
  have hmg : (s.groupWork n).isMember = true := by
    rw [groupWork_of_member n hm]
    exact (isMember_congr (by simp)).trans hm
  rw [lineWork_of_locked (by rw [drivesMarks, hmg]; rfl) (by rw [groupWork_of_member n hm]; simpa using hl)
    (by rw [groupWork_of_member n hm]; simpa using hline), groupWork_of_member n hm, advanceClashWindow]
  refine ⟨by simp, by simp, by simp, ?_, by simp, by simp, by simp [hm], by simp, by simp, by simp⟩
  constructor <;> simp

/-- What the work of a boundary makes of a locked MEMBER without a waiting leave, on a line that is not stuck. -/
theorem memberWork (n : Nat) (c d : Bool) (hs : s.sc.station = .member) (hp : s.sc.leavePending = false)
    (hl : s.tb.state = .locked) (hline : s.bi.line ≠ .stuck) :
    ((s.groupWork n).lineWork true).controllerWork c d = (s.groupWork n).lineWork true := by
  obtain ⟨hst, hleave, -⟩ := lineWork_groupWork_of_member n (by simp [isMember, hs]) hl hline
  exact controllerWork_eq_self c d (by rw [hst, hs]; decide) (by rw [hst, hs]; decide) fun _ => hleave.trans hp

theorem settle_of_target (h : s.targetNow = s.pu.target) : s.settle = s.remode :=
  recomputeTarget_of_same (by rw [targetNow_remode, h]; simp)

/-! ### The founder (R5) -/

/-- The founder before it takes its target. -/
def founderUnplaced (s : State) : State :=
  let s₁ := ((s.emptyQueue .resync).setTripSet 0).setRoster s.founderRoster
  let s₂ := (s₁.modCq fun cq => { cq with duty := 0 }).modRt fun rt => { rt with
    copySource := .own, expectedKey := none, groupFingerprint := none, countdown := 0, pendingReplies := 0 }
  let s₃ := (s₂.modTb fun tb => { tb with en := 0 }).enterLocked
  ((s₃.moveTo .member).modSc fun sc => { sc with tracked := none }).remode

theorem foundedMember_eq (s : State) : s.foundedMember = s.founderUnplaced.adoptTarget := rfl

@[simp] theorem founderUnplaced_kept (s : State) : s.founderUnplaced.sc.station = .member
    ∧ s.founderUnplaced.sc.leavePending = s.sc.leavePending
    ∧ s.founderUnplaced.tb = { s.tb with en := 0, state := .locked, inWindow := 3 }
    ∧ s.founderUnplaced.cq.entries = [] ∧ s.founderUnplaced.cq.duty = 0 ∧ s.founderUnplaced.fu.tripSet = 0
    ∧ s.founderUnplaced.rt.entries = s.founderRoster ∧ s.founderUnplaced.rt.copySource = .own
    ∧ s.founderUnplaced.pu = s.pu ∧ s.founderUnplaced.os.p = s.os.p
    ∧ s.founderUnplaced.sp.record = s.sp.record ∧ s.founderUnplaced.bi.line = s.bi.line := by
  simp [founderUnplaced, moveTo_tb]

@[simp] theorem found_kept (s : State) : s.found.sc.station = .member ∧ s.found.sc.leavePending = s.sc.leavePending
    ∧ s.found.tb = { s.tb with en := 0, state := .locked, inWindow := 3 }
    ∧ s.found.cq.entries = [] ∧ s.found.cq.duty = 0 ∧ s.found.fu.tripSet = 0
    ∧ s.found.rt.entries = s.founderRoster ∧ s.found.rt.copySource = .own
    ∧ s.found.sp.record = s.sp.record ∧ s.found.bi.line = s.bi.line
    ∧ s.found.pu = s.founderUnplaced.adoptTarget.pu ∧ s.found.os = s.founderUnplaced.adoptTarget.os := by
  rw [found_eq, foundedMember_eq]
  simp

theorem founderRoster_ne {i : StationId} (h : i ≠ s.ownId) :
    s.founderRoster.getD i.val .absentEntry = .absentEntry := by
  have hval : s.ownId.val ≠ i.val := fun hv => h (Fin.ext hv.symm)
  rw [founderRoster, List.getD_eq_getElem?_getD, List.getElem?_set_ne hval, ← List.getD_eq_getElem?_getD]
  exact getD_replicate_absent 16 i.val

/-- A founder of kind PHASE has slot 0 (R68). -/
theorem slotOf_founderRoster (hk : s.ownKind = .phase) : slotOf s.founderRoster s.ownId = some 0 := by
  have hown : (s.founderRoster.getD s.ownId.val .absentEntry).holdsSlot = true := by
    rw [founderRoster_own, hk]; rfl
  have hlower : (stationsWhere s.founderRoster (·.holdsSlot)).filter (· < s.ownId) = [] := by
    refine List.filter_eq_nil_iff.mpr fun i hi hlt => ?_
    have hne : i ≠ s.ownId := fun h => by simp [h] at hlt
    rw [mem_stationsWhere, founderRoster_ne hne] at hi
    exact absurd hi (by decide)
  rw [slotOf, if_pos hown, hlower]
  rfl

theorem targetNow_of_same (hst : t.sc.station = s.sc.station) (he : t.rt.entries = s.rt.entries)
    (hr : t.sp.record = s.sp.record) : t.targetNow = s.targetNow :=
  targetNow_congr (by simp only [mayHaveTarget, isMember_congr hst, isFollower_congr hst]) he hr

/-- Of kind PHASE the founder's target is 0, of kind OBSERVER it has none (R5, R123). -/
theorem targetNow_founderUnplaced (s : State) :
    s.founderUnplaced.targetNow = if s.ownKind = .phase then some 0 else none := by
  have hown : s.founderUnplaced.ownId = s.ownId := ownId_congr (by simp)
  have hroster : s.founderUnplaced.rt.entries = s.founderRoster := by simp
  split
  next hk =>
    have hslot : slotOf s.founderUnplaced.rt.entries s.founderUnplaced.ownId = some 0 := by
      rw [hroster, hown, slotOf_founderRoster hk]
    rw [targetNow_of_slot (.inl (by simp [isMember])) hslot, Nat.zero_mul, Nat.zero_div]
  next hk =>
    refine targetNow_eq_none (.inr (slotOf_own_eq_none (.inr ?_)))
    rw [ownEntry, entry, hroster, hown, founderRoster_own]
    exact hk

/-- Where the rules give a target, adoption puts O on it at once (R129). -/
theorem adoptTarget_of_target {x : Nat} (h : s.targetNow = some x) :
    s.adoptTarget.pu.target = some x ∧ s.adoptTarget.pu.offset = x := by
  have hadopt : s.adoptTarget = s.jumpToTarget := by simp only [adoptTarget, h]
  rw [hadopt]
  simp only [jumpToTarget, h]
  split
  next hon =>
    simp only [Bool.and_eq_true, decide_eq_true_iff] at hon
    exact hon.1
  next => rw [jumpTo_eq]; exact ⟨rfl, rfl⟩

/-- Where they give none the target goes and O stays; an unslewed cycle goes on as it is (R122, R123). -/
theorem adoptTarget_of_none (h : s.targetNow = none) :
    s.adoptTarget.pu.target = none ∧ s.adoptTarget.pu.offset = s.pu.offset
      ∧ (s.pu.step = 0 → s.adoptTarget.pu.length = s.pu.length ∧ s.adoptTarget.os = s.os) := by
  obtain ⟨pu, os, ev, heq, -, -, -, hnone⟩ := adoptTarget_frame s
  obtain ⟨htarget, hoffset, -, -, hkept⟩ := hnone h
  rw [heq]
  exact ⟨htarget, hoffset, hkept⟩

theorem found_placement (s : State) :
    s.found.targetNow = s.found.pu.target
      ∧ (s.ownKind = .phase → s.found.pu.target = some 0 ∧ s.found.pu.offset = 0)
      ∧ (s.ownKind = .observer → s.found.pu.target = none ∧ s.found.pu.offset = s.pu.offset
          ∧ (s.pu.step = 0 → s.found.os.p = s.os.p ∧ s.found.pu.length = s.pu.length)) := by
  obtain ⟨-, -, -, -, -, -, -, -, -, -, hpu, hos⟩ := found_kept s
  have hsame : s.found.targetNow = s.founderUnplaced.targetNow := targetNow_of_same (by simp) (by simp) (by simp)
  have htarget := targetNow_founderUnplaced s
  rw [hsame, hpu, hos]
  cases hk : s.ownKind with
  | phase =>
    rw [hk, if_pos rfl] at htarget
    obtain ⟨ht, ho⟩ := adoptTarget_of_target htarget
    exact ⟨htarget.trans ht.symm, fun _ => ⟨ht, ho⟩, nofun⟩
  | observer =>
    rw [hk, if_neg (by decide)] at htarget
    obtain ⟨ht, ho, hkept⟩ := adoptTarget_of_none htarget
    refine ⟨htarget.trans ht.symm, nofun, fun _ => ⟨ht, by simp [ho], fun hstep => ?_⟩⟩
    obtain ⟨hlength, hos'⟩ := hkept (by simpa using hstep)
    exact ⟨by rw [hos']; simp, by simp [hlength]⟩

/-- The founder at the end of its boundary. -/
theorem afterSteps_found (n : Nat) (c d : Bool) (hp : s.sc.leavePending = false) (hline : s.bi.line ≠ .stuck) :
    (s.found.afterSteps n true c d).sc.station = .member
      ∧ (s.found.afterSteps n true c d).tb = { s.found.tb with markSeen := false, driveLeft := 16, driveReadLow := false }
      ∧ (s.found.afterSteps n true c d).SameShared s.found
      ∧ (s.found.afterSteps n true c d).rt.copySource = .own
      ∧ (s.found.afterSteps n true c d).rt.epochDigest = s.found.digest
      ∧ (s.found.afterSteps n true c d).rt.armed = true
      ∧ (s.found.afterSteps n true c d).pu = s.found.pu ∧ (s.found.afterSteps n true c d).os.p = s.found.os.p
      ∧ (s.found.afterSteps n true c d).sp.record = s.sp.record := by
  obtain ⟨hst, -, htb, hshared, hsource, hdigest, harmed, hpu, hos, hrecord⟩ :=
    lineWork_groupWork_of_member (s := s.found) n (by simp [isMember]) (by simp) (by simpa using hline)
  have hsettled (x : State) (hx : x.sc.station = s.found.sc.station) (he : x.rt.entries = s.found.rt.entries)
      (hr : x.sp.record = s.found.sp.record) (hxp : x.pu = s.found.pu) : x.settle = x.remode :=
    settle_of_target ((targetNow_of_same hx he hr).trans ((found_placement s).1.trans (by rw [hxp])))
  rw [afterSteps, memberWork n c d (by simp) (by simpa using hp) (by simp) (by simpa using hline)]
  generalize (s.found.groupWork n).lineWork true = x at *
  rw [hsettled x hst hshared.entries.symm hrecord hpu,
    hsettled x.remode.lateOffers (by simpa using hst) (by simpa using hshared.entries.symm) (by simpa using hrecord)
      (by simpa using hpu)]
  refine ⟨by simp [hst], by simp [htb], hshared.trans' (by constructor <;> simp), by simp [hsource], by simp [hdigest],
    by simp [harmed], by simp [hpu], by simp [hos], by simp [hrecord]⟩

/-! ### The counts of the Station Controller -/

theorem countHoldoff_of_listen (hs : s.sc.station = .listen) :
    s.countHoldoff true = s.modSc fun sc => { sc with joinHoldoff := sc.joinHoldoff - 1 } := by
  rw [countHoldoff, decide_eq_true hs]
  rfl

theorem countQuiet_of_listen (unreadable : Bool) (hs : s.sc.station = .listen) : s.countQuiet unreadable
    = s.modSc fun sc => { sc with quiet := if unreadable then 0 else sc.quiet + 1 } := by
  simp only [countQuiet, hs]

theorem countQuiet_of_resync (unreadable : Bool) (hs : s.sc.station = .resync) :
    s.countQuiet unreadable = s.modSc fun sc => { sc with quiet := sc.quiet + 1 } := by
  simp only [countQuiet, hs]

theorem countUnlocked_short (hs : s.sc.station = .listen) (hl : s.tb.state ≠ .locked) (hf : s.sc.frameSinceListen = true)
    (hn : s.sc.unlocked + 1 < 4 * s.listenEpochs) :
    s.countUnlocked = s.modSc fun sc => { sc with unlocked := s.sc.unlocked + 1 } := by
  have hlong : decide (4 * s.listenEpochs ≤ s.sc.unlocked + 1) = false := decide_eq_false (by omega)
  simp only [countUnlocked, hlong, doIf_false]
  exact if_pos (by simp [hl, hs, hf])

theorem countUnlocked_long (hs : s.sc.station = .listen) (hl : s.tb.state ≠ .locked) (hf : s.sc.frameSinceListen = true)
    (hn : 4 * s.listenEpochs ≤ s.sc.unlocked + 1) :
    s.countUnlocked = (s.modSc fun sc => { sc with unlocked := s.sc.unlocked + 1 }).enterIsolated .markAbsent := by
  simp only [countUnlocked, decide_eq_true hn, doIf_true]
  rw [if_pos (by simp [hl, hs, hf]), isolate_of_canIsolate _ (by simp [canIsolate, hs])]

theorem countUnlocked_of_not (h : s.sc.station ≠ .listen ∨ s.tb.state = .locked ∨ s.sc.frameSinceListen = false) :
    s.countUnlocked = s := by
  simp only [countUnlocked]
  rw [if_neg (by obtain h | h | h := h <;> simp [h])]

theorem noCopy_listenUnheard (s : State) : s.listenUnheard.NoCopy := by
  constructor <;> simp

theorem listenUnheard_expectedKey (h : s.sc.station = .resync) : s.listenUnheard.rt.expectedKey = none := by
  simp [listenUnheard, enterListen, moveTo, h]

theorem outputsOff_listenUnheard (hg : s.os.GatesOk) : s.listenUnheard.OutputsOff :=
  outputsOff_of_settled (settle_settled _) (isMember_of_listen (by simp))
    ((steady_listenUnheard (w := true) .rfl').gates hg)

theorem hasEvent_enterListen (standing : FollowStanding) (holdoff : Nat) (s : State) :
    (s.enterListen standing holdoff).hasEvent .state = true := by
  have hsteady : Steady true (s.moveTo .listen) (s.enterListen standing holdoff) :=
    steady_modTb (steady_modSc .rfl' id) fun _ => ⟨rfl, rfl, rfl, rfl⟩
  exact hsteady.hasEvent (hasEvent_moveTo _ s)

theorem hasEvent_listenUnheard (s : State) : s.listenUnheard.hasEvent .state = true := by
  simp only [listenUnheard]
  exact (steady_settle (steady_dropGroupFrames (Steady.rfl' (w := true)))).hasEvent (hasEvent_enterListen _ _ _)

theorem queue_listenUnheard {y : QueuedFrame} (hy : y ∈ s.listenUnheard.bi.queue) : y.body = .query := by
  simp only [listenUnheard_kept, List.mem_filter] at hy
  by_contra hne
  rw [isQuery_eq_false_iff.mpr hne] at hy
  exact Bool.false_ne_true hy.2

end State

open State in
/-- Settles O20. -/
theorem founding : Obligations.Founding := by
  unfold Obligations.Founding
  refine ⟨fun s hs hp hh hline hq => ?found, fun s => ⟨fun hs => ?_, fun hs => ?_, rfl⟩,
    fun r s => ⟨fun hs => ?_, fun hs => ?_, fun hl hr => ?_⟩, fun s => ⟨countUnlocked_of_not, fun hs hl hf =>
      ⟨countUnlocked_short hs hl hf, fun hn => ?isolated⟩⟩, fun s => ⟨fun h => ?_, fun hs hq => ?unheard⟩⟩
  case found =>
    have hfounds : s.atBoundary.foundsNow = true := by
      rw [foundsNow_atBoundary]
      simp [foundsNow, hs, hh, hline, quietLimit, hq]
    have heq : s.naturalBoundary = s.atBoundary.found.afterSteps s.atBoundary.stepsOneAndTwo.cq.entries.length true
        (s.atBoundary.sc.station = .listen) (s.atBoundary.tb.state = .holdover || s.atBoundary.bi.line = .stuck) := by
      rw [naturalBoundary_eq (by rw [hs]; decide), boundary_eq, stepsOneToThree_of_founds hfounds]
    generalize hn : s.atBoundary.stepsOneAndTwo.cq.entries.length = n at heq
    generalize hc : decide (s.atBoundary.sc.station = .listen) = c at heq
    generalize hd : (decide (s.atBoundary.tb.state = .holdover) || decide (s.atBoundary.bi.line = .stuck)) = d at heq
    obtain ⟨hst, htb, hshared, hsource, hdigest, harmed, hpu, hos, hrecord⟩ :=
      afterSteps_found (s := s.atBoundary) n c d hp hline
    obtain ⟨-, hphase, hobserver⟩ := found_placement s.atBoundary
    generalize ht : s.atBoundary.found.afterSteps n true c d = t at *
    have hentries : t.rt.entries = s.founderRoster := hshared.entries.symm.trans (by simp; rfl)
    have hown : t.ownId = s.ownId := ownId_congr hrecord
    have hentry : t.ownEntry = ⟨.active, s.ownKind, some 0, 0, false, none⟩ := by
      rw [ownEntry, entry, hentries, hown, founderRoster_own]
    refine ⟨t, exec_eq_next_iff.mpr heq, hst, by simp [htb], by simp [htb], by simp [htb],
      hshared.queue.symm.trans (by simp), hshared.duty.symm.trans (by simp), hshared.tripSet.symm.trans (by simp), hsource,
      by rw [hentry], by rw [hentry], by rw [hentry], fun i hi => ?_, fun hk => ?_, fun hk => ?_, ?_, harmed⟩
    · rw [entry, hentries, founderRoster_ne hi]; rfl
    · rw [hpu]; exact hphase hk
    · rw [hpu, hos]; exact hobserver hk
    · rw [hdigest, hentries, digest]
      simp
      rfl
  · exact countHoldoff_of_listen hs
  · simp [countHoldoff, hs]
  · exact countQuiet_of_listen r hs
  · exact countQuiet_of_resync r hs
  · unfold countQuiet
    split
    next h => exact absurd h hl
    next h => exact absurd h hr
    next => rfl
  case isolated =>
    rw [countUnlocked_long hs hl hf hn]
    exact ⟨by simp, by simp, noCopy_enterIsolated _ _, by simp [ticketsVoided], fun hg => outputsOff_enterIsolated _ hg,
      hasEvent_state_enterIsolated _ _⟩
  · have hfalse : (decide (s.sc.station = .resync) && decide (s.quietLimit ≤ s.sc.quiet)) = false := by
      obtain h | h := h
      · simp [h]
      · rw [quietLimit, decide_eq_false (Nat.not_le.mpr h), Bool.and_false]
    rw [resyncTimeout, hfalse]; rfl
  case unheard =>
    have htrue : (decide (s.sc.station = .resync) && decide (s.quietLimit ≤ s.sc.quiet)) = true := by
      simp [hs, quietLimit, hq]
    rw [resyncTimeout, htrue, doIf_true]
    exact ⟨by simp, by simp, by simp, noCopy_listenUnheard s, outputsOff_listenUnheard, by simp,
      fun y hy => queue_listenUnheard hy, listenUnheard_expectedKey hs, hasEvent_listenUnheard s⟩

end Sys2Proof.Machine
end

section
/-! What a boundary leaves of the mark line, and of FREE, ACQUIRING and LOCKED in a station it does not isolate (R22, R39):
the part of the Time Base that a mark edge at the same instant goes on from. -/

namespace Sys2Proof.Machine

variable {s t u : State}

namespace State

/-! ### What is handed on -/

/-- The level of the line is handed on, and so are the state of the time base and the in-window count in a station that no
fault isolates. -/
structure KeepsLock (s t : State) : Prop where
  levelLow : t.tb.levelLow = s.tb.levelLow
  canIsolate : t.canIsolate = true → s.canIsolate = true
  lock : t.canIsolate = true → s.tb.state ≠ .holdover → t.tb.state = s.tb.state ∧ t.tb.inWindow = s.tb.inWindow

theorem canIsolate_congr (h : t.sc.station = s.sc.station) : t.canIsolate = s.canIsolate := by simp only [canIsolate, h]

theorem KeepsLock.refl (s : State) : KeepsLock s s := ⟨rfl, id, fun _ _ => ⟨rfl, rfl⟩⟩

theorem KeepsLock.trans (h : KeepsLock s t) (k : KeepsLock t u) : KeepsLock s u where
  levelLow := k.levelLow.trans h.levelLow
  canIsolate hu := h.canIsolate (k.canIsolate hu)
  lock hu hs := by
    obtain ⟨hst, hwin⟩ := h.lock (k.canIsolate hu) hs
    obtain ⟨hst', hwin'⟩ := k.lock hu (hst ▸ hs)
    exact ⟨hst'.trans hst, hwin'.trans hwin⟩

/-- The fields of the Time Base that are handed on. -/
def lockOf (s : State) : Bool × TbState × Nat := (s.tb.levelLow, s.tb.state, s.tb.inWindow)

theorem KeepsLock.of_lock (h : t.lockOf = s.lockOf) (hc : t.canIsolate = true → s.canIsolate = true) : KeepsLock s t := by
  simp only [lockOf, Prod.mk.injEq] at h
  exact ⟨h.1, hc, fun _ _ => h.2⟩

theorem KeepsLock.of_kept (htb : t.tb = s.tb) (hst : t.sc.station = s.sc.station) : KeepsLock s t :=
  .of_lock (by simp only [lockOf, htb]) fun h => (canIsolate_congr hst).symm.trans h

theorem KeepsLock.doIf {c : Bool} {f : State → State} (h : c = true → KeepsLock s (f s)) : KeepsLock s (s.doIf c f) := by
  cases c
  · exact .refl s
  · exact h rfl

theorem KeepsLock.foldl {α : Type} {f : State → α → State} (h : ∀ s x, KeepsLock s (f s x)) (l : List α) (s : State) :
    KeepsLock s (l.foldl f s) := by
  induction l generalizing s with
  | nil => exact .refl s
  | cons x l ih => exact (h s x).trans (ih (f s x))

theorem canIsolate_of_member (h : s.isMember = true) : s.canIsolate = true := by
  simp only [isMember, Bool.or_eq_true, decide_eq_true_iff] at h
  obtain h | h := h <;> simp [canIsolate, h]

theorem canIsolate_of_follower (h : s.isFollower = true) : s.canIsolate = true := by
  simp only [isFollower, Bool.or_eq_true, decide_eq_true_iff] at h
  obtain (h | h) | h := h <;> simp [canIsolate, h]

/-! ### The changes of station state -/

theorem keepsLock_settle (s : State) : KeepsLock s s.settle := .of_kept (by simp) (by simp)

theorem enterIsolated_levelLow (r : Reason) (s : State) : (s.enterIsolated r).tb.levelLow = s.tb.levelLow := by
  simp [enterIsolated_eq]

theorem keepsLock_isolate (r : Reason) (s : State) : KeepsLock s (s.isolate r) := by
  refine .doIf fun _ => ⟨enterIsolated_levelLow r s, fun h => ?_, fun h => ?_⟩ <;>
  simp [canIsolate] at h

theorem keepsLock_enterDormant (h : s.canIsolate = true) : KeepsLock s s.enterDormant :=
  .of_lock (by simp [lockOf, enterDormant]) fun _ => h

theorem keepsLock_enterResync (k : Option Nat) (h : s.canIsolate = true) : KeepsLock s (s.enterResync k) :=
  .of_lock (by simp [lockOf]) fun _ => h

theorem keepsLock_listenRemoved (h : s.canIsolate = true) : KeepsLock s s.listenRemoved :=
  .of_lock (by simp [lockOf, listenRemoved]) fun _ => h

theorem keepsLock_listenUnheard (h : s.canIsolate = true) : KeepsLock s s.listenUnheard :=
  .of_lock (by simp [lockOf, listenUnheard]) fun _ => h

theorem keepsLock_becomeMember (h : s.canIsolate = true) : KeepsLock s s.becomeMember :=
  .of_lock (by simp only [lockOf, becomeMember_tb]) fun _ => h

theorem keepsLock_enterGroup (h : s.canIsolate = true) : KeepsLock s s.enterGroup := by
  have hmember : KeepsLock s s.enterMember := .of_lock (by simp [lockOf, enterMember, becomeMember_tb]) fun _ => h
  have hadmission : KeepsLock s s.proposeAdmission.settle := by
    refine .of_lock ?_ fun _ => h
    simp only [lockOf, settle_kept, proposeAdmission]
    obtain hq | hq := Nat.lt_or_ge s.bi.queue.length 6
    · rw [offerPropose_of_room _ hq]; simp
    · rw [offerPropose_of_full _ hq]
  unfold enterGroup
  split
  · exact hmember
  · split
    · exact .refl s
    · exact hadmission

theorem keepsLock_joinMissed (h : s.canIsolate = true) : KeepsLock s s.joinMissed := by
  have hdropped : KeepsLock s (s.dropBodies (·.isAdmit)).discardCopy := .of_kept (by simp) (by simp)
  have hcan : (s.dropBodies (·.isAdmit)).discardCopy.canIsolate = true := (canIsolate_congr (by simp)).trans h
  simp only [joinMissed]
  split
  · exact hdropped.trans (keepsLock_enterDormant hcan)
  · exact hdropped.trans (.of_lock (by simp [lockOf]) fun _ => hcan)

/-! ### The three steps -/

theorem keepsLock_applyEntry (s : State) (e : QueueEntry) : KeepsLock s (s.applyEntry e) := by
  have happlied : KeepsLock s (s.applied e) := .of_kept (by simp) (by simp)
  have hmember (h : (s.applied e).isMember = true) := canIsolate_of_member h
  rw [applyEntry_eq]
  refine happlied.trans ?_
  unfold applyToOwn
  split
  · exact .refl _
  · split
    · refine .doIf fun h => keepsLock_becomeMember (canIsolate_of_follower ?_)
      rw [isFollower, h]
      simp
    · exact .doIf fun h => keepsLock_enterDormant (hmember h)
    · exact .doIf fun h => keepsLock_listenRemoved (hmember h)
    · exact .refl _
    · exact .refl _
    · exact .refl _

theorem keepsLock_makeEntryFirm (s : State) (e : QueueEntry) : KeepsLock s (s.makeEntryFirm e) := by
  obtain ⟨late, -, heq⟩ := makeEntryFirm_eq s e
  rw [heq]
  exact .of_kept (by simp) (by simp)

theorem keepsLock_stepTwo (s : State) : KeepsLock s s.stepTwo :=
  ((KeepsLock.foldl keepsLock_applyEntry _ s).trans (KeepsLock.foldl keepsLock_makeEntryFirm _ _)).trans (keepsLock_settle _)

theorem keepsLock_stepThree (admitted : StationId → Bool) (s : State) : KeepsLock s (s.stepThree admitted) := by
  cases hm : s.isMember with
  | true =>
    obtain ⟨hsc, htb, -⟩ := proposeLosses_kept (s.updateSilence admitted)
    have hcleared : KeepsLock s (s.updateSilence admitted).proposeLosses.clearHeard :=
      .of_kept (by simp [htb]) (by simp [hsc])
    rw [stepThree_of_member admitted hm]
    refine hcleared.trans (.doIf fun _ => keepsLock_enterResync none ?_)
    exact (canIsolate_congr (by simp [hsc])).trans (canIsolate_of_member hm)
  | false =>
    cases hf : s.isFollower with
    | true =>
      rw [stepThree_of_follower admitted hf]
      split
      · exact .of_kept (by simp) (by simp)
      · exact .refl s
    | false =>
      have hcounts : s.countsSilence = false := by simp [countsSilence, hm, hf]
      simp only [stepThree, hcounts]
      exact .refl s

theorem keepsLock_stepOne (s : State) : KeepsLock s s.stepOne := .of_lock rfl id

theorem keepsLock_stepsOneToThree (h : s.foundsNow = false) : KeepsLock s s.stepsOneToThree := by
  cases ha : s.actsAtBoundary with
  | true =>
    rw [stepsOneToThree_of_acts h ha]
    exact (((keepsLock_stepOne s).trans (keepsLock_stepTwo _)).trans (keepsLock_stepThree _ _)).trans (keepsLock_settle _)
  | false => rw [stepsOneToThree_of_rests ha h]; exact keepsLock_stepOne s

/-! ### The work after them -/

theorem keepsLock_discardCopy (s : State) : KeepsLock s s.discardCopy := .of_kept (by simp) (by simp)

theorem keepsLock_yieldToGroup (n : Nat) (h : s.canIsolate = true) : KeepsLock s (s.yieldToGroup n) := by
  simp only [yieldToGroup]
  split
  · exact KeepsLock.trans (t := s.modRt fun rt => { rt with expectedKey := some n }) (.of_kept rfl rfl)
      (.doIf fun _ => keepsLock_discardCopy _)
  · exact .doIf fun _ => keepsLock_discardCopy _
  · exact keepsLock_joinMissed h
  · exact .refl s

theorem keepsLock_heardGroupTest (s : State) : KeepsLock s s.heardGroupTest := by
  have hforgotten : KeepsLock s (s.modRt fun rt => { rt with heardGroup := none }) := .of_kept rfl rfl
  simp only [heardGroupTest]
  split
  next hf =>
    cases s.lowerGroup with
    | none => exact hforgotten
    | some n => exact hforgotten.trans (keepsLock_yieldToGroup (s := s.modRt _) n (canIsolate_of_follower hf))
  next => exact hforgotten

theorem keepsLock_groupWork (n : Nat) (s : State) : KeepsLock s (s.groupWork n) := by
  refine .doIf fun _ => ?_
  have hbuilt : KeepsLock s (s.takeDigest.buildBeat n) := .of_kept (by simp) (by simp)
  exact (hbuilt.trans (keepsLock_heardGroupTest _)).trans (.of_kept (by simp) (by simp))

theorem keepsLock_holdoverAtBoundary (s : State) : KeepsLock s s.holdoverAtBoundary := by
  have hout : s.tb.state = .holdover → KeepsLock s s.leaveHoldover := fun h =>
    ⟨by simp, fun hc => (canIsolate_congr (by simp)).symm.trans hc, fun _ hs => absurd h hs⟩
  simp only [holdoverAtBoundary]
  split
  · exact .refl s
  next h =>
    split
    · exact hout (not_not.mp h)
    · exact KeepsLock.trans (t := s.modTb fun tb => { tb with holdoverEpochs := min s.lossEpochs (s.tb.holdoverEpochs + 1) })
        (.of_lock rfl id) (.doIf fun _ => keepsLock_isolate _ _)

theorem keepsLock_countStuck (s : State) : KeepsLock s s.countStuck := by
  simp only [countStuck]
  split
  · exact KeepsLock.trans (t := s.modBi fun bi => { bi with stuckEpochs := s.bi.stuckEpochs + 1 }) (.of_kept rfl rfl)
      (.doIf fun _ => keepsLock_isolate _ _)
  · exact .of_kept rfl rfl

/-- The line work of a boundary that an edge induces: no mark was missed. -/
theorem keepsLock_lineWork (s : State) : KeepsLock s (s.lineWork false) := by
  have hmark (v : State) : KeepsLock v (v.markSeenAtBoundary false) := .of_lock rfl id
  have hdrive (v : State) : KeepsLock v v.startDrive := .doIf fun _ => .of_lock rfl id
  have hclash (v : State) : KeepsLock v v.advanceClashWindow := .of_kept rfl rfl
  exact ((((keepsLock_holdoverAtBoundary s).trans (hmark _)).trans (hdrive _)).trans (hclash _)).trans (keepsLock_countStuck _)

theorem keepsLock_countUnlocked (s : State) : KeepsLock s s.countUnlocked := by
  simp only [countUnlocked]
  split
  · exact KeepsLock.trans (t := s.modSc fun sc => { sc with unlocked := s.sc.unlocked + 1 }) (.of_kept rfl rfl)
      (.doIf fun _ => keepsLock_isolate _ _)
  · exact .refl s

theorem keepsLock_countQuiet (c : Bool) (s : State) : KeepsLock s (s.countQuiet c) := by
  unfold countQuiet
  split
  · exact .of_kept rfl rfl
  · exact .of_kept rfl rfl
  · exact .refl s

theorem keepsLock_resyncTimeout (s : State) : KeepsLock s s.resyncTimeout :=
  .doIf fun h => keepsLock_listenUnheard (by
    simp only [Bool.and_eq_true, decide_eq_true_iff] at h
    simp [canIsolate, h.1])

theorem keepsLock_joinTest (s : State) : KeepsLock s s.joinTest :=
  .doIf fun h => keepsLock_enterGroup (by
    simp only [Bool.and_eq_true, decide_eq_true_iff] at h
    simp [canIsolate, h.1.1.1])

theorem keepsLock_resyncTest (s : State) : KeepsLock s s.resyncTest :=
  .doIf fun h => keepsLock_enterGroup (by
    simp only [Bool.and_eq_true, decide_eq_true_iff] at h
    simp [canIsolate, h.1])

theorem keepsLock_leaveIfPending (s : State) : KeepsLock s s.leaveIfPending := by
  refine .of_lock (by simp only [lockOf, leaveIfPending_tb]) fun h => ?_
  unfold leaveIfPending at h
  cases hc : (decide (s.sc.station = .member) && s.sc.leavePending) with
  | false => rwa [hc, doIf_false] at h
  | true =>
    simp only [Bool.and_eq_true, decide_eq_true_iff] at hc
    simp [canIsolate, hc.1]

theorem keepsLock_controllerWork (c d : Bool) (s : State) : KeepsLock s (s.controllerWork c d) := by
  have hholdoff : KeepsLock s (s.countHoldoff c) := .doIf fun _ => .of_kept rfl rfl
  exact (((((hholdoff.trans (keepsLock_countQuiet d _)).trans (keepsLock_countUnlocked _)).trans
    (keepsLock_resyncTimeout _)).trans (keepsLock_joinTest _)).trans (keepsLock_resyncTest _)).trans
    (keepsLock_leaveIfPending _)

theorem keepsLock_afterSteps (n : Nat) (c d : Bool) (s : State) : KeepsLock s (s.afterSteps n false c d) :=
  (((((keepsLock_groupWork n s).trans (keepsLock_lineWork _)).trans (keepsLock_controllerWork c d _)).trans
    (keepsLock_settle _)).trans (.of_kept (by simp) (by simp))).trans (keepsLock_settle _)

/-- A boundary that an edge induces, where no group is founded. -/
theorem keepsLock_boundary (h : s.foundsNow = false) : KeepsLock s (s.boundary false) := by
  rw [boundary_eq]
  exact (keepsLock_stepsOneToThree h).trans (keepsLock_afterSteps _ _ _ _)

theorem levelLow_boundary (s : State) : (s.boundary false).tb.levelLow = s.tb.levelLow := by
  cases h : s.foundsNow with
  | false => exact (keepsLock_boundary h).levelLow
  | true =>
    rw [boundary_eq, (keepsLock_afterSteps _ _ _ _).levelLow, stepsOneToThree_of_founds h]
    simp

end State
end Sys2Proof.Machine
end

section
/-! The recognised edge of the mark line, and acquisition (R27 to R32, R35, R37, R39). -/

namespace Sys2Proof.Machine

variable {s t u : State}

namespace State

/-! ### What an alignment leaves -/

theorem halfPoint_tb (s : State) : s.halfPoint.tb = s.tb := by
  have hfold : (allInputs.foldl pointForInput s).tb = s.tb := foldl_keeps (P := (·.tb)) (fun s i => by simp) _ s
  simp [halfPoint, hfold]

theorem crossStart_tb (e : Bool) (s : State) : (s.crossStart e).2.tb = s.tb := by
  simp only [crossStart]
  split
  · simp
  · split
    · simp [halfPoint_tb, nextFree]
    · simp [halfPoint_tb, nextFree]

theorem crossStart_sc (e : Bool) (s : State) : (s.crossStart e).2.sc = s.sc := startWithPoint_sc e s

theorem passTo_tb (p : Nat) (s : State) : (s.passTo p).tb = s.tb := by
  simp [passTo, pointIfPassed, halfPoint_tb]

theorem passTo_sc (p : Nat) (s : State) : (s.passTo p).sc = s.sc := by
  simp [passTo, pointIfPassed, halfPoint_sc]

theorem releaseIf_kept (c : Bool) (s : State) : (s.releaseIf c).sc = s.sc ∧ (s.releaseIf c).tb = s.tb
    ∧ (s.releaseIf c).pu = s.pu ∧ (s.releaseIf c).os.p = s.os.p := by
  cases c <;> exact ⟨rfl, rfl, rfl, rfl⟩

/-- The local cycle under an alignment is no concern of the Time Base or the Station Controller. -/
theorem alignCycle_kept (j : Nat) (c : Bool) (s : State) : (s.alignCycle j c).tb = s.tb ∧ (s.alignCycle j c).sc = s.sc := by
  unfold alignCycle
  split
  · simp only [jumpWithin, releaseIf_kept, passTo_tb, passTo_sc, true_and]
  · split
    · simp only [jumpAcrossEnd, releaseIf_kept, passTo_tb, passTo_sc, crossStart_tb, crossStart_sc, true_and]
    · rw [reanchor_eq]
      exact ⟨rfl, rfl⟩

/-- A station that this edge cannot make found a group (R5). -/
def NoFounding (s : State) : Prop := s.sc.station = .listen → s.sc.quiet + 1 < s.quietLimit

theorem foundsNow_of_noFounding (h : s.NoFounding) : s.foundsNow = false := by
  by_cases hs : s.sc.station = .listen
  · have hq := h hs
    simp [foundsNow, show ¬s.quietLimit ≤ s.sc.quiet + 1 by omega]
  · simp [foundsNow, hs]

theorem quietLimit_congr (h : t.sp.record = s.sp.record) : t.quietLimit = s.quietLimit := by
  simp only [quietLimit, listenEpochs, ownId_congr h, h]

theorem NoFounding.congr (h : s.NoFounding) (hsc : t.sc = s.sc) (hr : t.sp.record = s.sp.record) : t.NoFounding := by
  simpa only [NoFounding, hsc, quietLimit_congr hr] using h

/-- A forward alignment in a station that founds nothing. -/
theorem alignForward_kept (lead : Nat) (c : Bool) (h : s.NoFounding) : KeepsLock s (s.alignForward lead c)
    ∧ (s.alignForward lead c).tb.b = 2 ∧ (s.alignForward lead c).tb.k = 0
    ∧ (s.alignForward lead c).tb.en = (if 3 ≤ lead then s.tb.en + 1 else s.tb.en)
    ∧ (lead < 3 → (s.alignForward lead c).sc = s.sc) := by
  obtain ⟨htb, hsc⟩ := alignCycle_kept lead c s.alignCounters
  have hrecord : (s.alignCounters.alignCycle lead c).sp.record = s.sp.record :=
    (steady_alignCycle (Steady.rfl' (w := true))).record
  have hfounds := foundsNow_of_noFounding (h.congr hsc hrecord)
  have haligned : KeepsLock s (s.alignCounters.alignCycle lead c) :=
    .of_lock (by simp only [lockOf, htb]; rfl) fun hc => (canIsolate_congr (congrArg _ hsc)).symm.trans hc
  simp only [alignForward]
  obtain hlead | hlead := Nat.lt_or_ge lead 3
  · rw [decide_eq_false (Nat.not_le.mpr hlead), doIf_false, if_neg (Nat.not_le.mpr hlead)]
    exact ⟨haligned, by rw [htb]; rfl, by rw [htb]; rfl, by rw [htb]; rfl, fun _ => hsc⟩
  · obtain ⟨hb, hk, hen, -⟩ := boundary_counters false (s.alignCounters.alignCycle lead c)
    rw [decide_eq_true hlead, doIf_true, if_pos hlead]
    rw [hfounds, if_neg Bool.false_ne_true, htb] at hen
    exact ⟨haligned.trans (keepsLock_boundary hfounds), by rw [hb, htb]; rfl, by rw [hk, htb]; rfl, hen,
      fun h => absurd h (by omega)⟩

/-- A backward alignment re-anchors the local cycle and changes nothing else but the counters. -/
theorem alignBackward_eq (s : State) : s.alignBackward = s.alignCounters.reanchor := rfl

theorem alignBackward_kept (s : State) : KeepsLock s s.alignBackward ∧ s.alignBackward.tb = { s.tb with b := 2, k := 0 }
    ∧ s.alignBackward.sc = s.sc := by
  rw [alignBackward_eq, reanchor_eq]
  exact ⟨.of_lock rfl id, rfl, rfl⟩

theorem basis_reanchor (s : State) : SameBasis s s.reanchor := by
  obtain ⟨pu, ev, hreach⟩ := reachTest_frame s.atEnd
  rw [reanchor_eq]
  refine ⟨rfl, rfl, rfl, fun i => by cases i <;> rfl, rfl, by rw [hreach]; rfl, rfl, ?_⟩
  exact (reachTest_kept _).2.2.2.2.2.2.2.2.2.2.2.2.2.1

/-- Where nothing has changed that the rules read, settling changes nothing (R123, R137). -/
theorem settle_of_settled (h : s.Settled) : s.settle = s := by
  have hmode : s.remode = s := by
    rw [remode]
    refine if_neg fun hc => ?_
    simp only [Bool.and_eq_true, decide_eq_true_iff] at hc
    exact hc.2 (h.1 hc.1).symm
  rw [settle, hmode, recomputeTarget_of_same h.2]

/-! ### The edge (R27, R28, R37) -/

/-- The edge is recorded: its lead, and the low line that it begins. -/
def edgeNoted (s : State) : State := (s.modTb fun tb => { tb with
  lastLead := BitVec.ofNat 16 (min 65535 (s.leadOf s.edgePos)), levelLow := true, lowRun := 3, filterRun := 0 }).breakQuiet

/-- What every recognised edge ends with. -/
def edgeTreated (s : State) : State := ((s.modTb fun tb => { tb with markSeen := true }).breakQuiet).settle

theorem breakQuiet_kept (s : State) : s.breakQuiet.tb = s.tb ∧ s.breakQuiet.sc.station = s.sc.station
    ∧ s.breakQuiet.bi = s.bi ∧ s.breakQuiet.rt = s.rt ∧ s.breakQuiet.cq = s.cq ∧ s.breakQuiet.pu = s.pu
    ∧ s.breakQuiet.os = s.os ∧ s.breakQuiet.fu = s.fu ∧ s.breakQuiet.sp = s.sp
    ∧ s.breakQuiet.sc.unlocked = s.sc.unlocked := by
  simp [breakQuiet]

theorem breakQuiet_quiet (h : s.sc.station = .listen) : s.breakQuiet.sc.quiet = 0 := by
  simp [breakQuiet, h]

theorem breakQuiet_of_ne (h : s.sc.station ≠ .listen) : s.breakQuiet = s := by
  simp [breakQuiet, h]

theorem basis_breakQuiet (s : State) : SameBasis s s.breakQuiet :=
  basis_doIf .rfl' (basis_modSc .rfl' rfl)

/-- An edge where HOLDOVER, if the station is in it, has seen a release. -/
theorem markEdge_eq (hs : s.sc.station ≠ .setup) (h : s.tb.state = .holdover → s.tb.levelLow = false) : s.markEdge
    = ((s.edgeNoted.doIf (s.edgeNoted.tb.state = .holdover) leaveHoldover).treatEdge (s.leadOf s.edgePos)
        s.edgePos).edgeTreated := by
  have hno : ¬((decide (s.sc.station = .setup) || (decide (s.tb.state = .holdover) && s.tb.levelLow)) = true) := by
    simpa [hs] using h
  exact if_neg hno

theorem edgeNoted_kept (s : State) : s.edgeNoted.tb = { s.tb with
      lastLead := BitVec.ofNat 16 (min 65535 (s.leadOf s.edgePos)), levelLow := true, lowRun := 3, filterRun := 0 }
    ∧ s.edgeNoted.sc.station = s.sc.station ∧ s.edgeNoted.bi = s.bi ∧ s.edgeNoted.rt = s.rt ∧ s.edgeNoted.cq = s.cq
    ∧ s.edgeNoted.pu = s.pu ∧ s.edgeNoted.os = s.os ∧ s.edgeNoted.fu = s.fu ∧ s.edgeNoted.sp = s.sp := by
  simp [edgeNoted, breakQuiet_kept]

theorem edgeTreated_kept (s : State) : s.edgeTreated.tb = { s.tb with markSeen := true }
    ∧ s.edgeTreated.sc.station = s.sc.station ∧ s.edgeTreated.bi = s.bi ∧ s.edgeTreated.rt = s.rt
    ∧ s.edgeTreated.cq = s.cq ∧ s.edgeTreated.fu = s.fu ∧ s.edgeTreated.sp.record = s.sp.record
    ∧ s.edgeTreated.sc.unlocked = s.sc.unlocked := by
  simp [edgeTreated, breakQuiet_kept]

theorem edgeTreated_of_settled (h : s.Settled) : s.edgeTreated.pu = s.pu ∧ s.edgeTreated.os = s.os := by
  have hbefore : (s.modTb fun tb => { tb with markSeen := true }).breakQuiet.Settled :=
    h.congr ((basis_modTb .rfl').trans (basis_breakQuiet _))
  rw [edgeTreated, settle_of_settled hbefore]
  simp [breakQuiet_kept]

theorem steady_edgeTreated {w : Bool} (h : Steady w t s) : Steady w t s.edgeTreated :=
  steady_settle (steady_doIf (steady_modTb h fun _ => ⟨rfl, rfl, rfl, rfl⟩)
    (steady_modSc (steady_modTb h fun _ => ⟨rfl, rfl, rfl, rfl⟩) id))

theorem edgeTreated_quiet (h : s.edgeTreated.sc.station = .listen) : s.edgeTreated.sc.quiet = 0 := by
  rw [(edgeTreated_kept s).2.1] at h
  simp only [edgeTreated, settle_kept]
  exact breakQuiet_quiet h

/-- In ISOLATED and HALTED the edge does nothing more. -/
theorem treatEdge_of_cannot (lead trail : Nat) (h : s.canIsolate = false) : s.treatEdge lead trail = s := by
  simp [treatEdge, h]

theorem treatEdge_free (lead trail : Nat) (h : s.canIsolate = true) (hs : s.tb.state = .free) :
    s.treatEdge lead trail = s.edgeInFree lead := by
  simp [treatEdge, h, hs]

theorem treatEdge_acquiring (lead trail : Nat) (h : s.canIsolate = true) (hs : s.tb.state = .acquiring) :
    s.treatEdge lead trail = s.edgeInAcquiring lead trail := by
  simp [treatEdge, h, hs]

theorem treatEdge_driving (lead trail : Nat) (h : s.canIsolate = true) (hs : s.tb.state = .locked)
    (hd : s.drivesMarks = true) : s.treatEdge lead trail = s.edgeWhileDriving lead := by
  simp [treatEdge, h, hs, hd]

theorem treatEdge_following (lead trail : Nat) (h : s.canIsolate = true) (hs : s.tb.state = .locked)
    (hd : s.drivesMarks = false) : s.treatEdge lead trail = s.edgeWhileFollowing lead trail := by
  simp [treatEdge, h, hs, hd]

/-! ### The level of the line and the lead stay (R27, R28) -/

/-- What the edge records: the low line and the lead. -/
def edgeRecord (s : State) : Bool × Word := (s.tb.levelLow, s.tb.lastLead)

theorem edgeRecord_congr (h : t.tb = s.tb) : t.edgeRecord = s.edgeRecord := by simp only [edgeRecord, h]

theorem edgeRecord_alignForward (lead : Nat) (c : Bool) (s : State) : (s.alignForward lead c).edgeRecord = s.edgeRecord := by
  have haligned : (s.alignCounters.alignCycle lead c).edgeRecord = s.edgeRecord :=
    edgeRecord_congr (t := s.alignCounters.alignCycle lead c) (s := s.alignCounters) (alignCycle_kept _ _ _).1
  simp only [alignForward]
  cases decide (3 ≤ lead)
  · exact haligned
  · refine Eq.trans ?_ haligned
    rw [doIf_true, edgeRecord, levelLow_boundary, (boundary_counters false _).2.2.2]
    rfl

theorem edgeRecord_alignBackward (s : State) : s.alignBackward.edgeRecord = s.edgeRecord := by
  rw [edgeRecord, (alignBackward_kept s).2.1]
  rfl

theorem edgeRecord_alignEitherWay (lead : Nat) (s : State) : (s.alignEitherWay lead).edgeRecord = s.edgeRecord := by
  unfold alignEitherWay
  split
  · rfl
  · split
    · exact edgeRecord_alignForward lead false s
    · exact edgeRecord_alignBackward s

theorem timeStep_tb (s : State) : s.timeStep.tb = s.tb := by simp [timeStep]

theorem edgeRecord_edgeInFree (lead : Nat) (s : State) : (s.edgeInFree lead).edgeRecord = s.edgeRecord := by
  refine Eq.trans ?_ (edgeRecord_alignEitherWay lead s)
  simp [edgeInFree, edgeRecord]

theorem edgeRecord_edgeInAcquiring (lead trail : Nat) (s : State) :
    (s.edgeInAcquiring lead trail).edgeRecord = s.edgeRecord := by
  refine Eq.trans ?_ (edgeRecord_alignEitherWay lead s)
  simp only [edgeInAcquiring]
  split
  · rfl
  · split
    · rfl
    · split
      · simp [edgeRecord]
      · rfl

theorem edgeRecord_edgeWhileDriving (lead : Nat) (s : State) : (s.edgeWhileDriving lead).edgeRecord = s.edgeRecord := by
  unfold edgeWhileDriving
  split
  · rfl
  · split
    · exact edgeRecord_alignForward lead false s
    · split
      · exact (edgeRecord_alignForward lead true _).trans (edgeRecord_congr (timeStep_tb s))
      · rfl

theorem edgeRecord_edgeWhileFollowing (lead trail : Nat) (s : State) :
    (s.edgeWhileFollowing lead trail).edgeRecord = s.edgeRecord := by
  unfold edgeWhileFollowing
  split
  · rfl
  · split
    · split
      · exact edgeRecord_alignForward lead false s
      · exact (edgeRecord_alignForward lead true _).trans (edgeRecord_congr (timeStep_tb s))
    · split
      · exact edgeRecord_alignBackward s
      · exact (edgeRecord_alignBackward _).trans (edgeRecord_congr (timeStep_tb s))

theorem edgeRecord_treatEdge (lead trail : Nat) (s : State) : (s.treatEdge lead trail).edgeRecord = s.edgeRecord := by
  unfold treatEdge
  split
  · rfl
  · split
    · exact edgeRecord_edgeInFree lead s
    · exact edgeRecord_edgeInAcquiring lead trail s
    · split
      · exact edgeRecord_edgeWhileDriving lead s
      · exact edgeRecord_edgeWhileFollowing lead trail s
    · rfl

theorem toNat_lead (n : Nat) : (BitVec.ofNat 16 (min 65535 n)).toNat = min 65535 n := by
  rw [BitVec.toNat_ofNat]
  exact Nat.mod_eq_of_lt (by omega)

end State

open State in
/-- Settles O23. -/
theorem markEdgeIsRecorded : Obligations.MarkEdgeIsRecorded := by
  unfold Obligations.MarkEdgeIsRecorded
  refine ⟨fun s hs hh => ?_, fun s => ⟨rfl, fun posE hpos => if_neg hpos⟩⟩
  obtain ⟨htb, hst, hbi, hrt, hcq, hpu, hos, hfu, hsp⟩ := edgeNoted_kept s
  have hout : (s.edgeNoted.doIf (s.edgeNoted.tb.state = .holdover) leaveHoldover).edgeRecord
      = (true, BitVec.ofNat 16 (min 65535 (s.leadOf s.edgePos))) := by
    cases decide (s.edgeNoted.tb.state = .holdover) <;> simp [edgeRecord, htb]
  have hrecord := (edgeRecord_treatEdge (s.leadOf s.edgePos) s.edgePos _).trans hout
  have hsteady : Steady false s s.markEdge := steady_markEdge
  have heq := markEdge_eq hs hh
  simp only [edgeRecord, Prod.mk.injEq] at hrecord
  refine ⟨s.markEdge, exec_eq_next_iff.mpr rfl, ?_, ?_, ?_, fun hl => ?_, hsteady.record, fun hr hne => ?_⟩
  · rw [heq, (edgeTreated_kept _).1]
  · rw [heq, (edgeTreated_kept _).1]
    exact hrecord.1
  · rw [heq, (edgeTreated_kept _).1, hrecord.2, toNat_lead]
    rfl
  · rw [heq] at hl ⊢
    exact edgeTreated_quiet hl
  · have hcan : s.canIsolate = false := by
      obtain h | h := List.mem_pair.mp hr <;> simp [canIsolate, h]
    have hlisten : s.sc.station ≠ .listen := by
      obtain h | h := List.mem_pair.mp hr <;> simp [h]
    have hnot : (decide (s.edgeNoted.tb.state = .holdover)) = false := by
      rw [htb]
      exact decide_eq_false hne
    have hnoted : s.edgeNoted.sc = s.sc := by
      rw [edgeNoted, breakQuiet_of_ne (by simpa using hlisten)]
      rfl
    rw [heq, hnot, doIf_false, treatEdge_of_cannot _ _ ((canIsolate_congr hst).trans hcan)]
    obtain ⟨htb', -, hbi', hrt', hcq', -⟩ := edgeTreated_kept s.edgeNoted
    have hsc' : s.edgeNoted.edgeTreated.sc = s.sc := by
      rw [edgeTreated, breakQuiet_of_ne (by simpa [hnoted] using hlisten)]
      simpa using hnoted
    exact ⟨sameCounters_of_tb (by rw [htb', htb]) (by rw [htb', htb]) (by rw [htb', htb]), by rw [htb', htb], hsc',
      hrt'.trans hrt, hcq'.trans hcq, hbi'.trans hbi⟩

end Sys2Proof.Machine
end

section
/-! Acquisition: an edge in FREE and in ACQUIRING (R29 to R32, R35, R127, R132). -/

namespace Sys2Proof.Machine

variable {s t u : State}

namespace State

theorem epochCounts_congr (h : t.sp.record = s.sp.record) : t.epochCounts = s.epochCounts := by
  simp only [epochCounts, epochLen, period, h]

theorem lockWindow_congr (h : t.sp.record = s.sp.record) : t.lockWindow = s.lockWindow := by
  simp only [lockWindow, h]

/-- An edge ends the quiet of LISTEN, so that it founds nothing (R5). -/
theorem noFounding_edgeNoted (h : 2 ≤ s.listenEpochs) : s.edgeNoted.NoFounding := by
  intro hl
  have hlimit : s.edgeNoted.quietLimit = s.quietLimit := quietLimit_congr (by rw [(edgeNoted_kept s).2.2.2.2.2.2.2.2])
  have hquiet : s.edgeNoted.sc.quiet = 0 := breakQuiet_quiet (by rwa [(edgeNoted_kept s).2.1] at hl)
  rw [hquiet, hlimit, quietLimit]
  omega

theorem basis_edgeNoted (s : State) : SameBasis s s.edgeNoted := (basis_modTb .rfl').trans (basis_breakQuiet _)

/-- The alignment of an edge that founds nothing: forward with a boundary from 3 counts on, or backward. -/
theorem alignEitherWay_kept (lead : Nat) (h : s.NoFounding) : KeepsLock s (s.alignEitherWay lead)
    ∧ (s.alignEitherWay lead).tb.en = (if 3 ≤ lead ∧ 2 * lead ≤ s.epochCounts then s.tb.en + 1 else s.tb.en)
    ∧ (lead = 0 → s.alignEitherWay lead = s)
    ∧ (lead ≠ 0 → (s.alignEitherWay lead).tb.b = 2 ∧ (s.alignEitherWay lead).tb.k = 0)
    ∧ ((lead < 3 ∨ s.epochCounts < 2 * lead) → (s.alignEitherWay lead).sc = s.sc)
    ∧ (s.epochCounts < 2 * lead → s.alignEitherWay lead = s.alignBackward) := by
  unfold alignEitherWay
  by_cases h0 : lead = 0
  · rw [if_pos h0, h0]
    exact ⟨.refl s, by simp, fun _ => rfl, fun hne => absurd rfl hne, fun _ => rfl, fun hlt => absurd hlt (by omega)⟩
  · rw [if_neg h0]
    obtain hlt | hle := Nat.lt_or_ge s.epochCounts (2 * lead)
    · obtain ⟨hkeeps, htb, hsc⟩ := alignBackward_kept s
      rw [if_neg (by simpa [leadIsForward] using hlt), if_neg (by omega)]
      exact ⟨hkeeps, by rw [htb], fun h => absurd h h0, fun _ => by rw [htb]; exact ⟨rfl, rfl⟩, fun _ => hsc,
        fun _ => rfl⟩
    · obtain ⟨hkeeps, hb, hk, hen, hsc⟩ := alignForward_kept lead false h
      rw [if_pos (by simpa [leadIsForward] using hle), hen]
      exact ⟨hkeeps, by simp [hle], fun h => absurd h h0, fun _ => ⟨hb, hk⟩,
        fun hcase => hsc (hcase.resolve_right (Nat.not_lt.mpr hle)), fun hlt => absurd hlt (Nat.not_lt.mpr hle)⟩

theorem endOffset_congr (hpu : t.pu = s.pu) (hr : t.sp.record = s.sp.record) : t.endOffset = s.endOffset := by
  simp only [endOffset, hpu, period_congr hr]

/-- The local cycle after a backward alignment goes on unslewed from where B puts it (R127). -/
theorem alignBackward_placement (s : State) : s.alignBackward.pu.offset = s.endOffset ∧ s.alignBackward.pu.step = 0
    ∧ s.alignBackward.pu.length = s.period ∧ s.alignBackward.os.p = (2 + s.period - s.endOffset) % s.period := by
  have hpu : s.alignBackward.pu = _ := reanchor_pu s.alignCounters
  have hos : s.alignBackward.os.p = (2 + s.period - s.endOffset) % s.period := by
    rw [alignBackward_eq, reanchor_eq]
    rfl
  rw [hpu]
  exact ⟨rfl, rfl, rfl, hos⟩

theorem basis_alignBackward (s : State) : SameBasis s s.alignBackward := (basis_modTb .rfl').trans (basis_reanchor _)

/-- What a station that has settled is left with by a backward alignment, whatever becomes of its Time Base. -/
theorem edgeTreated_of_alignBackward (f : TimeBase → TimeBase) (h : s.Settled) :
    (s.edgeNoted.alignBackward.modTb f).edgeTreated.pu.offset = s.endOffset
      ∧ (s.edgeNoted.alignBackward.modTb f).edgeTreated.pu.step = 0
      ∧ (s.edgeNoted.alignBackward.modTb f).edgeTreated.pu.length = s.period
      ∧ (s.edgeNoted.alignBackward.modTb f).edgeTreated.os.p = (2 + s.period - s.endOffset) % s.period := by
  obtain ⟨-, -, -, -, -, hpu, -, -, hsp⟩ := edgeNoted_kept s
  have hsettled : (s.edgeNoted.alignBackward.modTb f).Settled :=
    ((h.congr (basis_edgeNoted s)).congr (basis_alignBackward _)).congr (basis_modTb .rfl')
  obtain ⟨hpu', hos'⟩ := edgeTreated_of_settled hsettled
  obtain ⟨hoffset, hstep, hlength, hp⟩ := alignBackward_placement s.edgeNoted
  have hend : s.edgeNoted.endOffset = s.endOffset := endOffset_congr hpu (by rw [hsp])
  have hperiod : s.edgeNoted.period = s.period := period_congr (by rw [hsp])
  rw [hpu', hos', ← hend, ← hperiod]
  exact ⟨hoffset, hstep, hlength, hp⟩

/-- A station outside HOLDOVER goes on from the noted edge. -/
theorem markEdge_of_ne_holdover (hs : s.sc.station ≠ .setup) (h : s.tb.state ≠ .holdover) :
    s.markEdge = (s.edgeNoted.treatEdge (s.leadOf s.edgePos) s.edgePos).edgeTreated := by
  have hnot : decide (s.edgeNoted.tb.state = .holdover) = false := by
    rw [(edgeNoted_kept s).1]
    exact decide_eq_false h
  rw [markEdge_eq hs fun hh => absurd hh h, hnot, doIf_false]

/-- What both acquiring states share: the counters after the alignment, and the lock state of a station that can still be
isolated. -/
theorem edgeAligned (hlisten : 2 ≤ s.listenEpochs) (lead : Nat) :
    (s.edgeNoted.alignEitherWay lead).tb.en = (if 3 ≤ lead ∧ 2 * lead ≤ s.epochCounts then s.tb.en + 1 else s.tb.en)
      ∧ (lead = 0 → (s.edgeNoted.alignEitherWay lead).SameCounters s)
      ∧ (lead ≠ 0 → (s.edgeNoted.alignEitherWay lead).tb.b = 2 ∧ (s.edgeNoted.alignEitherWay lead).tb.k = 0)
      ∧ ((lead < 3 ∨ s.epochCounts < 2 * lead) → (s.edgeNoted.alignEitherWay lead).canIsolate = s.canIsolate)
      ∧ (s.epochCounts < 2 * lead → s.edgeNoted.alignEitherWay lead = s.edgeNoted.alignBackward)
      ∧ ((s.edgeNoted.alignEitherWay lead).canIsolate = true → s.tb.state ≠ .holdover →
          (s.edgeNoted.alignEitherWay lead).tb.state = s.tb.state
          ∧ (s.edgeNoted.alignEitherWay lead).tb.inWindow = s.tb.inWindow) := by
  obtain ⟨htb, hst, -, -, -, -, -, -, hsp⟩ := edgeNoted_kept s
  obtain ⟨hkeeps, hen, hzero, hne, hsc, hback⟩ := alignEitherWay_kept lead (noFounding_edgeNoted hlisten)
  rw [epochCounts_congr (s := s) (by rw [hsp])] at hen hsc hback
  refine ⟨by rw [hen, htb], fun h => ?_, hne, fun h => ?_, hback, fun hc hh => ?_⟩
  · rw [hzero h]
    exact sameCounters_of_tb (by rw [htb]) (by rw [htb]) (by rw [htb])
  · exact canIsolate_congr ((congrArg _ (hsc h)).trans hst)
  · have hlock := hkeeps.lock hc (by rwa [htb])
    rwa [htb] at hlock

/-- The counters and the station state at the end of an edge. -/
theorem edgeTreated_counters (h : s.SameCounters t) : s.edgeTreated.SameCounters t := by
  obtain ⟨hb, hk, hen⟩ := h
  have htb := (edgeTreated_kept s).1
  exact ⟨hb.trans (by rw [htb]), hk.trans (by rw [htb]), hen.trans (by rw [htb])⟩

theorem canIsolate_edgeTreated (s : State) : s.edgeTreated.canIsolate = s.canIsolate :=
  canIsolate_congr (edgeTreated_kept s).2.1

/-- An edge in FREE: whatever it aligned, a station that can still be isolated is ACQUIRING. -/
theorem edgeInFree_eq (lead : Nat) (s : State) : ∃ f : TimeBase → TimeBase,
    s.edgeInFree lead = (s.alignEitherWay lead).modTb f
      ∧ (∀ tb, (f tb).b = tb.b ∧ (f tb).k = tb.k ∧ (f tb).en = tb.en)
      ∧ ((s.alignEitherWay lead).canIsolate = true →
          (s.edgeInFree lead).tb.state = .acquiring ∧ (s.edgeInFree lead).tb.inWindow = 1) := by
  cases hc : (s.alignEitherWay lead).canIsolate with
  | true =>
    refine ⟨fun tb => { tb with state := .acquiring, inWindow := 1 }, ?_, fun _ => ⟨rfl, rfl, rfl⟩, fun _ => ?_⟩ <;>
    simp only [edgeInFree, hc, doIf_true]
    exact ⟨rfl, rfl⟩
  | false =>
    refine ⟨id, ?_, fun _ => ⟨rfl, rfl, rfl⟩, nofun⟩
    simp only [edgeInFree, hc, doIf_false]
    rfl

/-- An edge in ACQUIRING: the count starts again, goes on, or leads to LOCKED, unless the alignment isolated the station. -/
theorem edgeInAcquiring_cases (lead trail : Nat) (s : State) :
    ((s.alignEitherWay lead).canIsolate = false → s.edgeInAcquiring lead trail = s.alignEitherWay lead)
      ∧ ((s.alignEitherWay lead).canIsolate = true → s.inWindow lead trail = false →
          s.edgeInAcquiring lead trail = (s.alignEitherWay lead).modTb fun tb => { tb with inWindow := 1 })
      ∧ ((s.alignEitherWay lead).canIsolate = true → s.inWindow lead trail = true →
          (s.alignEitherWay lead).tb.inWindow < 2 → s.edgeInAcquiring lead trail
            = (s.alignEitherWay lead).modTb fun tb => { tb with inWindow := tb.inWindow + 1 })
      ∧ ((s.alignEitherWay lead).canIsolate = true → s.inWindow lead trail = true →
          2 ≤ (s.alignEitherWay lead).tb.inWindow → s.edgeInAcquiring lead trail = (s.alignEitherWay lead).enterLocked) := by
  refine ⟨fun hc => ?_, fun hc hw => ?_, fun hc hw hn => ?_, fun hc hw hn => ?_⟩ <;>
  simp only [edgeInAcquiring, hc]
  · rfl
  · simp [hw]
  · simp [hw, show ¬3 ≤ (s.alignEitherWay lead).tb.inWindow + 1 by omega]
  · simp [hw, show 3 ≤ (s.alignEitherWay lead).tb.inWindow + 1 by omega]

/-- What an edge in ACQUIRING leaves of the counters and the station, and of the local cycle, whatever becomes of the count. -/
theorem edgeInAcquiring_kept (lead trail : Nat) (s : State) :
    (s.edgeInAcquiring lead trail).SameCounters (s.alignEitherWay lead)
      ∧ (s.edgeInAcquiring lead trail).sc.station = (s.alignEitherWay lead).sc.station
      ∧ SameBasis (s.alignEitherWay lead) (s.edgeInAcquiring lead trail)
      ∧ (s.edgeInAcquiring lead trail).pu = (s.alignEitherWay lead).pu
      ∧ (s.edgeInAcquiring lead trail).os = (s.alignEitherWay lead).os := by
  have hlocked (v : State) : SameBasis v v.enterLocked := basis_raise (basis_modSc (basis_modTb .rfl') rfl)
  simp only [edgeInAcquiring]
  split
  · exact ⟨⟨rfl, rfl, rfl⟩, rfl, .rfl', rfl, rfl⟩
  · split
    · exact ⟨⟨rfl, rfl, rfl⟩, rfl, basis_modTb .rfl', rfl, rfl⟩
    · split
      · exact ⟨sameCounters_of_tb (by simp) (by simp) (by simp), by simp, hlocked _, by simp, by simp⟩
      · exact ⟨⟨rfl, rfl, rfl⟩, rfl, basis_modTb .rfl', rfl, rfl⟩

end State

open State in
/-- Settles O25: the alignment by what the edge keeps of the lock, then the count of the two acquiring states. -/
theorem markEdgeWhileAcquiring : Obligations.MarkEdgeWhileAcquiring := by
  unfold Obligations.MarkEdgeWhileAcquiring
  intro s lead hcan hlisten hlead
  obtain ⟨hen, hzero, hne, hstays, hback, hlock⟩ := edgeAligned hlisten lead
  obtain ⟨htb, hst, -, -, -, -, -, -, hsp⟩ := edgeNoted_kept s
  have hs : s.sc.station ≠ .setup := station_ne_setup_of_canIsolate hcan
  have hcan' : s.edgeNoted.canIsolate = true := (canIsolate_congr hst).trans hcan
  have hwindow : s.edgeNoted.inWindow lead s.edgePos = (decide (lead ≤ s.lockWindow) || decide (s.edgePos ≤ s.lockWindow)) := by
    rw [inWindow, lockWindow_congr (s := s) (by rw [hsp])]
  refine ⟨fun hfree => ?free, fun hacq => ?acquiring⟩
  case free =>
    obtain ⟨f, hf, hcounters, hacquiring⟩ := edgeInFree_eq lead s.edgeNoted
    have heq : s.markEdge = (s.edgeNoted.edgeInFree lead).edgeTreated := by
      rw [markEdge_of_ne_holdover hs (by rw [hfree]; decide),
        treatEdge_free _ _ hcan' (by rw [htb]; exact hfree), ← hlead]
    have hstation : (s.edgeNoted.edgeInFree lead).edgeTreated.canIsolate
        = (s.edgeNoted.alignEitherWay lead).canIsolate := by
      rw [canIsolate_edgeTreated, hf]
      rfl
    obtain ⟨hb', hk', hen'⟩ := hcounters (s.edgeNoted.alignEitherWay lead).tb
    refine ⟨_, exec_eq_next_iff.mpr heq, ?_, fun h => edgeTreated_counters ?_, fun h => ?_, fun hc => ?_, fun h => ?_,
      fun h hset => ?_⟩
    · rw [(edgeTreated_kept _).1, hf]
      exact hen'.trans hen
    · obtain ⟨hb, hk, hen⟩ := hzero h
      rw [hf]
      exact ⟨hb.trans hb'.symm, hk.trans hk'.symm, hen.trans hen'.symm⟩
    · obtain ⟨hb, hk⟩ := hne h
      rw [(edgeTreated_kept _).1, hf]
      exact ⟨hb'.trans hb, hk'.trans hk⟩
    · rw [(edgeTreated_kept _).1]
      exact hacquiring (hstation.symm.trans hc)
    · rw [hstation, hstays h, hcan]
    · rw [hf, hback h]
      exact edgeTreated_of_alignBackward f hset
  case acquiring =>
    obtain ⟨-, hmiss, hhit, hthird⟩ := edgeInAcquiring_cases lead s.edgePos s.edgeNoted
    obtain ⟨hcounters, hstation', hbasis, hpu, hos⟩ := edgeInAcquiring_kept lead s.edgePos s.edgeNoted
    have heq : s.markEdge = (s.edgeNoted.edgeInAcquiring lead s.edgePos).edgeTreated := by
      rw [markEdge_of_ne_holdover hs (by rw [hacq]; decide),
        treatEdge_acquiring _ _ hcan' (by rw [htb]; exact hacq), ← hlead]
    have hstation : (s.edgeNoted.edgeInAcquiring lead s.edgePos).edgeTreated.canIsolate
        = (s.edgeNoted.alignEitherWay lead).canIsolate := by
      rw [canIsolate_edgeTreated]
      exact canIsolate_congr hstation'
    have hlocked (hc : (s.edgeNoted.alignEitherWay lead).canIsolate = true) := hlock hc (by rw [hacq]; decide)
    refine ⟨_, exec_eq_next_iff.mpr heq, ?_, fun h => edgeTreated_counters ?_, fun h => ?_, fun h => ?_, fun hl hp hc => ?_,
      fun hw hn hc => ?_, fun hw hn hc => ?_, fun h hset => ?_⟩
    · rw [(edgeTreated_kept _).1]
      exact hcounters.en.symm.trans hen
    · obtain ⟨hb, hk, hen⟩ := hzero h
      exact ⟨hb.trans hcounters.b, hk.trans hcounters.k, hen.trans hcounters.en⟩
    · obtain ⟨hb, hk⟩ := hne h
      rw [(edgeTreated_kept _).1]
      exact ⟨hcounters.b.symm.trans hb, hcounters.k.symm.trans hk⟩
    · rw [hstation, hstays h, hcan]
    · have hc' := hstation.symm.trans hc
      rw [(edgeTreated_kept _).1, hmiss hc' (by rw [hwindow]; simp [hl, hp])]
      exact ⟨(hlocked hc').1.trans hacq, rfl⟩
    · have hc' := hstation.symm.trans hc
      obtain ⟨hstate, hcount⟩ := hlocked hc'
      rw [(edgeTreated_kept _).1, hhit hc' (by rw [hwindow]; simpa using hw) (by rwa [hcount])]
      exact ⟨hstate.trans hacq, congrArg (· + 1) hcount⟩
    · have hc' := hstation.symm.trans hc
      obtain ⟨hstate, hcount⟩ := hlocked hc'
      rw [hthird hc' (by rw [hwindow]; simpa using hw) (by rwa [hcount])]
      obtain ⟨htb', -, -, -, -, -, -, hunlocked⟩ := edgeTreated_kept (s.edgeNoted.alignEitherWay lead).enterLocked
      have hlockEvent : (s.edgeNoted.alignEitherWay lead).enterLocked.hasEvent .lock = true := hasEvent_raise_same ..
      refine ⟨by rw [htb']; simp, by rw [htb']; simp, by rw [hunlocked]; simp, ?_⟩
      exact (steady_edgeTreated (Steady.rfl' (w := true))).hasEvent hlockEvent
    · have hnoted : s.edgeNoted.alignBackward.Settled := (hset.congr (basis_edgeNoted s)).congr (basis_alignBackward _)
      rw [hback h] at hbasis hpu hos
      obtain ⟨hpu', hos'⟩ := edgeTreated_of_settled (hnoted.congr hbasis)
      obtain ⟨hoffset, hstep, hlength, hp⟩ := edgeTreated_of_alignBackward id hset
      obtain ⟨hpu'', hos''⟩ := edgeTreated_of_settled (hnoted.congr (basis_modTb (g := id) .rfl'))
      rw [hpu'', modTb_pu] at hoffset hstep hlength
      rw [hos'', modTb_os] at hp
      rw [hpu', hos', hpu, hos]
      exact ⟨hoffset, hstep, hlength, hp⟩

end Sys2Proof.Machine
end

section
/-! What becomes of a frame that is missed, errs or is discarded: the copy of a follower (R6, R9, R10, R80, R87, R88), the error
flag and the reject vote (R44, R52, R54, R64). -/

namespace Sys2Proof.Machine

variable {s t u : State}

namespace State

/-! ### A missed frame (R6, R9) -/

theorem noCopy_discardCopy (s : State) : s.discardCopy.NoCopy := by constructor <;> simp

theorem outputsOff_discardCopy (hm : s.isMember = false) (hg : s.os.GatesOk) : s.discardCopy.OutputsOff :=
  outputsOff_of_settled (settle_settled _) ((isMember_congr (by simp)).trans hm)
    ((steady_discardCopy (w := true) .rfl').gates hg)

/-- What `noteAcceptance` and the end of a receive context leave. -/
theorem frameMissed_eq (seen : Bool) (hf : s.isFollower = true) : ∃ sc bi, s.frameMissed seen
    = State.missedFrame { s with sc := sc, bi := bi } ∧ sc.station = s.sc.station ∧ sc.leavePending = s.sc.leavePending
      ∧ bi = { s.bi with rx := none } := by
  refine ⟨(s.doIf seen noteAcceptance).sc, { s.bi with rx := none }, ?_, ?_, ?_, rfl⟩
  · rw [frameMissed, hf]
    cases seen
    · rfl
    · by_cases hl : s.sc.station = .listen <;> simp [noteAcceptance, hl, modBi, modSc]
  · cases seen
    · rfl
    · by_cases hl : s.sc.station = .listen <;> simp [noteAcceptance, hl]
  · cases seen
    · rfl
    · by_cases hl : s.sc.station = .listen <;> simp [noteAcceptance, hl]

theorem missedFrame_listen (h : s.sc.station = .listen ∨ s.sc.station = .resync) : s.missedFrame = s.discardCopy := by
  obtain h | h := h <;> simp only [missedFrame, h]

theorem missedFrame_joining (h : s.sc.station = .joining) : s.missedFrame = s.joinMissed := by
  simp only [missedFrame, h]

theorem joinMissed_stays (h : s.sc.leavePending = false) : s.joinMissed
    = ((s.dropBodies (·.isAdmit)).discardCopy.enterListen .none 0).settle := by
  simp [joinMissed, h]

theorem joinMissed_leaves (h : s.sc.leavePending = true) :
    s.joinMissed = (s.dropBodies (·.isAdmit)).discardCopy.enterDormant := by
  simp [joinMissed, h]

theorem enterListen_queue (standing : FollowStanding) (n : Nat) (s : State) :
    (s.enterListen standing n).bi.queue = s.bi.queue := by
  simp [enterListen, moveTo_queue]

/-- A joiner that has missed a frame and does not leave: LISTEN without a copy. -/
theorem joinMissed_listen (h : s.sc.leavePending = false) : s.joinMissed.sc.station = .listen ∧ s.joinMissed.NoCopy
    ∧ (s.os.GatesOk → s.joinMissed.OutputsOff) ∧ s.joinMissed.sc.tracked = none ∧ s.joinMissed.sc.joinHoldoff = 0
    ∧ s.joinMissed.SameCounters s ∧ (∀ x ∈ s.joinMissed.bi.queue, x.body.isAdmit = false)
    ∧ s.joinMissed.rt.heardGroup = none ∧ s.joinMissed.hasEvent .state = true := by
  have hsteady : Steady true s s.joinMissed := steady_joinMissed .rfl'
  have hqueue : s.joinMissed.bi.queue = s.bi.queue.filter fun x => !x.body.isAdmit := by
    rw [joinMissed_stays h, (settle_kept _).2.2.1, enterListen_queue]
    simp
  obtain ⟨hb, hk, hen, -⟩ := hsteady.counters rfl
  have hst : s.joinMissed.sc.station = .listen := by rw [joinMissed_stays h]; simp
  refine ⟨hst, ?_, fun hg => ?_, by rw [joinMissed_stays h]; simp, by rw [joinMissed_stays h]; simp,
    sameCounters_of_tb hb hk hen, fun x hx => ?_, by rw [joinMissed_stays h]; simp, ?_⟩
  · rw [joinMissed_stays h]
    constructor <;> simp
  · exact outputsOff_of_settled settled_joinMissed (isMember_of_listen hst) (hsteady.gates hg)
  · rw [hqueue, List.mem_filter] at hx
    simpa using hx.2
  · rw [joinMissed_stays h]
    exact (steady_settle (Steady.rfl' (w := true))).hasEvent (hasEvent_enterListen _ _ _)

/-- A joiner that has missed a frame and leaves: DORMANT. -/
theorem joinMissed_dormant (h : s.sc.leavePending = true) : s.joinMissed.sc.station = .dormant
    ∧ (s.os.GatesOk → s.joinMissed.OutputsOff) ∧ s.joinMissed.bi.queue = [] ∧ s.joinMissed.SameCounters s
    ∧ s.joinMissed.rt.heardGroup = none ∧ s.joinMissed.hasEvent .state = true := by
  have hsteady : Steady true s s.joinMissed := steady_joinMissed .rfl'
  obtain ⟨hb, hk, hen, -⟩ := hsteady.counters rfl
  have hst : s.joinMissed.sc.station = .dormant := by rw [joinMissed_leaves h]; simp
  refine ⟨hst, fun hg => ?_, by rw [joinMissed_leaves h]; simp, sameCounters_of_tb hb hk hen, ?_, ?_⟩
  · exact outputsOff_of_settled settled_joinMissed (by simp [isMember, hst]) (hsteady.gates hg)
  · rw [joinMissed_leaves h]
    simp [enterDormant]
  · rw [joinMissed_leaves h]
    exact hasEvent_enterDormant _

/-! ### The heard group (R80) -/

theorem lowerGroup_eq_some_iff {h : Nat} : s.lowerGroup = some h ↔ s.rt.heardGroup = some h
    ∧ ∃ r, s.referenceId = some r ∧ h < r := by
  unfold lowerGroup
  split
  next n r hn hr =>
    rw [hn, hr]
    by_cases hlt : n < r
    · rw [if_pos hlt, Option.some.injEq]
      exact ⟨fun heq => ⟨heq, r, rfl, by rwa [← heq]⟩, fun hh => hh.1⟩
    · rw [if_neg hlt]
      refine ⟨nofun, fun hh => ?_⟩
      obtain ⟨heq, r', hr', hlt'⟩ := hh
      rw [Option.some.injEq] at heq hr'
      rw [← heq, ← hr'] at hlt'
      exact absurd hlt' hlt
  next hno =>
    exact ⟨nofun, fun ⟨hh, r, hr, _⟩ => absurd hr (hno h r hh)⟩

/-- The state in which a lower group is acted on. -/
def heardForgotten (s : State) : State := s.modRt fun rt => { rt with heardGroup := none }

theorem heardGroupTest_of_lower {h : Nat} (hf : s.isFollower = true) (hl : s.lowerGroup = some h) :
    s.heardGroupTest = s.heardForgotten.yieldToGroup h := by
  simp only [heardGroupTest, hf, hl]
  rfl

theorem heardGroupTest_of_none (h : s.isFollower = false ∨ s.lowerGroup = none) : s.heardGroupTest = s.heardForgotten := by
  cases hf : s.isFollower with
  | false => simp only [heardGroupTest, hf]; rfl
  | true =>
    have hl := h.resolve_left (by simp [hf])
    simp only [heardGroupTest, hf, hl]
    rfl

theorem yieldToGroup_resync (h : Nat) (hs : s.sc.station = .resync) : s.yieldToGroup h
    = (s.modRt fun rt => { rt with expectedKey := some h }).doIf (s.rt.copySource = .reply) discardCopy := by
  simp only [yieldToGroup, hs]

theorem yieldToGroup_listen (h : Nat) (hs : s.sc.station = .listen) :
    s.yieldToGroup h = s.doIf s.hasCopy discardCopy := by
  simp only [yieldToGroup, hs]

theorem yieldToGroup_joining (h : Nat) (hs : s.sc.station = .joining) : s.yieldToGroup h = s.joinMissed := by
  simp only [yieldToGroup, hs]

theorem heardGroupTest_heardGroup (s : State) : s.heardGroupTest.rt.heardGroup = none := by
  cases hf : s.isFollower with
  | false => rw [heardGroupTest_of_none (.inl hf)]; rfl
  | true =>
    cases hl : s.lowerGroup with
    | none => rw [heardGroupTest_of_none (.inr hl)]; rfl
    | some h =>
      rw [heardGroupTest_of_lower hf hl]
      simp only [isFollower, Bool.or_eq_true, decide_eq_true_iff] at hf
      obtain (hs | hs) | hs := hf
      · rw [yieldToGroup_listen (s := s.heardForgotten) h hs]
        simp [heardForgotten]
      · rw [yieldToGroup_joining (s := s.heardForgotten) h hs]
        cases hp : s.heardForgotten.sc.leavePending with
        | false => exact (joinMissed_listen hp).2.2.2.2.2.2.2.1
        | true => exact (joinMissed_dormant hp).2.2.2.2.1
      · rw [yieldToGroup_resync (s := s.heardForgotten) h hs]
        simp [heardForgotten]

end State

open State in
/-- Settles O39. -/
theorem missedFrame_spec : Obligations.MissedFrame := by
  unfold Obligations.MissedFrame
  refine ⟨fun seen s => ⟨fun h => ?copy, fun hs hp => ?joiner, fun hs hp => ?leaver, fun hf => ?_⟩,
    fun s => ⟨fun k hk => ?_, fun hk hc => ?_, fun hk hc => ?_⟩, fun s h => lowerGroup_eq_some_iff, fun s => ?heard⟩
  case copy =>
    have hs := List.mem_pair.mp h
    have hf : s.isFollower = true := by obtain h | h := hs <;> simp [isFollower, h]
    have hsteady : Steady true s (s.frameMissed seen) := steady_frameMissed seen
    obtain ⟨sc, bi, heq, hst, -, hbi⟩ := frameMissed_eq seen hf
    rw [missedFrame_listen (by simpa [hst] using hs)] at heq
    obtain ⟨hb, hk, hen, -⟩ := hsteady.counters rfl
    have hstation : (s.frameMissed seen).sc.station = s.sc.station := by rw [heq]; simp [hst]
    refine ⟨s.frameMissed seen, rfl, hstation, by rw [heq]; exact noCopy_discardCopy _, fun hg => ?_,
      by rw [heq]; simp [hbi], sameCounters_of_tb hb hk hen, by rw [heq]; simp⟩
    rw [heq]
    exact outputsOff_discardCopy ((isMember_congr hst).trans (isMember_of_follower hf)) hg
  case joiner =>
    obtain ⟨sc, bi, heq, hst, hleave, hbi⟩ := frameMissed_eq seen (s := s) (by simp [isFollower, hs])
    rw [missedFrame_joining (hst.trans hs)] at heq
    obtain ⟨hst', hcopy, hoff, htracked, hholdoff, hcounters, hqueue, -⟩ :=
      joinMissed_listen (s := { s with sc := sc, bi := bi }) (hleave.trans hp)
    rw [← heq] at hst' hcopy hoff htracked hholdoff hcounters hqueue
    exact ⟨s.frameMissed seen, rfl, hst', hcopy, hoff, htracked, hholdoff, ⟨hcounters.b, hcounters.k, hcounters.en⟩, hqueue⟩
  case leaver =>
    obtain ⟨sc, bi, heq, hst, hleave, hbi⟩ := frameMissed_eq seen (s := s) (by simp [isFollower, hs])
    rw [missedFrame_joining (hst.trans hs)] at heq
    obtain ⟨hst', hoff, hqueue, hcounters, -⟩ :=
      joinMissed_dormant (s := { s with sc := sc, bi := bi }) (hleave.trans hp)
    rw [← heq] at hst' hoff hqueue hcounters
    exact ⟨s.frameMissed seen, rfl, hst', hoff, hqueue, ⟨hcounters.b, hcounters.k, hcounters.en⟩⟩
  · rw [exec_eq_next_iff]
    simp [frameMissed, hf]
  · simp only [referenceId, hk]
  · simp [referenceId, hk, hc]
  · simp [referenceId, hk, hc]
  case heard =>
    have hsteady : Steady true s s.heardGroupTest := steady_heardGroupTest .rfl'
    obtain ⟨hb, hk, hen, -⟩ := hsteady.counters rfl
    refine ⟨heardGroupTest_heardGroup s, sameCounters_of_tb hb hk hen, heardGroupTest_of_none, fun h hl =>
      ⟨fun hs => ?_, fun hs => ?_, fun hs hp => ?_, fun hs hp => ?_⟩⟩ <;>
    rw [heardGroupTest_of_lower (by simp [isFollower, hs]) hl]
    · rw [yieldToGroup_resync (s := s.heardForgotten) h hs]
      refine ⟨by simpa [heardForgotten] using hs, by simp, fun hc => ?_, fun hc => ?_⟩
      · rw [decide_eq_true (show s.heardForgotten.rt.copySource = .reply from hc), doIf_true]
        exact noCopy_discardCopy _
      · rw [decide_eq_false (show ¬s.heardForgotten.rt.copySource = .reply from hc), doIf_false]
        rfl
    · rw [yieldToGroup_listen (s := s.heardForgotten) h hs]
      refine ⟨by simpa [heardForgotten] using hs, fun hc => ?_, fun hc => ?_⟩
      · rw [show s.heardForgotten.hasCopy = true from hc, doIf_true]
        exact noCopy_discardCopy _
      · rw [show s.heardForgotten.hasCopy = false from hc, doIf_false]
        rfl
    · rw [yieldToGroup_joining (s := s.heardForgotten) h hs]
      obtain ⟨hst, hcopy, -, htracked, hholdoff, -, hqueue, -, hevent⟩ := joinMissed_listen (s := s.heardForgotten) hp
      exact ⟨hst, hcopy, htracked, hholdoff, hqueue, hevent⟩
    · rw [yieldToGroup_joining (s := s.heardForgotten) h hs]
      obtain ⟨hst, -, hqueue, -, -, hevent⟩ := joinMissed_dormant (s := s.heardForgotten) hp
      exact ⟨hst, hqueue, hevent⟩

/-! ### Error flags and votes (R44, R52, R64) -/

namespace State

theorem rejectAttempt_of_none (h : s.bi.attempt = none) : s.rejectAttempt = s := by simp only [rejectAttempt, h]

theorem loseAttempt_of_none (h : s.bi.attempt = none) : s.loseAttempt = s := by simp only [loseAttempt, h]

theorem countReject_below (h : s.bi.rejectCount < 7) :
    s.countReject = s.modBi fun bi => { bi with rejectCount := s.bi.rejectCount + 1 } := by
  simp [countReject, show ¬8 ≤ s.bi.rejectCount + 1 by omega]

theorem countReject_confines (hm : s.isMember = true) (h : 7 ≤ s.bi.rejectCount) : s.countReject
    = (s.modBi fun bi => { bi with rejectCount := s.bi.rejectCount + 1 }).enterIsolated .rxConfined := by
  have hlimit : decide (8 ≤ s.bi.rejectCount + 1) = true := decide_eq_true (by omega)
  simp only [countReject, hlimit, doIf_true]
  exact isolate_of_canIsolate _ (canIsolate_of_member hm)

/-- A confined station is ISOLATED for RX_CONFINED, with nothing of the group left. -/
theorem rxConfined (f : BusInterface → BusInterface) (s : State) :
    ((s.modBi f).enterIsolated .rxConfined).sc.station = .isolated
      ∧ ((s.modBi f).enterIsolated .rxConfined).sc.reason = .rxConfined
      ∧ (s.os.GatesOk → ((s.modBi f).enterIsolated .rxConfined).OutputsOff)
      ∧ ((s.modBi f).enterIsolated .rxConfined).NoCopy
      ∧ ((s.modBi f).enterIsolated .rxConfined).sp.tickets = s.ticketsVoided .isolated :=
  ⟨by simp, by simp, fun hg => outputsOff_enterIsolated _ hg, noCopy_enterIsolated _ _, by simp [ticketsVoided]⟩

theorem followsFrames_of_member (h : s.isMember = true) : s.followsFrames = true := by
  simp only [isMember, Bool.or_eq_true, decide_eq_true_iff] at h
  obtain h | h := h <;> simp [followsFrames, h]

theorem not_follower_of_member (h : s.isMember = true) : s.isFollower = false := by
  simp only [isMember, Bool.or_eq_true, decide_eq_true_iff] at h
  obtain h | h := h <;> simp [isFollower, h]

theorem followsFrames_of_follower (h : s.isFollower = true) : s.followsFrames = true := by
  simp only [isFollower, Bool.or_eq_true, decide_eq_true_iff] at h
  obtain (h | h) | h := h <;> simp [followsFrames, h]

/-- A format error of a station that sends nothing. -/
theorem formatError_of_not_sending (hf : s.followsFrames = true) (hn : s.bi.attempt = none) : s.formatError
    = (s.doIf s.isMember (modBi fun bi => { bi with errorFlagLeft := 3 * s.bitTime / 2 })).stopFollowing := by
  have hattempt : (s.doIf s.isMember (modBi fun bi => { bi with errorFlagLeft := 3 * s.bitTime / 2 })).bi.attempt = none := by
    simp [hn]
  simp [formatError, hf, rejectAttempt_of_none hattempt]

theorem errorFlagEnd_of_driven (hs : s.sc.station ≠ .setup) (h : s.bi.errorFlagLeft ≠ 0) : s.errorFlagEnd
    = (s.modBi fun bi => { bi with errorFlagLeft := 0 }).doIf s.isMember countReject := by
  simp [errorFlagEnd, hs, h]

theorem discardFrame_uncounted (votes : Bool) (hf : s.followsFrames = true) (hn : s.bi.attempt = none)
    (hv : (votes && s.isMember) = false) : s.discardFrame votes = s.modBi fun bi => { bi with rx := none } := by
  simp [discardFrame, hf, hv, rejectAttempt_of_none hn]

theorem discardFrame_counted (hf : s.followsFrames = true) (hm : s.isMember = true)
    (hn : s.countReject.bi.attempt = none) :
    s.discardFrame true = s.countReject.modBi fun bi => { bi with rx := none } := by
  simp [discardFrame, hf, hm, rejectAttempt_of_none hn]

/-- The clock of the vote slot at which a reject vote has been driven to its end. -/
theorem busSlot_at_vote {rx : RxContext} (hm : s.isMember = true) (hb : 0 < s.bitTime) (hrx : s.bi.rx = some rx)
    (hr : rx.rejecting = true) (ha : rx.slotAge = some (3 * s.bitTime / 4)) :
    s.busSlot = (s.modRx fun rx => { rx with slotAge := some (3 * s.bitTime / 4 + 1) }).countReject := by
  have hne : decide (3 * s.bitTime / 4 = s.bitTime) = false := decide_eq_false (by omega)
  simp only [busSlot, hrx, ha, hne, doIf_false, hr, hm, decide_true, Bool.and_self, doIf_true]
  exact if_neg (by omega)

/-! ### The cases of O38 -/

theorem exec_formatError_member (hm : s.isMember = true) (hn : s.NotSending) : exec .formatError s
    = .next { s with bi := { s.bi with errorFlagLeft := 3 * s.bitTime / 2, rx := none } } := by
  rw [exec_formatError, formatError_of_not_sending (followsFrames_of_member hm) hn.1, hm, doIf_true, stopFollowing,
    show (s.modBi fun bi => { bi with errorFlagLeft := 3 * s.bitTime / 2 }).isFollower = false from
      not_follower_of_member hm]
  rfl

theorem exec_formatError_follower (hf : s.isFollower = true) (hn : s.NotSending) : exec .formatError s
    = .next { s with bi := { s.bi with rx := s.bi.rx.map fun rx => { rx with lost := true } } } := by
  rw [exec_formatError, formatError_of_not_sending (followsFrames_of_follower hf) hn.1, isMember_of_follower hf,
    doIf_false, stopFollowing, hf]
  rfl

theorem exec_formatError_dormant (hd : s.sc.station = .dormant) (hn : s.NotSending) :
    exec .formatError s = .next { s with bi := { s.bi with rx := none } } := by
  have hf : s.isFollower = false := by simp [isFollower, hd]
  have hm : s.isMember = false := by simp [isMember, hd]
  rw [exec_formatError, formatError_of_not_sending (by simp [followsFrames, hd]) hn.1, hm, doIf_false, stopFollowing, hf]
  rfl

theorem exec_errorFlagEnd_below (hm : s.isMember = true) (hflag : s.bi.errorFlagLeft ≠ 0) (hc : s.bi.rejectCount < 7) :
    exec .errorFlagEnd s
      = .next { s with bi := { s.bi with errorFlagLeft := 0, rejectCount := s.bi.rejectCount + 1 } } := by
  rw [exec_errorFlagEnd, errorFlagEnd_of_driven (station_ne_setup_of_canIsolate (canIsolate_of_member hm)) hflag, hm,
    doIf_true, countReject_below (s := s.modBi fun bi => { bi with errorFlagLeft := 0 }) hc]
  rfl

theorem exec_errorFlagEnd_confines (hm : s.isMember = true) (hflag : s.bi.errorFlagLeft ≠ 0) (hc : 7 ≤ s.bi.rejectCount) :
    ∃ t, exec .errorFlagEnd s = .next t ∧ t.sc.station = .isolated ∧ t.sc.reason = .rxConfined
      ∧ (s.os.GatesOk → t.OutputsOff) ∧ t.NoCopy ∧ t.sp.tickets = s.ticketsVoided .isolated := by
  refine ⟨_, (exec_errorFlagEnd s).trans (congrArg _ (errorFlagEnd_of_driven
    (station_ne_setup_of_canIsolate (canIsolate_of_member hm)) hflag)), ?_⟩
  rw [hm, doIf_true, countReject_confines (s := s.modBi fun bi => { bi with errorFlagLeft := 0 }) hm hc]
  exact rxConfined (s := s.modBi fun bi => { bi with errorFlagLeft := 0 }) _

section
variable {reached mismatch : Bool}

theorem exec_frameDiscarded_below (hm : s.isMember = true) (hn : s.NotSending) (hc : s.bi.rejectCount < 7)
    (hv : (reached && (mismatch || s.slotInGuard) && !s.voteCounted) = true) : exec (.frameDiscarded reached mismatch) s
      = .next { s with bi := { s.bi with rejectCount := s.bi.rejectCount + 1, rx := none } } := by
  have hcount := countReject_below hc
  rw [exec_frameDiscarded, frameDiscarded, hv,
    discardFrame_counted (followsFrames_of_member hm) hm (by rw [hcount]; exact hn.1), hcount]
  rfl

theorem exec_frameDiscarded_confines (hm : s.isMember = true) (hc : 7 ≤ s.bi.rejectCount)
    (hv : (reached && (mismatch || s.slotInGuard) && !s.voteCounted) = true) : ∃ t,
      exec (.frameDiscarded reached mismatch) s = .next t ∧ t.sc.station = .isolated ∧ t.sc.reason = .rxConfined
        ∧ t.NoCopy ∧ t.sp.tickets = s.ticketsVoided .isolated := by
  have hcount := countReject_confines hm hc
  have hattempt : s.countReject.bi.attempt = none := by rw [hcount]; simp
  refine ⟨s.countReject.modBi fun bi => { bi with rx := none }, (exec_frameDiscarded _ _ s).trans (congrArg _ ?_), ?_⟩
  · rw [frameDiscarded, hv, discardFrame_counted (followsFrames_of_member hm) hm hattempt]
  · obtain ⟨hst, hreason, -, hcopy, htickets⟩ := rxConfined (fun bi =>
      { bi with rejectCount := s.bi.rejectCount + 1 }) s
    rw [hcount]
    generalize (s.modBi fun bi => { bi with rejectCount := s.bi.rejectCount + 1 }).enterIsolated .rxConfined = v at *
    exact ⟨hst, hreason, ⟨hcopy.1, hcopy.2, hcopy.3, hcopy.4, hcopy.5, hcopy.6, hcopy.7⟩, htickets⟩

theorem exec_frameDiscarded_uncounted (hf : s.followsFrames = true) (hn : s.NotSending)
    (h : s.isMember = false ∨ reached = false ∨ (mismatch = false ∧ s.slotInGuard = false) ∨ s.voteCounted = true) :
    exec (.frameDiscarded reached mismatch) s = .next { s with bi := { s.bi with rx := none } } := by
  have hvotes : ((reached && (mismatch || s.slotInGuard) && !s.voteCounted) && s.isMember) = false := by
    obtain h | h | ⟨h, h'⟩ | h := h
    · simp [h]
    · simp [h]
    · simp [h, h']
    · simp [h]
  rw [exec_frameDiscarded, frameDiscarded, discardFrame_uncounted _ hf hn.1 hvotes]
  rfl

end

section
variable {rx : RxContext}

theorem busSlot_at_vote_below (hm : s.isMember = true) (hb : 0 < s.bitTime) (hrx : s.bi.rx = some rx)
    (hr : rx.rejecting = true) (ha : rx.slotAge = some (3 * s.bitTime / 4)) (hc : s.bi.rejectCount < 7) :
    s.busSlot = { s with bi := { s.bi with
        rejectCount := s.bi.rejectCount + 1, rx := some { rx with slotAge := some (3 * s.bitTime / 4 + 1) } } }
      ∧ s.busSlot.voteCounted = true := by
  have hvote := busSlot_at_vote hm hb hrx hr ha
  rw [countReject_below (s := s.modRx _) hc] at hvote
  rw [hvote]
  refine ⟨by simp [modRx, modBi, hrx], ?_⟩
  simp [voteCounted, modRx, modBi, hrx, hr]
  exact Nat.le_refl _

theorem busSlot_at_vote_confines (hm : s.isMember = true) (hb : 0 < s.bitTime) (hrx : s.bi.rx = some rx)
    (hr : rx.rejecting = true) (ha : rx.slotAge = some (3 * s.bitTime / 4)) (hc : 7 ≤ s.bi.rejectCount) :
    s.busSlot.sc.station = .isolated ∧ s.busSlot.sc.reason = .rxConfined
      ∧ s.busSlot.sp.tickets = s.ticketsVoided .isolated := by
  rw [busSlot_at_vote hm hb hrx hr ha, countReject_confines (s := s.modRx _) hm hc]
  obtain ⟨hst, hreason, -, -, htickets⟩ := rxConfined (fun bi => { bi with rejectCount := s.bi.rejectCount + 1 })
    (s.modRx fun rx => { rx with slotAge := some (3 * s.bitTime / 4 + 1) })
  exact ⟨hst, hreason, htickets⟩

end

end State

open State in
/-- Settles O38, by the lemmas of its cases. -/
theorem errorsAndDiscards : Obligations.ErrorsAndDiscards := by
  unfold Obligations.ErrorsAndDiscards
  refine ⟨fun s => exec_formatError_member, fun s => exec_formatError_follower, fun s => exec_formatError_dormant,
    fun s hm hflag => ⟨exec_errorFlagEnd_below hm hflag, exec_errorFlagEnd_confines hm hflag⟩,
    fun s hm hs hflag => ?_, fun reached mismatch s hf hn => ⟨fun hm hreached hvote hcounted => ?_,
      exec_frameDiscarded_uncounted hf hn⟩,
    fun rx s hm hb hrx hr ha => ⟨busSlot_at_vote_below hm hb hrx hr ha, busSlot_at_vote_confines hm hb hrx hr ha⟩⟩
  · rw [exec_errorFlagEnd, errorFlagEnd_of_driven hs hflag, hm]
    rfl
  · have hv : (reached && (mismatch || s.slotInGuard) && !s.voteCounted) = true := by
      obtain h | h := hvote <;> simp [hreached, h, hcounted]
    exact ⟨fun hc => exec_frameDiscarded_below hm hn hc hv, fun hc => exec_frameDiscarded_confines hm hc hv⟩

end Sys2Proof.Machine
end

section
/-! The end of an attempt without acceptance (R8, R11, R13, R61 to R63, R179): what waited for it, the attempt limit, and the
loss of arbitration (R49). -/

namespace Sys2Proof.Machine

variable {s t u : State} {x : QueuedFrame} {body : QueuedBody} {seq : Byte} {d : ProposalContent} {z : Ticket}

/-- The ticket as an abandonment leaves it. -/
def Ticket.abandonedNow (z : Ticket) : Ticket :=
  { z with state := .abandoned, withdrawRequest := false, withdrawQueued := false }

namespace State

/-! ### What leaves no attempt in flight -/

theorem attempt_dropFrames {test : QueuedFrame → Bool} (h : s.bi.attempt = none) :
    (s.dropFrames test).bi.attempt = none := by simp [dropFrames, BusInterface.dropAttempt, h]

theorem attempt_dropBodies {test : QueuedBody → Bool} (h : s.bi.attempt = none) :
    (s.dropBodies test).bi.attempt = none := attempt_dropFrames h

theorem attempt_moveTo (new : StationState) (h : s.bi.attempt = none) : (s.moveTo new).bi.attempt = none := by
  simp [moveTo, dropMemberWork, emptyTripSlot, dropBodies, dropFrames, BusInterface.dropAttempt, h]

theorem attempt_listenWithCopy (h : s.bi.attempt = none) : s.listenWithCopy.bi.attempt = none := by
  simp [listenWithCopy, enterListen, attempt_moveTo _ h]

theorem attempt_returnToMember (hp : s.sc.leavePending = false) (h : s.bi.attempt = none) :
    s.returnToMember.bi.attempt = none := by
  simp [returnToMember, becomeMember_of_not_pending hp, attempt_moveTo _ h]

/-! ### LISTEN with the copy kept (R8) -/

theorem listenWithCopy_sc (s : State) : s.listenWithCopy.sc
    = ⟨.listen, .none, 0, 0, s.listenEpochs, s.sc.standing, false, none, false, false⟩ := by
  simp [listenWithCopy, enterListen]

theorem sameShared_listenWithCopy (s : State) : s.listenWithCopy.SameShared s := by
  constructor <;> simp [listenWithCopy]

theorem listenWithCopy_bi (s : State) : s.listenWithCopy.bi.queue = s.bi.queue
    ∧ s.listenWithCopy.bi.abandonCount = s.bi.abandonCount ∧ s.listenWithCopy.rt.copySource = s.rt.copySource := by
  simp [listenWithCopy, enterListen_queue]

theorem mem_tickets_listenWithCopy (hz : z ∈ s.sp.tickets) (hu : z.unfinished = false) :
    z ∈ s.listenWithCopy.sp.tickets := by
  simpa [listenWithCopy, enterListen] using mem_tickets_moveTo (new := .listen) hz hu

/-! ### The outcomes of the tracked proposal (R8, R13) -/

theorem trackedLost_joining (h : s.sc.station = .joining) : s.trackedLost = s.joinFailed := by rw [trackedLost, h]

theorem trackedLost_leaving (h : s.sc.station = .leaving) : s.trackedLost = s.returnToMember := by rw [trackedLost, h]

theorem joinFailed_listens (h : s.sc.leavePending = false) : s.joinFailed = s.listenWithCopy := by simp [joinFailed, h]

theorem joinFailed_leaves (h : s.sc.leavePending = true) : s.joinFailed = s.enterDormant := by simp [joinFailed, h]

theorem mem_tickets_joinFailed (hz : z ∈ s.sp.tickets) (hu : z.unfinished = false) : z ∈ s.joinFailed.sp.tickets := by
  unfold joinFailed
  split
  · exact mem_tickets_enterDormant hz hu
  · exact mem_tickets_listenWithCopy hz hu

theorem attempt_joinFailed (h : s.bi.attempt = none) : s.joinFailed.bi.attempt = none := by
  unfold joinFailed
  split
  · simp
  · exact attempt_listenWithCopy h

/-- A finished ticket outlives the outcome of the tracked proposal. -/
theorem mem_tickets_trackedLost (hp : s.sc.station = .leaving → s.sc.leavePending = false) (hz : z ∈ s.sp.tickets)
    (hu : z.unfinished = false) : z ∈ s.trackedLost.sp.tickets := by
  unfold trackedLost
  split
  next => exact mem_tickets_joinFailed hz hu
  next h =>
    obtain ⟨-, -, -, -, -, -, htickets, -⟩ := returnToMember_kept (hp h)
    rwa [htickets]
  next => exact hz

/-! ### The frame is queued again (R49, R61) -/

@[simp] theorem landAttempt_kept (n : Nat) (s : State) : (s.landAttempt n).sc = s.sc ∧ (s.landAttempt n).tb = s.tb
    ∧ (s.landAttempt n).rt = s.rt ∧ (s.landAttempt n).cq = s.cq ∧ (s.landAttempt n).pu = s.pu
    ∧ (s.landAttempt n).os = s.os ∧ (s.landAttempt n).fu = s.fu ∧ (s.landAttempt n).sp = s.sp
    ∧ (s.landAttempt n).bi = { s.bi with
        attempt := none
        tripSlot := s.bi.tripSlot.map fun y => { y with inFlight := false }
        queue := s.bi.queue.map fun y => if y.inFlight then { y with attempts := n, inFlight := false } else y } :=
  ⟨rfl, rfl, rfl, rfl, rfl, rfl, rfl, rfl, rfl⟩

/-- The frame of the attempt is the only one in flight. -/
def SoleFlight (x : QueuedFrame) (s : State) : Prop :=
  s.bi.queue.find? (·.inFlight) = some x ∧ ∀ y ∈ s.bi.queue, y.inFlight = true → y = x

/-- The only frame in flight keeps its count where it is landed with it. -/
theorem landed_queue (h : s.SoleFlight x) :
    (s.bi.queue.map fun y => if y.inFlight then { y with attempts := x.attempts, inFlight := false } else y)
      = s.bi.queue.map fun y => if y.inFlight then { y with inFlight := false } else y := by
  refine List.map_congr_left fun y hy => ?_
  cases hf : y.inFlight with
  | false => rfl
  | true => rw [h.2 y hy hf]

theorem landed_queue_of_none (n : Nat) (h : ∀ y ∈ s.bi.queue, y.inFlight = false) :
    (s.bi.queue.map fun y => if y.inFlight then { y with attempts := n, inFlight := false } else y) = s.bi.queue := by
  rw [List.map_congr_left (g := id) fun y hy => by simp [h y hy], List.map_id]

theorem inFlightFrame_of_none (h : ∀ y ∈ s.bi.queue, y.inFlight = false) : s.inFlightFrame = none := by
  simpa [inFlightFrame] using h

/-! ### What waited for the end of the attempt (R11, R179) -/

/-- Neither a STOP nor a withdraw request waits for the end of the attempt. -/
def NothingWaits (body : QueuedBody) (s : State) : Prop := ∀ seq d, body = .propose seq d →
  ¬(s.sc.station = .joining ∧ s.sc.tracked = some ⟨s.ownId, seq⟩ ∧ s.sc.leavePending = true)
  ∧ ∀ z ∈ s.sp.tickets, z.unfinished = true → z.number = seq → z.kind.fits d = true → z.withdrawRequest = false

/-- A withdraw request waits for the end of the attempt, at a member. -/
structure WithdrawWaits (seq : Byte) (d : ProposalContent) (z : Ticket) (s : State) : Prop where
  member : s.isMember = true
  mem : z ∈ s.sp.tickets
  unfinished : z.unfinished = true
  number : z.number = seq
  fits : z.kind.fits d = true
  reserved : z.reserved = false
  request : z.withdrawRequest = true
  pending : s.sc.station = .leaving → s.sc.leavePending = false

theorem actOnEnd_of_nothing (h : s.NothingWaits body) : s.actOnEnd body = s := by
  cases body with
  | propose seq d =>
    obtain ⟨hstop, hwithdraw⟩ := h seq d rfl
    have hjoin : (s.sc.station = .joining && s.tracks ⟨s.ownId, seq⟩ && s.sc.leavePending) = false := by
      simpa [tracks, ← Bool.not_eq_true] using hstop
    have hany : (s.sp.tickets.any fun t => t.unfinished && t.number = seq && t.kind.fits d && t.withdrawRequest) = false := by
      simpa using fun z hz hu hn hk => hwithdraw z hz hu hn hk
    simp only [actOnEnd, hjoin, hany]
    rfl
  | beat | object | reply | query => rfl

theorem actOnEnd_stopped (hs : s.sc.station = .joining) (hp : s.sc.leavePending = true)
    (ht : s.sc.tracked = some ⟨s.ownId, seq⟩) : s.actOnEnd (.propose seq d) = s.enterDormant := by
  simp [actOnEnd, hs, hp, tracks, ht]

/-- The proposal withdrawn at the end of its attempt (R179). -/
def endWithdrawn (seq : Byte) (d : ProposalContent) (s : State) : State :=
  (s.dropBodies (·.isPropose seq d)).reportTicket seq d (Ticket.finish .abandoned)

theorem actOnEnd_withdrawn (h : s.WithdrawWaits seq d z) : s.actOnEnd (.propose seq d)
    = (s.endWithdrawn seq d).doIf (s.sc.station = .leaving && s.tracks ⟨s.ownId, seq⟩) returnToMember := by
  have hj : s.sc.station ≠ .joining := by
    intro hs
    have hm := h.member
    simp [isMember, hs] at hm
  have hany : (s.sp.tickets.any fun t => t.unfinished && t.number = seq && t.kind.fits d && t.withdrawRequest) = true :=
    List.any_eq_true.mpr ⟨z, h.mem, by simp [h.unfinished, h.number, h.fits, h.request]⟩
  simp only [actOnEnd, hj, hany]
  rfl

@[simp] theorem endWithdrawn_kept (seq : Byte) (d : ProposalContent) (s : State) :
    (s.endWithdrawn seq d).sc = s.sc ∧ (s.endWithdrawn seq d).tb = s.tb ∧ (s.endWithdrawn seq d).rt = s.rt
      ∧ (s.endWithdrawn seq d).cq = s.cq ∧ (s.endWithdrawn seq d).pu = s.pu ∧ (s.endWithdrawn seq d).os = s.os
      ∧ (s.endWithdrawn seq d).fu.tripSet = s.fu.tripSet ∧ (s.endWithdrawn seq d).bi.errorFlagLeft = s.bi.errorFlagLeft
      ∧ (s.endWithdrawn seq d).bi.queue = s.bi.queue.filter fun y => !y.body.isPropose seq d := by
  simp [endWithdrawn]

/-- A ticket of a proposal that the Setup Port produces is of no kind that the tests of the Fault Unit offer (R180). -/
theorem not_standing_of_fits (h : z.kind.fits d = true) : (QueuedBody.propose seq d).isStandingOffer = false := by
  unfold TicketKind.fits at h
  split at h
  · rfl
  · rfl
  · rfl
  · exact absurd h (by simp)

theorem ne_body_of_mem_endWithdrawn : ∀ y ∈ (s.endWithdrawn seq d).bi.queue, y.body ≠ .propose seq d := by
  intro y hy heq
  simp [heq, QueuedBody.isPropose] at hy

theorem mem_queue_returnToMember (hp : s.sc.leavePending = false) {y : QueuedFrame}
    (hy : y ∈ s.returnToMember.bi.queue) : y ∈ s.bi.queue ∨ y.body.isStandingOffer = true := by
  rw [returnToMember, becomeMember_of_not_pending hp] at hy
  simp only [settle_kept] at hy
  obtain h | h := mem_memberTests hy
  · left
    simp only [modSc_bi, modRt_bi, moveTo_queue] at h
    simpa using List.mem_of_mem_filter h
  · exact .inr h

/-- What the end of an attempt is to a proposal with a withdraw request: dropped and its ticket ABANDONED; a station LEAVING by
it is MEMBER again (R13, R179). -/
theorem actOnEnd_of_withdrawWaits (h : s.WithdrawWaits seq d z) (ha : s.bi.attempt = none) (ht : t = s.actOnEnd (.propose seq d)) :
    t.bi.attempt = none ∧ (∀ y ∈ t.bi.queue, y.body ≠ .propose seq d) ∧ z.abandonedNow ∈ t.sp.tickets
      ∧ t.hasEvent .ticket = true ∧ t.SameShared s ∧ t.tb = s.tb
      ∧ (¬(s.sc.station = .leaving ∧ s.sc.tracked = some ⟨s.ownId, seq⟩) → t.sc = s.sc)
      ∧ (s.sc.station = .leaving → s.sc.tracked = some ⟨s.ownId, seq⟩ →
          t.sc.station = .member ∧ t.sc.tracked = none ∧ t.hasEvent .state = true) := by
  obtain rfl := h.number
  have hnone : (s.endWithdrawn z.number d).bi.attempt = none := by simpa [endWithdrawn] using attempt_dropBodies ha
  have hmem : z.abandonedNow ∈ (s.endWithdrawn z.number d).sp.tickets := by
    have := mem_tickets_reportTicket (s := s.dropBodies (·.isPropose z.number d)) (d := d) (Ticket.finish .abandoned)
      (by simpa using h.mem) h.unfinished h.fits h.reserved
    simpa [Ticket.finish, Ticket.abandonedNow, h.reserved, endWithdrawn] using this
  have hevent : (s.endWithdrawn z.number d).hasEvent .ticket = true :=
    hasEvent_reportTicket (by simpa using h.mem) h.unfinished h.fits h.reserved rfl
  rw [actOnEnd_withdrawn h] at ht
  by_cases hl : s.sc.station = .leaving ∧ s.sc.tracked = some ⟨s.ownId, z.number⟩
  case neg =>
    have hfalse : (s.sc.station = .leaving && s.tracks ⟨s.ownId, z.number⟩) = false := by
      simpa [tracks, ← Bool.not_eq_true] using hl
    rw [hfalse, doIf_false] at ht
    subst ht
    exact ⟨hnone, ne_body_of_mem_endWithdrawn, hmem, hevent, by constructor <;> simp, by simp, fun _ => by simp,
      fun hs htr => absurd ⟨hs, htr⟩ hl⟩
  case pos =>
    have htrue : (s.sc.station = .leaving && s.tracks ⟨s.ownId, z.number⟩) = true := by simp [tracks, hl.1, hl.2]
    have hpending : (s.endWithdrawn z.number d).sc.leavePending = false := by simpa using h.pending hl.1
    obtain ⟨hsc, htb, hentries, hqueue, hduty, htrips, htickets, -⟩ := returnToMember_kept hpending
    have hshared : (s.endWithdrawn z.number d).returnToMember.SameShared s := by
      constructor <;> simp [hentries, hqueue, hduty, htrips]
    have hticket : (s.endWithdrawn z.number d).returnToMember.hasEvent .ticket = true :=
      (steady_returnToMember (Steady.rfl' (w := true))).hasEvent hevent
    have hstate := hasEvent_state_returnToMember hpending
    have hbodies : ∀ y ∈ (s.endWithdrawn z.number d).returnToMember.bi.queue, y.body ≠ .propose z.number d := by
      intro y hy heq
      obtain hy | hy := mem_queue_returnToMember hpending hy
      · exact ne_body_of_mem_endWithdrawn y hy heq
      · rw [heq, not_standing_of_fits h.fits] at hy
        exact absurd hy (by simp)
    have hattempt := attempt_returnToMember hpending hnone
    simp only [endWithdrawn_kept] at htb
    rw [htrue, doIf_true] at ht
    rw [← ht] at hsc htb htickets hshared hticket hstate hbodies hattempt
    exact ⟨hattempt, hbodies, by rw [htickets]; exact hmem, hticket, hshared, htb, fun hn => absurd hl hn,
      fun _ _ => ⟨by rw [hsc], by rw [hsc], hstate⟩⟩

/-! ### The attempt limit (R61, R63) -/

/-- A frame at its limit dropped, before its owner is told. -/
def frameDropped (s : State) : State :=
  ((s.dropFrames (·.inFlight)).raise .txAbandoned).modBi fun bi =>
    { bi with attempt := none, abandonCount := s.bi.abandonCount + 1 }

/-- A frame at its limit dropped and its ticket ABANDONED, before the station state follows. -/
def frameAbandoned (body : QueuedBody) (s : State) : State :=
  match body with
  | .propose seq c => s.frameDropped.reportTicket seq c (Ticket.finish .abandoned)
  | _ => s.frameDropped

/-- The proposal of the frame is not the tracked one. -/
def Untracked (body : QueuedBody) (s : State) : Prop :=
  ∀ seq d, body = .propose seq d → s.sc.tracked ≠ some ⟨s.ownId, seq⟩

theorem abandonFrame_of_untracked (hn : s.bi.abandonCount < 2) (h : s.Untracked body) :
    s.abandonFrame body = s.frameAbandoned body := by
  have hlimit : ¬3 ≤ s.bi.abandonCount + 1 := by omega
  cases body with
  | propose seq d =>
    have htracks : s.tracks ⟨s.ownId, seq⟩ = false := by simpa [tracks] using h seq d rfl
    simp only [abandonFrame, if_neg hlimit, htracks, doIf_false]
    rfl
  | beat | object | reply | query =>
    simp only [abandonFrame, decide_eq_false hlimit, doIf_false]
    rfl

theorem abandonFrame_of_tracked (hn : s.bi.abandonCount < 2) (h : s.sc.tracked = some ⟨s.ownId, seq⟩) :
    s.abandonFrame (.propose seq d) = (s.frameAbandoned (.propose seq d)).trackedLost := by
  have htracks : s.tracks ⟨s.ownId, seq⟩ = true := by simpa [tracks] using h
  simp only [abandonFrame, if_neg (show ¬3 ≤ s.bi.abandonCount + 1 by omega), htracks, doIf_true]
  rfl

theorem abandonFrame_confines (hn : 2 ≤ s.bi.abandonCount) :
    s.abandonFrame body = (s.frameAbandoned body).isolate .txConfined := by
  have hlimit : 3 ≤ s.bi.abandonCount + 1 := by omega
  cases body with
  | propose seq d =>
    simp only [abandonFrame, if_pos hlimit]
    rfl
  | beat | object | reply | query =>
    simp only [abandonFrame, decide_eq_true hlimit, doIf_true]
    rfl

@[simp] theorem frameDropped_kept (s : State) : s.frameDropped.sc = s.sc ∧ s.frameDropped.tb = s.tb
    ∧ s.frameDropped.rt = s.rt ∧ s.frameDropped.cq = s.cq ∧ s.frameDropped.pu = s.pu ∧ s.frameDropped.os = s.os
    ∧ s.frameDropped.fu.tripSet = s.fu.tripSet ∧ s.frameDropped.sp.record = s.sp.record
    ∧ s.frameDropped.sp.tickets = s.sp.tickets
    ∧ s.frameDropped.bi.attempt = none ∧ s.frameDropped.bi.abandonCount = s.bi.abandonCount + 1
    ∧ s.frameDropped.bi.clashWindow = s.bi.clashWindow ∧ s.frameDropped.bi.errorFlagLeft = s.bi.errorFlagLeft
    ∧ s.frameDropped.bi.queue = s.bi.queue.filter fun y => !y.inFlight := by
  simp [frameDropped]

@[simp] theorem frameAbandoned_kept (body : QueuedBody) (s : State) : (s.frameAbandoned body).sc = s.sc
    ∧ (s.frameAbandoned body).tb = s.tb ∧ (s.frameAbandoned body).rt = s.rt ∧ (s.frameAbandoned body).cq = s.cq
    ∧ (s.frameAbandoned body).pu = s.pu ∧ (s.frameAbandoned body).os = s.os
    ∧ (s.frameAbandoned body).fu.tripSet = s.fu.tripSet ∧ (s.frameAbandoned body).sp.record = s.sp.record
    ∧ (s.frameAbandoned body).bi.attempt = none ∧ (s.frameAbandoned body).bi.abandonCount = s.bi.abandonCount + 1
    ∧ (s.frameAbandoned body).bi.clashWindow = s.bi.clashWindow
    ∧ (s.frameAbandoned body).bi.errorFlagLeft = s.bi.errorFlagLeft
    ∧ (s.frameAbandoned body).bi.queue = s.bi.queue.filter fun y => !y.inFlight := by
  cases body <;> simp [frameAbandoned]

theorem sameShared_frameAbandoned (body : QueuedBody) (s : State) : (s.frameAbandoned body).SameShared s := by
  constructor <;> simp

theorem hasEvent_frameDropped (s : State) : s.frameDropped.hasEvent .txAbandoned = true := hasEvent_raise_same ..

theorem hasEvent_frameAbandoned (body : QueuedBody) (s : State) :
    (s.frameAbandoned body).hasEvent .txAbandoned = true := by
  cases body with
  | propose => exact (steady_reportTicket (Steady.rfl' (w := true))).hasEvent (hasEvent_frameDropped s)
  | beat | object | reply | query => exact hasEvent_frameDropped s

/-- The ticket of the abandoned proposal is ABANDONED (R61). -/
theorem ticket_frameAbandoned (hz : z ∈ s.sp.tickets) (hu : z.unfinished = true) (hk : z.kind.fits d = true)
    (hr : z.reserved = false) : z.abandonedNow ∈ (s.frameAbandoned (.propose z.number d)).sp.tickets
      ∧ (s.frameAbandoned (.propose z.number d)).hasEvent .ticket = true := by
  have hmem : z ∈ s.frameDropped.sp.tickets := by simpa using hz
  refine ⟨?_, hasEvent_reportTicket hmem hu hk hr rfl⟩
  have := mem_tickets_reportTicket (d := d) (Ticket.finish .abandoned) hmem hu hk hr
  simpa [Ticket.finish, Ticket.abandonedNow, hr, frameAbandoned] using this

/-- Every other ticket stays. -/
theorem mem_tickets_frameAbandoned (hz : z ∈ s.sp.tickets)
    (h : ∀ seq d, body = .propose seq d → z.number ≠ seq ∨ z.kind.fits d = false ∨ z.reserved = true) :
    z ∈ (s.frameAbandoned body).sp.tickets := by
  cases body with
  | propose seq d =>
    rw [frameAbandoned, reportTicket, (updateTickets_kept ..).2.2.2.2.2.2.2.2.2.2.2.2.2]
    refine List.mem_map.mpr ⟨z, by simpa using hz, if_neg ?_⟩
    obtain h | h | h := h seq d rfl <;> simp [h]
  | beat | object | reply | query => simpa [frameAbandoned] using hz

/-! ### A rejected attempt (R61, R62) -/

theorem rejectAttempt_below {a : Attempt} (ha : s.bi.attempt = some a) (hr : a.beatReplaced = false) (hx : s.inFlightFrame = some x)
    (hn : x.attempts < 3) : s.rejectAttempt = (s.landAttempt (x.attempts + 1)).actOnEnd x.body := by
  simp only [rejectAttempt, ha, hx, rejectQueued, hr]
  exact if_pos (show x.attempts + 1 < 4 by omega)

theorem rejectAttempt_at_limit {a : Attempt} (ha : s.bi.attempt = some a) (hr : a.beatReplaced = false)
    (hx : s.inFlightFrame = some x) (hn : x.attempts = 3) : s.rejectAttempt = s.abandonFrame x.body := by
  simp [rejectAttempt, ha, hx, rejectQueued, hr, hn]

theorem rejectAttempt_trip {a : Attempt} (ha : s.bi.attempt = some a) (h : ∀ y ∈ s.bi.queue, y.inFlight = false) :
    s.rejectAttempt = s.rejectTrip := by
  simp [rejectAttempt, ha, inFlightFrame_of_none h]

/-! ### Arbitration lost (R49) -/

theorem arbitrationLost_of_none (h : s.bi.attempt = none) : s.arbitrationLost = s := by
  simp [arbitrationLost, loseAttempt, h]

theorem arbitrationLost_queued {a : Attempt} (hs : s.sc.station ≠ .setup) (ha : s.bi.attempt = some a)
    (hx : s.inFlightFrame = some x) : s.arbitrationLost = (s.landAttempt x.attempts).actOnEnd x.body := by
  simp [arbitrationLost, loseAttempt, hs, ha, hx]

theorem arbitrationLost_trip {a : Attempt} (hs : s.sc.station ≠ .setup) (ha : s.bi.attempt = some a)
    (h : ∀ y ∈ s.bi.queue, y.inFlight = false) : s.arbitrationLost = s.landAttempt 0 := by
  simp [arbitrationLost, loseAttempt, hs, ha, inFlightFrame_of_none h]

end State

open State in
/-- Settles O36. -/
theorem arbitrationLost_spec : Obligations.ArbitrationLost := by
  unfold Obligations.ArbitrationLost
  refine ⟨fun a x s hs ha hx honly hnothing => ?_, fun s h => ?_, fun a s hs ha h => ?_,
    fun a x seq d s hs hp ht ha hx hb => ?_, fun a x seq d z s hm ha hx hb hz hu hn hk hr hw hp => ?_⟩
  · rw [exec_arbitrationLost, arbitrationLost_queued hs ha hx,
      actOnEnd_of_nothing (s := s.landAttempt x.attempts) hnothing, landAttempt, modBi, landed_queue ⟨hx, honly⟩]
  · rw [exec_arbitrationLost, arbitrationLost_of_none h]
  · rw [exec_arbitrationLost, arbitrationLost_trip hs ha h, landAttempt, modBi, landed_queue_of_none 0 h]
  · have heq := arbitrationLost_queued (by simp [hs]) ha hx
    rw [hb, actOnEnd_stopped (s := s.landAttempt x.attempts) hs hp ht] at heq
    refine ⟨_, (exec_arbitrationLost s).trans (congrArg _ heq), by simp, by simp, by simp, ?_,
      fun hg => outputsOff_enterDormant hg⟩
    constructor <;> simp
  · have heq := arbitrationLost_queued (station_ne_setup_of_canIsolate (canIsolate_of_member hm)) ha hx
    have hwaits : (s.landAttempt x.attempts).WithdrawWaits seq d z := ⟨hm, hz, hu, hn, hk, hr, hw, hp⟩
    rw [hb] at heq ⊢
    obtain ⟨hnone, hqueue, hticket, hevent, hshared, htb, hsc, hback⟩ := actOnEnd_of_withdrawWaits hwaits rfl rfl
    generalize (s.landAttempt x.attempts).actOnEnd (.propose seq d) = t at *
    exact ⟨t, (exec_arbitrationLost s).trans (congrArg _ heq), hnone, hqueue, hticket, hevent,
      ⟨hshared.1, hshared.2, hshared.3, hshared.4⟩, htb, hsc, hback⟩

end Sys2Proof.Machine
end

section
/-! The clashes, readback failures, format errors and discards that reject an attempt (R19, R43, R44, R50, R54, R61 to R63). -/

namespace Sys2Proof.Machine

variable {s t u v : State} {x : QueuedFrame} {body : QueuedBody} {seq : Byte} {d : ProposalContent} {z : Ticket} {a : Attempt}

namespace State

/-! ### What a return to MEMBER leaves in the Bus Interface -/

theorem shedTest_errorFlagLeft (s : State) : s.shedTest.bi.errorFlagLeft = s.bi.errorFlagLeft := by
  obtain ⟨q, seq, shed, readmit, h⟩ := shedTest_frame s
  rw [h]

theorem readmissionTest_errorFlagLeft (s : State) : s.readmissionTest.bi.errorFlagLeft = s.bi.errorFlagLeft := by
  obtain ⟨q, seq, shed, readmit, h⟩ := readmissionTest_frame s
  rw [h]

theorem memberTests_errorFlagLeft (s : State) : s.memberTests.bi.errorFlagLeft = s.bi.errorFlagLeft :=
  (readmissionTest_errorFlagLeft _).trans (shedTest_errorFlagLeft _)

/-- A member that moves within the group goes on with its error flag. -/
theorem moveTo_errorFlagLeft (hm : s.isMember = true) {new : StationState} (hn : new = .member ∨ new = .leaving) :
    (s.moveTo new).bi.errorFlagLeft = s.bi.errorFlagLeft := by
  obtain rfl | rfl := hn <;> simp [moveTo, hm, isMember, drivesMarks]

theorem proposeLeave_bi (hm : s.isMember = true) : s.proposeLeave.bi.errorFlagLeft = s.bi.errorFlagLeft
    ∧ (s.bi.attempt = none → s.proposeLeave.bi.attempt = none) := by
  obtain hq | hq := Nat.lt_or_ge s.bi.queue.length 6
  · have hmoved (u : State) (hu : u.isMember = true) (n : Byte) : (u.becomeLeaving n).bi.errorFlagLeft = u.bi.errorFlagLeft
        ∧ (u.bi.attempt = none → (u.becomeLeaving n).bi.attempt = none) :=
      ⟨moveTo_errorFlagLeft hu (.inr rfl), attempt_moveTo _⟩
    cases hr : s.reservedTicket with
    | none =>
      rw [proposeLeave_fresh hr hq]
      refine ⟨(hmoved _ ?_ _).1.trans (by simp), fun h => (hmoved _ ?_ _).2 (by simpa using h)⟩
      all_goals exact (isMember_congr (by simp)).trans hm
    | some r =>
      rw [proposeLeave_reserved hr hq]
      refine ⟨(hmoved _ ?_ _).1.trans (by simp), fun h => (hmoved _ ?_ _).2 (by simpa using h)⟩
      all_goals exact (isMember_congr (by simp)).trans hm
  · rw [proposeLeave_of_full hq]
    exact ⟨rfl, id⟩

theorem returnToMember_bi (hm : s.isMember = true) : s.returnToMember.bi.errorFlagLeft = s.bi.errorFlagLeft
    ∧ (s.bi.attempt = none → s.returnToMember.bi.attempt = none) := by
  have hleave (u : State) (hu : u.isMember = true) : u.leaveIfPending.bi.errorFlagLeft = u.bi.errorFlagLeft
      ∧ (u.bi.attempt = none → u.leaveIfPending.bi.attempt = none) := by
    obtain h | h := Bool.eq_false_or_eq_true (u.sc.station = .member && u.sc.leavePending)
    · rw [leaveIfPending, h]
      exact proposeLeave_bi hu
    · rw [leaveIfPending, h]
      exact ⟨rfl, id⟩
  obtain ⟨hflag, hnone⟩ := hleave (((s.moveTo .member).modRt fun rt => { rt with copySource := .own }).modSc fun sc =>
    { sc with tracked := none }) (by simp [isMember])
  constructor
  · simp only [returnToMember, becomeMember, settle_kept, memberTests_errorFlagLeft, hflag, modSc_bi, modRt_bi]
    exact moveTo_errorFlagLeft hm (.inl rfl)
  · intro h
    simpa [returnToMember, becomeMember] using hnone (by simpa using attempt_moveTo _ h)

/-! ### An attempt that ends, whatever waited for it -/

/-- Where the station stays in the group it goes on with its error flag, and no attempt is in flight. -/
structure Landed (s t : State) : Prop where
  attempt : t.bi.attempt = none
  flag : s.isMember = true → t.isMember = true → t.bi.errorFlagLeft = s.bi.errorFlagLeft

theorem landed_returnToMember (hm : s.isMember = true) (ha : s.bi.attempt = none) : s.Landed s.returnToMember :=
  ⟨(returnToMember_bi hm).2 ha, fun _ _ => (returnToMember_bi hm).1⟩

theorem isMember_of_leaving (h : s.sc.station = .leaving) : s.isMember = true := by simp [isMember, h]

theorem landed_enterDormant (s : State) : s.Landed s.enterDormant :=
  ⟨by simp, fun _ h => absurd h (by simp [isMember])⟩

theorem actOnEnd_propose_cases (seq : Byte) (d : ProposalContent) (s : State) :
    s.actOnEnd (.propose seq d) = s.enterDormant
      ∨ s.actOnEnd (.propose seq d) = (s.endWithdrawn seq d).doIf (s.sc.station = .leaving && s.tracks ⟨s.ownId, seq⟩)
          returnToMember
      ∨ s.actOnEnd (.propose seq d) = s := by
  simp only [actOnEnd]
  split
  next => exact .inl rfl
  next =>
    split
    next => exact .inr (.inl rfl)
    next => exact .inr (.inr rfl)

theorem landed_endWithdrawn (seq : Byte) (d : ProposalContent) (ha : s.bi.attempt = none) :
    s.Landed (s.endWithdrawn seq d) :=
  ⟨by simpa [endWithdrawn] using attempt_dropBodies ha, fun _ _ => by simp⟩

theorem Landed.trans (h : s.Landed u) (hu : u.isMember = s.isMember) (k : u.Landed t) : s.Landed t :=
  ⟨k.attempt, fun hm ht => (k.flag (hu.trans hm) ht).trans (h.flag hm (hu.trans hm))⟩

theorem landed_actOnEnd (ha : s.bi.attempt = none) : s.Landed (s.actOnEnd body) := by
  cases body with
  | propose seq d =>
    have hwithdrawn := landed_endWithdrawn seq d ha
    have hsame : (s.endWithdrawn seq d).isMember = s.isMember := isMember_congr (by simp)
    obtain h | h | h := actOnEnd_propose_cases seq d s
    · rw [h]
      exact landed_enterDormant s
    · rw [h]
      generalize s.endWithdrawn seq d = u at hwithdrawn hsame
      cases hl : (s.sc.station = .leaving && s.tracks ⟨s.ownId, seq⟩) with
      | false =>
        rw [doIf_false]
        exact hwithdrawn
      | true =>
        have hm : s.isMember = true := isMember_of_leaving (of_decide_eq_true (Bool.and_eq_true_iff.mp hl).1)
        rw [doIf_true]
        exact hwithdrawn.trans hsame (landed_returnToMember (hsame.trans hm) hwithdrawn.attempt)
    · rw [h]
      exact ⟨ha, fun _ _ => rfl⟩
  | beat | object | reply | query => exact ⟨ha, fun _ _ => rfl⟩

theorem landed_trackedLost (ha : s.bi.attempt = none) : s.Landed s.trackedLost := by
  unfold trackedLost
  split
  next h => exact ⟨attempt_joinFailed ha, fun hm => absurd hm (by simp [isMember, h])⟩
  next h => exact landed_returnToMember (isMember_of_leaving h) ha
  next => exact ⟨ha, fun _ _ => rfl⟩

theorem landed_isolate (r : Reason) (ha : s.bi.attempt = none) : s.Landed (s.isolate r) := by
  cases h : s.canIsolate with
  | false =>
    rw [isolate_of_cannot r h]
    exact ⟨ha, fun _ _ => rfl⟩
  | true =>
    rw [isolate_of_canIsolate r h]
    exact ⟨by simp, fun _ hm => absurd hm (by simp [isMember])⟩

theorem landed_abandonFrame (body : QueuedBody) (s : State) : s.Landed (s.abandonFrame body) := by
  have hkept : s.Landed (s.frameAbandoned body) := ⟨by simp, fun _ _ => by simp⟩
  have hsame : (s.frameAbandoned body).isMember = s.isMember := isMember_congr (by simp)
  obtain hn | hn := Nat.lt_or_ge s.bi.abandonCount 2
  · by_cases h : s.Untracked body
    · rw [abandonFrame_of_untracked hn h]
      exact hkept
    · simp only [Untracked, not_forall, ne_eq, not_not] at h
      obtain ⟨seq, d, rfl, ht⟩ := h
      rw [abandonFrame_of_tracked hn ht]
      exact hkept.trans hsame (landed_trackedLost hkept.attempt)
  · rw [abandonFrame_confines hn]
    exact hkept.trans hsame (landed_isolate _ hkept.attempt)

theorem landed_rejectQueued (x : QueuedFrame) (replaced : Bool) (s : State) : s.Landed (s.rejectQueued x replaced) := by
  simp only [rejectQueued]
  generalize (if replaced = true then 0 else x.attempts + 1) = n
  split
  next =>
    have hland : s.Landed (s.landAttempt n) := ⟨rfl, fun _ _ => rfl⟩
    exact hland.trans rfl (landed_actOnEnd hland.attempt)
  next => exact landed_abandonFrame x.body s

theorem landed_rejectAttempt (s : State) : s.Landed s.rejectAttempt := by
  unfold rejectAttempt
  split
  next h => exact ⟨h, fun _ _ => rfl⟩
  next =>
    split
    next => exact landed_rejectQueued ..
    next => exact ⟨rfl, fun _ _ => rfl⟩

/-! ### The four ways an attempt is rejected -/

/-- What precedes the rejection: the clash window, the error flag, the reject count and the event. -/
def failing (window : Option Nat) (flag count : Nat) (events : BitVec 17) (s : State) : State :=
  { s with
    bi := { s.bi with clashWindow := window, errorFlagLeft := flag, rejectCount := count }
    sp := { s.sp with events := events } }

/-- The receive context changes. -/
def withRx (rx : Option RxContext) (s : State) : State := s.modBi fun bi => { bi with rx := rx }

@[simp] theorem withRx_kept (rx : Option RxContext) (s : State) : (s.withRx rx).sc = s.sc ∧ (s.withRx rx).tb = s.tb
    ∧ (s.withRx rx).rt = s.rt ∧ (s.withRx rx).cq = s.cq ∧ (s.withRx rx).pu = s.pu ∧ (s.withRx rx).os = s.os
    ∧ (s.withRx rx).fu = s.fu ∧ (s.withRx rx).sp = s.sp ∧ (s.withRx rx).bi = { s.bi with rx := rx } :=
  ⟨rfl, rfl, rfl, rfl, rfl, rfl, rfl, rfl, rfl⟩

/-- A command by which an attempt fails and its frame stays this station's, with the event it raises (R43, R44, R50, R54). -/
def FailedBy (c : Instr) (ev : Option Event) (s : State) : Prop :=
  (c = .bodyClash ∧ ev = some .bodyClash ∧ s.bi.clashWindow = none) ∨ (c = .driveReadbackFail ∧ ev = some .line)
    ∨ (c = .formatError ∧ ev = none ∧ s.followsFrames = true)
    ∨ ((∃ reached mismatch, c = .frameDiscarded reached mismatch) ∧ ev = none ∧ s.followsFrames = true
        ∧ s.bi.rejectCount < 7)

/-- What a failing command does before and after the rejection of the attempt. -/
structure Fails (c : Instr) (ev : Option Event) (s u t : State) (rx : Option RxContext) : Prop where
  step : exec c s = .next t
  after : t = u.rejectAttempt.withRx rx
  event : ∀ e, ev = some e → u.hasEvent e = true
  still : ev = none → u.sp = s.sp
  window : u.bi.clashWindow = if c = .bodyClash then some 0 else s.bi.clashWindow
  flag : c = .formatError → s.isMember = true → u.bi.errorFlagLeft = 3 * s.bitTime / 2
  ended : c = .formatError → t.isMember = true → rx = none
  discarded : (∃ reached mismatch, c = .frameDiscarded reached mismatch) → rx = none

theorem fails_bodyClash (hs : s.sc.station ≠ .setup) (ha : s.bi.attempt = some a) (hw : s.bi.clashWindow = none) :
    ∃ window flag count events t rx,
      Fails .bodyClash (some .bodyClash) s (s.failing window flag count events) t rx := by
  have heq : s.bodyClash = (s.failing (some 0) s.bi.errorFlagLeft s.bi.rejectCount
      (s.raise .bodyClash).sp.events).rejectAttempt := by
    simp only [bodyClash, decide_eq_false hs, ha, hw]
    rfl
  refine ⟨_, _, _, _, _, _, exec_bodyClash s, heq, ?_, by simp, rfl, by simp, by simp, by simp⟩
  rintro e ⟨⟩
  exact hasEvent_raise_same .bodyClash s

theorem fails_driveReadbackFail (hs : s.sc.station ≠ .setup) (ha : s.bi.attempt = some a) :
    ∃ window flag count events t rx,
      Fails .driveReadbackFail (some .line) s (s.failing window flag count events) t rx := by
  have heq : s.driveReadbackFail = (s.failing s.bi.clashWindow s.bi.errorFlagLeft s.bi.rejectCount
      (s.raise .line).sp.events).rejectAttempt := by
    simp only [driveReadbackFail, decide_eq_false hs, ha]
    rfl
  refine ⟨_, _, _, _, _, _, exec_driveReadbackFail s, heq, ?_, by simp, rfl, by simp, by simp, by simp⟩
  rintro e ⟨⟩
  exact hasEvent_raise_same .line s

theorem stopFollowing_eq (s : State) : s.stopFollowing
    = s.withRx (if s.isFollower then s.bi.rx.map fun rx => { rx with lost := true } else none) := rfl

theorem fails_formatError (hf : s.followsFrames = true) :
    ∃ window flag count events t rx, Fails .formatError none s (s.failing window flag count events) t rx := by
  have heq : s.formatError = (s.failing s.bi.clashWindow (if s.isMember then 3 * s.bitTime / 2 else s.bi.errorFlagLeft)
      s.bi.rejectCount s.sp.events).rejectAttempt.stopFollowing := by
    cases hm : s.isMember <;> simp [formatError, hf, hm, failing, modBi]
  refine ⟨_, _, _, _, _, _, exec_formatError s, heq.trans (stopFollowing_eq _), by simp, fun _ => rfl, rfl,
    fun _ hm => by simp [failing, hm], fun _ hm => ?_, by simp⟩
  rw [heq] at hm
  exact if_neg (by simp [not_follower_of_member (show State.isMember (State.rejectAttempt _) = true from hm)])

theorem fails_frameDiscarded (reached mismatch : Bool) (hf : s.followsFrames = true) (hc : s.bi.rejectCount < 7) :
    ∃ window flag count events t rx,
      Fails (.frameDiscarded reached mismatch) none s (s.failing window flag count events) t rx := by
  have hcount (votes : Bool) : ∃ count, s.doIf (votes && s.isMember) countReject
      = s.failing s.bi.clashWindow s.bi.errorFlagLeft count s.sp.events := by
    cases votes && s.isMember
    · exact ⟨s.bi.rejectCount, rfl⟩
    · exact ⟨s.bi.rejectCount + 1, by rw [doIf_true, countReject_below hc]; rfl⟩
  obtain ⟨count, hcount⟩ := hcount (reached && (mismatch || s.slotInGuard) && !s.voteCounted)
  have heq : s.frameDiscarded reached mismatch
      = (s.failing s.bi.clashWindow s.bi.errorFlagLeft count s.sp.events).rejectAttempt.withRx none := by
    rw [frameDiscarded, discardFrame, hf, hcount]
    rfl
  exact ⟨_, _, _, _, _, _, exec_frameDiscarded _ _ s, heq, by simp, fun _ => rfl, rfl, by simp, by simp, fun _ => rfl⟩

theorem failed_exists {c : Instr} {ev : Option Event} (h : FailedBy c ev s) (hs : s.sc.station ≠ .setup)
    (ha : s.bi.attempt = some a) :
    ∃ window flag count events t rx, Fails c ev s (s.failing window flag count events) t rx := by
  obtain ⟨rfl, rfl, hw⟩ | ⟨rfl, rfl⟩ | ⟨rfl, rfl, hf⟩ | ⟨⟨reached, mismatch, rfl⟩, rfl, hf, hc⟩ := h
  · exact fails_bodyClash hs ha hw
  · exact fails_driveReadbackFail hs ha
  · exact fails_formatError hf
  · exact fails_frameDiscarded reached mismatch hf hc

end State
end Sys2Proof.Machine
end

section
/-! The outcomes of a failed attempt: queued again, withdrawn, abandoned, confined or halted (R8, R11, R13, R19, R50, R61 to
R63, R179). -/

namespace Sys2Proof.Machine

variable {s t u v : State} {x : QueuedFrame} {body : QueuedBody} {seq : Byte} {d : ProposalContent} {z : Ticket} {a : Attempt}

namespace State

/-! ### The attempt limit reached -/

/-- TX_ABANDONED at the limit, whatever follows (R61). -/
theorem hasEvent_abandonFrame (body : QueuedBody) (s : State) : (s.abandonFrame body).hasEvent .txAbandoned = true := by
  have h := hasEvent_frameAbandoned body s
  obtain hn | hn := Nat.lt_or_ge s.bi.abandonCount 2
  · by_cases hu : s.Untracked body
    · rwa [abandonFrame_of_untracked hn hu]
    · simp only [Untracked, not_forall, ne_eq, not_not] at hu
      obtain ⟨seq, d, rfl, ht⟩ := hu
      rw [abandonFrame_of_tracked hn ht]
      exact (steady_trackedLost (Steady.rfl' (w := true))).hasEvent h
  · rw [abandonFrame_confines hn]
    exact (steady_isolate (Steady.rfl' (w := true))).hasEvent h

theorem mem_tickets_enterIsolated (r : Reason) (hz : z ∈ s.sp.tickets) (hu : z.unfinished = false) :
    z ∈ (s.enterIsolated r).sp.tickets := by
  rw [show (s.enterIsolated r).sp.tickets = s.ticketsVoided .isolated by simp]
  exact List.mem_map.mpr ⟨z, hz, by simp [hu]⟩

/-- The ticket of the abandoned proposal is ABANDONED, whatever follows (R61, R180). -/
theorem ticket_abandonFrame (hz : z ∈ s.sp.tickets) (hu : z.unfinished = true) (hk : z.kind.fits d = true)
    (hr : z.reserved = false) (hp : s.sc.station = .leaving → s.sc.leavePending = false) :
    z.abandonedNow ∈ (s.abandonFrame (.propose z.number d)).sp.tickets
      ∧ (s.abandonFrame (.propose z.number d)).hasEvent .ticket = true := by
  obtain ⟨hmem, hevent⟩ := ticket_frameAbandoned hz hu hk hr
  have hp : (s.frameAbandoned (.propose z.number d)).sc.station = .leaving →
      (s.frameAbandoned (.propose z.number d)).sc.leavePending = false := by simpa using hp
  obtain hn | hn := Nat.lt_or_ge s.bi.abandonCount 2
  · by_cases ht : s.Untracked (.propose z.number d)
    · rw [abandonFrame_of_untracked hn ht]
      exact ⟨hmem, hevent⟩
    · simp only [Untracked, not_forall, ne_eq, not_not] at ht
      obtain ⟨_, _, ⟨⟩, ht⟩ := ht
      rw [abandonFrame_of_tracked hn ht]
      exact ⟨mem_tickets_trackedLost hp hmem rfl, (steady_trackedLost (Steady.rfl' (w := true))).hasEvent hevent⟩
  · rw [abandonFrame_confines hn]
    refine ⟨?_, (steady_isolate (Steady.rfl' (w := true))).hasEvent hevent⟩
    generalize s.frameAbandoned (.propose z.number d) = u at hmem
    cases hc : u.canIsolate with
    | false => rwa [isolate_of_cannot _ hc]
    | true =>
      rw [isolate_of_canIsolate _ hc]
      exact mem_tickets_enterIsolated _ hmem rfl

/-- A joiner whose ADMIT is abandoned: LISTEN with its copy (R8). -/
theorem abandonFrame_listens (hn : s.bi.abandonCount < 2) (ht : s.sc.tracked = some ⟨s.ownId, seq⟩)
    (hs : s.sc.station = .joining) (hp : s.sc.leavePending = false) :
    s.abandonFrame (.propose seq d) = (s.frameAbandoned (.propose seq d)).listenWithCopy := by
  rw [abandonFrame_of_tracked hn ht, trackedLost_joining (by simpa using hs), joinFailed_listens (by simpa using hp)]

/-- A joiner whose ADMIT is abandoned after a STOP: DORMANT (R8, R11). -/
theorem abandonFrame_leaves (hn : s.bi.abandonCount < 2) (ht : s.sc.tracked = some ⟨s.ownId, seq⟩)
    (hs : s.sc.station = .joining) (hp : s.sc.leavePending = true) :
    s.abandonFrame (.propose seq d) = (s.frameAbandoned (.propose seq d)).enterDormant := by
  rw [abandonFrame_of_tracked hn ht, trackedLost_joining (by simpa using hs), joinFailed_leaves (by simpa using hp)]

/-- A station whose REMOVE(LEFT) is abandoned: MEMBER again (R13). -/
theorem abandonFrame_returns (hn : s.bi.abandonCount < 2) (ht : s.sc.tracked = some ⟨s.ownId, seq⟩)
    (hs : s.sc.station = .leaving) :
    s.abandonFrame (.propose seq d) = (s.frameAbandoned (.propose seq d)).returnToMember := by
  rw [abandonFrame_of_tracked hn ht, trackedLost_leaving (by simpa using hs)]

theorem abandonFrame_isolates (hn : 2 ≤ s.bi.abandonCount) (hc : s.canIsolate = true) :
    s.abandonFrame body = (s.frameAbandoned body).enterIsolated .txConfined := by
  rw [abandonFrame_confines hn, isolate_of_canIsolate _ ((canIsolate_congr (by simp)).trans hc)]

theorem returnToMember_abandonCount (h : s.sc.leavePending = false) :
    s.returnToMember.bi.abandonCount = s.bi.abandonCount := by
  simp [returnToMember, becomeMember_of_not_pending h]

theorem sameShared_returnToMember (h : s.sc.leavePending = false) : s.returnToMember.SameShared s := by
  obtain ⟨-, -, hentries, hqueue, hduty, htrips, -, -⟩ := returnToMember_kept h
  exact ⟨hentries.symm, hqueue.symm, hduty.symm, htrips.symm⟩

theorem returnToMember_sc (h : s.sc.leavePending = false) :
    s.returnToMember.sc = { s.sc with station := .member, withdrawOwed := false, tracked := none } :=
  (returnToMember_kept h).1

/-! ### HALTED (R19) -/

/-- What the entry to HALTED forgets before the time base runs free. -/
def haltedForgotten (r : Reason) (s : State) : State :=
  ((((s.moveTo .halted).clearBus.modRt fun rt =>
      { rt with armed := false, expectedKey := none, countdown := 0, pendingReplies := 0 }).modCq fun cq =>
      { cq with pendingObjections := [], frozenRef := some s.tb.en }).modSc fun sc =>
      { sc with reason := r, leavePending := false, tracked := none }).clearBlanking

theorem enterHalted_eq (r : Reason) (s : State) : s.enterHalted r = (s.haltedForgotten r).freeTimeBase.settle := rfl

@[simp] theorem haltedForgotten_kept (r : Reason) (s : State) : (s.haltedForgotten r).sc = { s.sc with
      station := .halted, withdrawOwed := false, reason := r, leavePending := false, tracked := none }
    ∧ (s.haltedForgotten r).rt.entries = s.rt.entries ∧ (s.haltedForgotten r).cq.entries = s.cq.entries
    ∧ (s.haltedForgotten r).cq.duty = s.cq.duty ∧ (s.haltedForgotten r).fu.tripSet = s.fu.tripSet
    ∧ (s.haltedForgotten r).fu.lastTrip = s.fu.lastTrip ∧ (s.haltedForgotten r).bi.queue = [] ∧ (s.haltedForgotten r).bi.tripSlot = none
    ∧ (s.haltedForgotten r).bi.attempt = none := by
  simp [haltedForgotten]

@[simp] theorem enterHalted_kept (r : Reason) (s : State) : (s.enterHalted r).sc = { s.sc with
      station := .halted, withdrawOwed := false, reason := r, leavePending := false, tracked := none }
    ∧ (s.enterHalted r).rt.entries = s.rt.entries ∧ (s.enterHalted r).cq.entries = s.cq.entries
    ∧ (s.enterHalted r).cq.duty = s.cq.duty ∧ (s.enterHalted r).fu.tripSet = s.fu.tripSet
    ∧ (s.enterHalted r).fu.lastTrip = s.fu.lastTrip ∧ (s.enterHalted r).bi.queue = [] ∧ (s.enterHalted r).bi.tripSlot = none ∧ (s.enterHalted r).bi.attempt = none := by
  obtain ⟨-, -, hbi, hfu⟩ := freeTimeBase_of_empty (s := s.haltedForgotten r) (by simp)
  simp [enterHalted_eq, hbi, hfu]

theorem sameShared_enterHalted (r : Reason) (s : State) : (s.enterHalted r).SameShared s := by
  constructor <;> simp

theorem outputsOff_enterHalted (r : Reason) (hg : s.os.GatesOk) : (s.enterHalted r).OutputsOff :=
  outputsOff_of_settled (settle_settled _) (by simp [isMember]) ((steady_enterHalted (w := true) .rfl').gates hg)

theorem hasEvent_enterHalted (r : Reason) (s : State) : (s.enterHalted r).hasEvent .state = true := by
  have hsteady : Steady true (s.moveTo .halted) (s.enterHalted r) :=
    steady_settle (steady_freeTimeBase (steady_clearBlanking (steady_modSc (steady_modCq (steady_modRt
      (steady_clearBus .rfl') id) id) id)))
  exact hsteady.hasEvent (hasEvent_moveTo _ s)

theorem bodyClash_second {n : Nat} (hs : s.sc.station ≠ .setup) (ha : s.bi.attempt = some a)
    (hw : s.bi.clashWindow = some n) : s.bodyClash = (s.raise .bodyClash).enterHalted .idConflict := by
  simp only [bodyClash, decide_eq_false hs, ha, raise, modSp, hw]
  rfl

/-! ### The clash window (R50) -/

theorem advanceClashWindow_closed (h : s.bi.clashWindow = none) : s.advanceClashWindow = s := by
  have hbi : ({ s.bi with clashWindow := none } : BusInterface) = s.bi := by rw [← h]
  simp only [advanceClashWindow, modBi, h, Option.bind_none]
  rw [hbi]

theorem advanceClashWindow_open {n : Nat} (h : s.bi.clashWindow = some n) : s.advanceClashWindow
    = { s with bi := { s.bi with clashWindow := if n < 16 then some (n + 1) else none } } := by
  simp only [advanceClashWindow, modBi, h, Option.bind_some]

/-! ### The four commands together -/

section
variable {c : Instr} {ev : Option Event} {window : Option Nat} {flag count : Nat} {events : BitVec 17}
  {rx : Option RxContext}

theorem Fails.hasEvent {e : Event} (h : Fails c ev s u t rx) (he : u.rejectAttempt.hasEvent e = true) :
    t.hasEvent e = true := by rw [h.after]; exact he

theorem Fails.raised {e : Event} (h : Fails c ev s u t rx) (he : ev = some e) : t.hasEvent e = true :=
  h.hasEvent ((steady_rejectAttempt (Steady.rfl' (w := true))).hasEvent (h.event e he))

theorem Fails.attempt (h : Fails c ev s u t rx) : t.bi.attempt = none := by
  rw [h.after]
  exact (landed_rejectAttempt u).attempt

theorem Fails.rx_eq (h : Fails c ev s u t rx) : t.bi.rx = rx := by rw [h.after]; rfl

theorem Fails.errorFlag (h : Fails c ev s u t rx) (hc : c = .formatError) (hu : u.isMember = s.isMember)
    (hm : s.isMember = true) (ht : t.isMember = true) : t.bi.errorFlagLeft = 3 * s.bitTime / 2 := by
  have htu : u.rejectAttempt.isMember = true := by
    have := h.after ▸ ht
    exact this
  rw [← h.flag hc hm, h.after]
  exact (landed_rejectAttempt u).flag (hu.trans hm) htu

end

/-! ### What a failed attempt comes to, by its count and by what waited -/

section
variable {c : Instr} {ev : Option Event} {window : Option Nat} {flag count : Nat} {events : BitVec 17}
  {rx : Option RxContext}

theorem sameShared_failedFrame (body : QueuedBody) (s : State) :
    ((s.failing window flag count events).frameAbandoned body).SameShared s := by
  constructor <;> simp [failing]

theorem frameAbandoned_abandonCount (body : QueuedBody) (s : State) :
    (s.frameAbandoned body).bi.abandonCount = s.bi.abandonCount + 1 := by simp

/-- Below the limit the frame is queued again (R61). -/
theorem Fails.lands (h : Fails c ev s (s.failing window flag count events) t rx) (ha : s.bi.attempt = some a)
    (hr : a.beatReplaced = false) (hx : s.inFlightFrame = some x) (hn : x.attempts < 3) (hw : s.NothingWaits x.body) :
    t.bi.queue = s.bi.queue.map
        (fun y => if y.inFlight then { y with attempts := x.attempts + 1, inFlight := false } else y)
      ∧ t.bi.abandonCount = s.bi.abandonCount
      ∧ t.bi.clashWindow = (if c = .bodyClash then some 0 else s.bi.clashWindow)
      ∧ t.sc = s.sc ∧ t.SameShared s ∧ t.tb = s.tb ∧ t.os = s.os := by
  have heq := h.after
  rw [rejectAttempt_below (s := s.failing window flag count events) ha hr hx hn, 
    actOnEnd_of_nothing (s := (s.failing window flag count events).landAttempt _) hw] at heq
  subst heq
  exact ⟨rfl, rfl, h.window, rfl, ⟨rfl, rfl, rfl, rfl⟩, rfl, rfl⟩

/-- Below the limit, after a STOP taken in flight (R11). -/
theorem Fails.stops (h : Fails c ev s (s.failing window flag count events) t rx) (ha : s.bi.attempt = some a)
    (hr : a.beatReplaced = false) (hx : s.inFlightFrame = some x) (hn : x.attempts < 3) (hb : x.body = .propose seq d)
    (hs : s.sc.station = .joining) (ht : s.sc.tracked = some ⟨s.ownId, seq⟩) (hp : s.sc.leavePending = true) :
    t.sc.station = .dormant ∧ t.bi.queue = [] ∧ t.SameShared s := by
  have heq := h.after
  rw [rejectAttempt_below (s := s.failing window flag count events) ha hr hx hn, hb,
    actOnEnd_stopped (s := (s.failing window flag count events).landAttempt _) hs hp ht] at heq
  subst heq
  refine ⟨by simp, by simp, ?_⟩
  constructor <;> simp [failing]

/-- Below the limit, after a WITHDRAW taken in flight (R13, R179). -/
theorem Fails.withdraws (h : Fails c ev s (s.failing window flag count events) t rx) (ha : s.bi.attempt = some a)
    (hr : a.beatReplaced = false) (hx : s.inFlightFrame = some x) (hn : x.attempts < 3) (hb : x.body = .propose seq d)
    (hw : s.WithdrawWaits seq d z) :
    z.abandonedNow ∈ t.sp.tickets ∧ (∀ y ∈ t.bi.queue, y.body ≠ x.body) ∧ t.hasEvent .ticket = true ∧ t.SameShared s
      ∧ (s.sc.station = .leaving → s.sc.tracked = some ⟨s.ownId, seq⟩ → t.sc.station = .member) := by
  have heq := h.after
  have hwaits : ((s.failing window flag count events).landAttempt (x.attempts + 1)).WithdrawWaits seq d z :=
    ⟨hw.member, hw.mem, hw.unfinished, hw.number, hw.fits, hw.reserved, hw.request, hw.pending⟩
  obtain ⟨-, hqueue, hticket, hevent, hshared, -, -, hback⟩ := actOnEnd_of_withdrawWaits hwaits rfl rfl
  rw [rejectAttempt_below (s := s.failing window flag count events) ha hr hx hn, hb] at heq
  rw [hb]
  generalize ((s.failing window flag count events).landAttempt (x.attempts + 1)).actOnEnd (.propose seq d) = v at *
  subst heq
  exact ⟨hticket, hqueue, hevent, ⟨hshared.1, hshared.2, hshared.3, hshared.4⟩, fun hl ht => (hback hl ht).1⟩

theorem Fails.abandons (h : Fails c ev s (s.failing window flag count events) t rx) (ha : s.bi.attempt = some a)
    (hr : a.beatReplaced = false) (hx : s.inFlightFrame = some x) (hn : x.attempts = 3) :
    t = ((s.failing window flag count events).abandonFrame x.body).withRx rx := by
  rw [h.after, rejectAttempt_at_limit (s := s.failing window flag count events) ha hr hx hn]

/-- At the limit the frame's ticket is ABANDONED, whatever follows (R61). -/
theorem Fails.reports (h : t = ((s.failing window flag count events).abandonFrame (.propose z.number d)).withRx rx)
    (hz : z ∈ s.sp.tickets) (hu : z.unfinished = true) (hk : z.kind.fits d = true) (hr : z.reserved = false)
    (hp : s.sc.station = .leaving → s.sc.leavePending = false) :
    z.abandonedNow ∈ t.sp.tickets ∧ t.hasEvent .ticket = true := by
  subst h
  exact ticket_abandonFrame (s := s.failing window flag count events) hz hu hk hr hp

/-- At the limit, where no tracked proposal is lost (R61, R63). -/
theorem Fails.drops (h : t = ((s.failing window flag count events).abandonFrame body).withRx rx)
    (hn : s.bi.abandonCount < 2) (ht : s.Untracked body) :
    t.bi.queue = s.bi.queue.filter (fun y => !y.inFlight) ∧ t.bi.abandonCount = s.bi.abandonCount + 1
      ∧ t.sc = s.sc ∧ t.SameShared s ∧ t.tb = s.tb ∧ t.os = s.os := by
  rw [abandonFrame_of_untracked (s := s.failing window flag count events) hn ht] at h
  subst h
  refine ⟨by simp [failing], by simp [failing], by simp [failing], ?_, by simp [failing], by simp [failing]⟩
  constructor <;> simp [failing]

/-- At the limit, a joiner that does not leave (R8). -/
theorem Fails.listens (h : t = ((s.failing window flag count events).abandonFrame (.propose seq d)).withRx rx)
    (hn : s.bi.abandonCount < 2) (ht : s.sc.tracked = some ⟨s.ownId, seq⟩) (hs : s.sc.station = .joining)
    (hp : s.sc.leavePending = false) : t.sc.station = .listen ∧ t.sc.joinHoldoff = s.listenEpochs
      ∧ t.sc.standing = s.sc.standing ∧ t.sc.tracked = none ∧ t.rt.copySource = s.rt.copySource ∧ t.SameShared s
      ∧ t.bi.queue = s.bi.queue.filter (fun y => !y.inFlight) ∧ t.bi.abandonCount = s.bi.abandonCount + 1 := by
  rw [abandonFrame_listens (s := s.failing window flag count events) hn ht hs hp] at h
  have hshared := (sameShared_failedFrame (window := window) (flag := flag) (count := count) (events := events) _ s).trans'
    (sameShared_listenWithCopy ((s.failing window flag count events).frameAbandoned (.propose seq d)))
  have hkept := frameAbandoned_kept (.propose seq d) (s.failing window flag count events)
  generalize (s.failing window flag count events).frameAbandoned (.propose seq d) = v at h hkept hshared
  obtain ⟨hsc, -, hrt, -, -, -, -, hrecord, -, hcount, -, -, hqueue⟩ := hkept
  obtain ⟨hlq, hlc, hls⟩ := listenWithCopy_bi v
  have hlsc := listenWithCopy_sc v
  have hepochs : v.listenEpochs = s.listenEpochs := by simp only [listenEpochs, hrecord]; rfl
  generalize v.listenWithCopy = w at h hlq hlc hls hlsc hshared
  subst h
  simp only [withRx_kept, hlsc, hlq, hlc, hls, hsc, hrt, hqueue, hcount, hepochs]
  exact ⟨trivial, trivial, rfl, trivial, rfl, ⟨hshared.1, hshared.2, hshared.3, hshared.4⟩, rfl, rfl⟩

/-- At the limit, a joiner that leaves (R8, R11). -/
theorem Fails.leaves (h : t = ((s.failing window flag count events).abandonFrame (.propose seq d)).withRx rx)
    (hn : s.bi.abandonCount < 2) (ht : s.sc.tracked = some ⟨s.ownId, seq⟩) (hs : s.sc.station = .joining)
    (hp : s.sc.leavePending = true) : t.sc.station = .dormant ∧ t.bi.queue = [] ∧ t.SameShared s := by
  rw [abandonFrame_leaves (s := s.failing window flag count events) hn ht hs hp] at h
  subst h
  refine ⟨by simp, by simp, ?_⟩
  constructor <;> simp [failing]

/-- At the limit, a station LEAVING by the frame (R13). -/
theorem Fails.returns (h : t = ((s.failing window flag count events).abandonFrame (.propose seq d)).withRx rx)
    (hn : s.bi.abandonCount < 2) (ht : s.sc.tracked = some ⟨s.ownId, seq⟩) (hs : s.sc.station = .leaving)
    (hp : s.sc.leavePending = false) : t.sc.station = .member ∧ t.sc.tracked = none
      ∧ t.bi.abandonCount = s.bi.abandonCount + 1 ∧ t.SameShared s ∧ t.hasEvent .state = true := by
  rw [abandonFrame_returns (s := s.failing window flag count events) hn ht hs] at h
  have hshared := sameShared_failedFrame (window := window) (flag := flag) (count := count) (events := events)
    (.propose seq d) s
  have hkept := frameAbandoned_kept (.propose seq d) (s.failing window flag count events)
  generalize (s.failing window flag count events).frameAbandoned (.propose seq d) = v at h hkept hshared
  obtain ⟨hvsc, -, -, -, -, -, -, -, -, hvcount, -, -, -⟩ := hkept
  have hpending : v.sc.leavePending = false := by rw [hvsc]; exact hp
  have hsc := returnToMember_sc hpending
  have hshared' := hshared.trans' (sameShared_returnToMember hpending)
  have hcount := returnToMember_abandonCount hpending
  have hstate := hasEvent_state_returnToMember hpending
  generalize v.returnToMember = w at h hsc hshared' hcount hstate
  subst h
  refine ⟨by simp [hsc], by simp [hsc], ?_, ⟨hshared'.1, hshared'.2, hshared'.3, hshared'.4⟩, hstate⟩
  simp only [withRx_kept, hcount, hvcount]
  rfl

/-- The third abandonment in a row confines the station (R63). -/
theorem Fails.confines (h : t = ((s.failing window flag count events).abandonFrame body).withRx rx)
    (hn : s.bi.abandonCount = 2) (hc : s.canIsolate = true) :
    t.sc.station = .isolated ∧ t.sc.reason = .txConfined ∧ t.NoCopy ∧ (s.os.GatesOk → t.OutputsOff)
      ∧ ∀ z ∈ s.sp.tickets, z.unfinished = true →
          (∀ seq d, body = .propose seq d → z.number ≠ seq ∨ z.kind.fits d = false ∨ z.reserved = true) →
          { z with state := .voided .isolated, withdrawRequest := false, withdrawQueued := false, reserved := false }
            ∈ t.sp.tickets := by
  rw [abandonFrame_isolates (s := s.failing window flag count events) (Nat.le_of_eq hn.symm) hc] at h
  have hcopy := noCopy_enterIsolated .txConfined ((s.failing window flag count events).frameAbandoned body)
  have hoff (hg : s.os.GatesOk) : (((s.failing window flag count events).frameAbandoned body).enterIsolated
      .txConfined).OutputsOff := outputsOff_enterIsolated _ (by simpa [failing] using hg)
  have hsc := (enterIsolated_kept .txConfined ((s.failing window flag count events).frameAbandoned body)).1
  have htickets : (((s.failing window flag count events).frameAbandoned body).enterIsolated .txConfined).sp.tickets
      = ((s.failing window flag count events).frameAbandoned body).ticketsVoided .isolated := by simp
  have hmem {z : Ticket} (hz : z ∈ s.sp.tickets)
      (h : ∀ seq d, body = .propose seq d → z.number ≠ seq ∨ z.kind.fits d = false ∨ z.reserved = true) :=
    mem_tickets_frameAbandoned (s := s.failing window flag count events) hz h
  generalize ((s.failing window flag count events).frameAbandoned body).enterIsolated .txConfined = w at *
  subst h
  refine ⟨by simp [hsc], by simp [hsc], ⟨hcopy.1, hcopy.2, hcopy.3, hcopy.4, hcopy.5, hcopy.6, hcopy.7⟩,
    fun hg => ⟨(hoff hg).1, (hoff hg).2, (hoff hg).3, (hoff hg).4⟩, fun z hz hu h => ?_⟩
  rw [withRx_kept .. |>.2.2.2.2.2.2.2.1, htickets]
  exact List.mem_map.mpr ⟨z, hmem hz h, by simp [hu]⟩

end

end State

open State in
/-- Settles O37, by the lemmas of its cases. -/
theorem failedAttempts : Obligations.FailedAttempts := by
  unfold Obligations.FailedAttempts
  refine ⟨fun c ev a x s hc hs ha hr hx honly => ?_, fun c ev a s hc hs ha hnone => ?_, fun a n s hs ha hw => ?_,
    fun s => ⟨advanceClashWindow_closed, fun n => advanceClashWindow_open⟩⟩
  · obtain ⟨window, flag, count, events, t, rx, hfails⟩ := failed_exists hc hs ha
    refine ⟨t, hfails.step, fun e => hfails.raised, hfails.attempt,
      fun hform hm ht => ⟨hfails.errorFlag hform rfl hm ht, hfails.rx_eq.trans (hfails.ended hform ht)⟩,
      fun hd => hfails.rx_eq.trans (hfails.discarded hd), hfails.lands ha hr hx,
      fun hn seq d hb hj ht hp => hfails.stops ha hr hx hn hb hj ht hp,
      fun hn hm seq d z hz hb hu hnum hk hres hw hp =>
        hfails.withdraws ha hr hx hn hb ⟨hm, hz, hu, hnum, hk, hres, hw, hp⟩, fun hn => ?_, fun hn => ?_, fun hn => ?_,
      fun hn => (Fails.confines (hfails.abandons ha hr hx hn))⟩
    · have hafter := hfails.abandons ha hr hx hn
      refine ⟨by rw [hafter]; exact hasEvent_abandonFrame _ _, fun seq d hb z hz hu hnum hk hres hp => ?_⟩
      obtain rfl := hnum
      rw [hb] at hafter
      exact Fails.reports hafter hz hu hk hres hp
    · exact Fails.drops (hfails.abandons ha hr hx hn)
    · intro hcount seq d hb ht
      have hafter := hfails.abandons ha hr hx hn
      rw [hb] at hafter
      exact ⟨Fails.listens hafter hcount ht, Fails.leaves hafter hcount ht, Fails.returns hafter hcount ht⟩
  · obtain ⟨window, flag, count, events, t, rx, hfails⟩ := failed_exists hc hs ha
    have heq := hfails.after
    rw [rejectAttempt_trip (s := s.failing window flag count events) ha hnone] at heq
    refine ⟨t, hfails.step, fun e => hfails.raised, hfails.attempt, ?_⟩
    subst heq
    refine ⟨rfl, rfl, hfails.window, rfl, hfails.still, rfl, rfl⟩
  · have heq := bodyClash_second hs ha hw
    refine ⟨_, (exec_bodyClash s).trans (congrArg _ heq), by simp, by simp, fun hg => outputsOff_enterHalted _ hg, ?_,
      by simp, (steady_enterHalted (Steady.rfl' (w := true))).hasEvent (hasEvent_raise_same ..), hasEvent_enterHalted ..⟩
    constructor <;> simp

end Sys2Proof.Machine
end

section
/-! The choice of a frame and the beginning of an attempt (R45, R48, R51, R56, R58, R83, R95, R194). -/

namespace Sys2Proof.Machine

variable {s : State} {f : Instr} {joining : Bool} {b : QueuedBody} {x : QueuedFrame}

/-! ### A frame marked as in flight -/

theorem map_body_markFirst (test : QueuedFrame → Bool) (q : List QueuedFrame) :
    (markFirst test q).map (·.body) = q.map (·.body) := by
  induction q with
  | nil => rfl
  | cons x xs ih =>
    rw [markFirst]
    split
    next => rfl
    next => simp [ih]

theorem map_attempts_markFirst (test : QueuedFrame → Bool) (q : List QueuedFrame) :
    (markFirst test q).map (·.attempts) = q.map (·.attempts) := by
  induction q with
  | nil => rfl
  | cons x xs ih =>
    rw [markFirst]
    split
    next => rfl
    next => simp [ih]

namespace State

/-! ### The frame R56 chooses -/

theorem tripReady_eq_false (h : s.isMember = false ∨ s.bi.tripSlot = none) : s.tripReady = false := by
  obtain h | h := h <;> simp [tripReady, h]

theorem nextFrame_trip {x : SlotTrip} (hm : s.isMember = true) (h : s.bi.tripSlot = some x) :
    s.nextFrame = some (.tripAccepted s.ownId x.fields) := by
  simp [nextFrame, tripReady, hm, h]

theorem nextFrame_queued (ht : s.isMember = false ∨ s.bi.tripSlot = none)
    (h : s.bi.queue.find? (fun y => s.eligible y.body) = some x) : s.nextFrame = some (s.frameOf x.body) := by
  simp [nextFrame, tripReady_eq_false ht, firstEligible, h]

theorem nextFrame_none (ht : s.isMember = false ∨ s.bi.tripSlot = none)
    (h : ∀ y ∈ s.bi.queue, s.eligible y.body = false) : s.nextFrame = none := by
  simpa [nextFrame, tripReady_eq_false ht, firstEligible] using h

theorem isMember_iff : s.isMember = true ↔ s.sc.station = .member ∨ s.sc.station = .leaving := by simp [isMember]

theorem tracks_iff {id : ProposalId} : s.tracks id = true ↔ s.sc.tracked = some id := by simp [tracks]

/-- Each row of the table of R56. -/
theorem eligible_iff : s.eligible b = true ↔
    ((∃ f, b = .beat f) ∧ s.sc.station ∈ [.member, .leaving, .resync])
    ∨ (((∃ id r, b = .object id r) ∨ (∃ seq c, b = .propose seq c) ∨ ∃ asker, b = .reply asker)
        ∧ s.sc.station ∈ [.member, .leaving])
    ∨ (b = .query ∧ s.sc.station ∈ [.listen, .resync])
    ∨ (s.sc.station = .joining
        ∧ ((∃ seq fp kind, b = .propose seq (.admission fp kind) ∧ s.sc.tracked = some ⟨s.ownId, seq⟩)
          ∨ ∃ id, b = .object id .withdrawn ∧ s.sc.tracked = some id)) := by
  cases b with
  | beat f => simp [eligible, drivesMarks, isMember_iff, or_assoc]
  | object id r => cases r <;> simp [eligible, isMember_iff, tracks_iff]
  | propose seq c => cases c <;> simp [eligible, isMember_iff, tracks_iff]
  | reply asker => simp [eligible, isMember_iff]
  | query => simp [eligible]

/-! ### The beginning of an attempt (R48) -/

theorem transmissionAttempt_begins (hf : s.nextFrame = some f) (h : s.mayBegin joining f = true) :
    s.transmissionAttempt joining = (s.doIf joining startBit).beginAttempt f := by
  simp [transmissionAttempt, hf, h]

theorem transmissionAttempt_rests (h : ∀ f, s.nextFrame = some f → s.mayBegin joining f = false) :
    s.transmissionAttempt joining = s := by
  unfold transmissionAttempt
  split
  next f hf => exact if_neg (by simp [h f hf])
  next => rfl

theorem frameFits_iff {n : Nat} : s.frameFits n = true ↔ s.lockWindow + 16 ≤ s.pos
    ∧ (35 + 8 * n) * s.bitTime + (s.lockWindow + 16) * s.prescale ≤ (s.epochCounts - s.pos) * s.prescale := by
  rw [frameFits, Bool.and_eq_true, decide_eq_true_iff, decide_eq_true_iff]
  rfl

theorem mayBegin_iff : s.mayBegin joining f = true ↔ (s.isMember = true ∨ s.isFollower = true) ∧ s.bi.attempt = none
    ∧ (s.bi.line = .idle ∨ (joining = true ∧ s.bi.line = .busy)) ∧ s.lockWindow + 16 ≤ s.pos
    ∧ (35 + 8 * frameLength f) * s.bitTime + (s.lockWindow + 16) * s.prescale
        ≤ (s.epochCounts - s.pos) * s.prescale := by
  simp [mayBegin, transmits, frameFits_iff, and_assoc]

theorem followsFrames_of_transmits (h : s.isMember = true ∨ s.isFollower = true) : s.followsFrames = true :=
  h.elim followsFrames_of_member followsFrames_of_follower

theorem startBit_of_follows (h : s.followsFrames = true) : s.startBit.bi
    = { s.bi with line := .busy, recessiveRun := 0, edgeAge := 0, rx := some .fresh } := by
  simp [startBit, h]

theorem beginAttempt_queue (f : Instr) (s : State) : (s.beginAttempt f).bi.queue.map (·.body) = s.bi.queue.map (·.body)
    ∧ (s.beginAttempt f).bi.queue.map (·.attempts) = s.bi.queue.map (·.attempts) := by
  simp only [beginAttempt, modBi]
  split
  · exact ⟨rfl, rfl⟩
  · exact ⟨map_body_markFirst .., map_attempts_markFirst ..⟩

end State

open State in
/-- Settles O35. -/
theorem transmissionAttempt_spec : Obligations.TransmissionAttempt := by
  unfold Obligations.TransmissionAttempt
  refine ⟨fun joining f s ht ha hl hf hpos hfits => ?_, fun joining s h => ?_, fun b s => eligible_iff,
    fun x s => nextFrame_trip, fun s => nextFrame_none, fun x s ht hx => ?_⟩
  · have hbegins := transmissionAttempt_begins hf (mayBegin_iff.mpr ⟨ht, ha, hl, hpos, hfits⟩)
    obtain ⟨hbodies, hattempts⟩ := beginAttempt_queue f (s.doIf joining startBit)
    refine ⟨_, (exec_transmissionAttempt joining s).trans (congrArg _ hbegins), rfl, ?_, ?_, ?_, ?_, ?_⟩
    · rintro rfl
      rw [doIf_true]
      exact ⟨rfl, congrArg BusInterface.rx (startBit_of_follows (followsFrames_of_transmits ht))⟩
    · rintro rfl
      exact ⟨rfl, rfl⟩
    · rw [hbodies]
      cases joining <;> rfl
    · rw [hattempts]
      cases joining <;> rfl
    · cases joining <;> rfl
  · refine (exec_transmissionAttempt joining s).trans (congrArg _ (transmissionAttempt_rests fun f hf => ?_))
    rw [Bool.eq_false_iff, ne_eq, mayBegin_iff]
    rintro ⟨ht, ha, hl, hpos, hfits⟩
    obtain h | ⟨hm, hfo⟩ | h | h | ⟨hj, h⟩ | h | ⟨g, hg, h⟩ := h
    · simp [h] at hf
    · simp [hm, hfo] at ht
    · exact h ha
    · simp [h] at hl
    · simp [hj, h] at hl
    · omega
    · obtain rfl : f = g := Option.some.inj (hf.symm.trans hg)
      omega
  · have hnext := nextFrame_queued ht hx
    refine ⟨fun fields hb => ?_, fun hb => ?_, fun seq fp hb => ?_, fun seq fp hb => ?_, fun seq i hb => ?_,
      fun seq i hb => ?_, fun seq hb => ?_, fun seq d hb => ?_, fun seq i hb => ?_, fun p hp id hb => ?_, fun asker hb => ?_⟩
    case refine_10 =>
      rw [hnext, hb]
      fin_cases hp <;> rfl
    all_goals
      rw [hnext, hb]
      rfl

end Sys2Proof.Machine
end

section
/-! One station clock of SBD, function by function (R43 to R46, R48 to R54, log 22). -/

namespace Sys2Proof.Machine

variable {s : State} {dominant read : Bool} {rx : RxContext} {a : Attempt} {idleFor index : Nat}

/-- A command goes on to the state that is taken from its outcome, whatever stands in for none. -/
theorem exec_eq_next_nextOf (c : Instr) (s t : State) : exec c s = .next (nextOf (exec c s) t) := by
  rw [exec_eq_next c s]
  rfl

theorem exec_of_eq_nextOf {c : Instr} {s t u : State} (h : u = nextOf (exec c s) t) : exec c s = .next u := by
  rw [h]
  exact exec_eq_next_nextOf c s t

namespace State

/-! ### The line states (R45, R46) -/

theorem exec_lineStuckRelease_of_stuck (hs : s.sc.station ≠ .setup) (h : s.bi.line = .stuck) : exec .lineStuckRelease s
    = .next { s with bi := { s.bi with line := .busy, dominantRun := 0, recessiveRun := 1 } } := by
  simp [lineStuckRelease, hs, h, modBi]

theorem exec_lineStuck_of_ne (hs : s.sc.station ≠ .setup) (h : s.bi.line ≠ .stuck) : exec .lineStuck s = .next { s with
    bi := { s.bi with line := .stuck, rx := none }
    sp := { s.sp with events := s.sp.events ||| Event.line.bit } } := by
  simp [lineStuck, hs, h, modBi, raise, modSp]

theorem exec_lineIdle_of_ne (hs : s.sc.station ≠ .setup) :
    exec .lineIdle s = .next { s with bi := { s.bi with line := .idle, rx := none } } := by
  simp [lineIdle, hs, modBi]

theorem exec_errorFlagEnd_of_none (h : s.bi.errorFlagLeft = 0) : exec .errorFlagEnd s = .next s := by
  simp [errorFlagEnd, h]

theorem busLine_of_stuck (h : s.bi.line = .stuck) :
    s.busLine = if s.bi.wasDominant then s else nextOf (exec .lineStuckRelease s) s := by rw [busLine, if_pos h]

theorem busLine_of_long (h : s.bi.line ≠ .stuck) (hd : 3 * s.bitTime < s.bi.dominantRun) :
    s.busLine = nextOf (exec .lineStuck s) s := by rw [busLine, if_neg h, if_pos hd]

theorem busLine_rests (h : s.bi.line ≠ .stuck) (hd : s.bi.dominantRun ≤ 3 * s.bitTime)
    (hr : s.bi.line = .idle ∨ s.bi.attempt ≠ none ∨ s.bi.recessiveRun < 11 * s.bitTime) : s.busLine = s := by
  rw [busLine, if_neg h, if_neg (by omega), if_neg]
  obtain hr | hr | hr := hr
  · simp [hr]
  · simp [hr]
  · simp [show ¬11 * s.bitTime ≤ s.bi.recessiveRun by omega]

theorem busLine_becomes_idle (h : s.bi.line = .busy) (hd : s.bi.dominantRun ≤ 3 * s.bitTime) (ha : s.bi.attempt = none)
    (hr : 11 * s.bitTime ≤ s.bi.recessiveRun) : s.busLine = s.becomeIdle := by
  rw [busLine, if_neg (by simp [h]), if_neg (by omega), if_pos (by simp [h, ha, hr])]

theorem becomeIdle_missed (h : ∃ rx, s.bi.rx = some rx ∧ rx.lost = true ∧ rx.sawFlag = false ∧ rx.sawEdge = true) :
    exec (.frameMissed false) s.lineIdle = .next s.becomeIdle := by
  obtain ⟨rx, hrx, hlost, hflag, hedge⟩ := h
  simp [becomeIdle, hrx, hlost, hflag, hedge]

theorem becomeIdle_not_missed (h : ∀ rx, s.bi.rx = some rx → rx.lost = false ∨ rx.sawFlag = true ∨ rx.sawEdge = false) :
    s.becomeIdle = s.lineIdle := by
  have hmissed : (s.bi.rx.elim false fun rx => rx.lost && !rx.sawFlag && rx.sawEdge) = false := by
    cases hrx : s.bi.rx with
    | none => rfl
    | some rx => obtain h | h | h := h rx hrx <;> simp [h]
  simp [becomeIdle, hmissed]

/-! ### A boundary on a STUCK line (R46) -/

theorem countStuck_rests (h : s.bi.line ≠ .stuck ∨ s.canIsolate = false) :
    s.countStuck = { s with bi := { s.bi with stuckEpochs := 0 } } := by
  obtain h | h := h <;> simp [countStuck, h, modBi]

theorem countStuck_counts (h : s.bi.line = .stuck) (hc : s.canIsolate = true) (hn : s.bi.stuckEpochs + 1 < s.lossEpochs) :
    s.countStuck = { s with bi := { s.bi with stuckEpochs := s.bi.stuckEpochs + 1 } } := by
  simp [countStuck, h, hc, show ¬s.lossEpochs ≤ s.bi.stuckEpochs + 1 by omega, modBi]

theorem countStuck_isolates (h : s.bi.line = .stuck) (hc : s.canIsolate = true) (hn : s.lossEpochs ≤ s.bi.stuckEpochs + 1) :
    s.countStuck = (s.modBi fun bi => { bi with stuckEpochs := s.bi.stuckEpochs + 1 }).enterIsolated .dataStuck := by
  simp only [countStuck, h, hc, hn, decide_true, Bool.and_self, if_true, doIf_true]
  exact isolate_of_canIsolate _ hc

/-! ### The drive and the timers (R43, R44, R52) -/

theorem attemptPulls_iff : s.attemptPulls a = true ↔
    (a.bits[a.age / s.bitTime]? = some true ∧ a.age % s.bitTime < s.bitTime / 4)
    ∨ (a.bits[a.age / s.bitTime]? = some false ∧ a.age % s.bitTime < 3 * s.bitTime / 4) := by
  unfold attemptPulls
  split
  next h => simp [h]
  next h => simp [h]
  next h => simp [h]

theorem votePulls_iff : s.votePulls = true ↔ ∃ rx n, s.bi.rx = some rx ∧ rx.rejecting = true ∧ rx.slotAge = some n
    ∧ n < 3 * s.bitTime / 4 := by
  unfold votePulls
  split
  next rx h => cases hn : rx.slotAge <;> simp [h, hn]
  next h => simp [h]

theorem pullsSbd_iff : s.pullsSbd = true ↔ (∃ a, s.bi.attempt = some a ∧ s.attemptPulls a = true)
    ∨ (s.isMember = true ∧ (s.bi.errorFlagLeft ≠ 0 ∨ ∃ rx n, s.bi.rx = some rx ∧ rx.rejecting = true
        ∧ rx.slotAge = some n ∧ n < 3 * s.bitTime / 4)) := by
  have hown : (s.bi.attempt.map s.attemptPulls).getD false = true
      ↔ ∃ a, s.bi.attempt = some a ∧ s.attemptPulls a = true := by cases s.bi.attempt <;> simp
  rw [pullsSbd, Bool.or_eq_true, Bool.and_eq_true, Bool.or_eq_true, hown, votePulls_iff, decide_eq_true_iff,
    or_comm (b := s.bi.errorFlagLeft ≠ 0)]

theorem sbdDominant_iff : s.sbdDominant = true
    ↔ s.pins.sbdPulled = true ∨ (s.pullsSbd = true ∧ s.pins.sbdOpen = false) := by
  simp [sbdDominant]

theorem driveFlag_ends (h : s.bi.errorFlagLeft = 1) : exec .errorFlagEnd s = .next s.driveFlag :=
  exec_of_eq_nextOf (if_pos h)

theorem driveFlag_goes_on (h : s.bi.errorFlagLeft ≠ 1) :
    s.driveFlag = { s with bi := { s.bi with errorFlagLeft := s.bi.errorFlagLeft - 1 } } := if_neg h

theorem lineTimers_dominant (s : State) : s.lineTimers true = { s with bi := { s.bi with
    wasDominant := true, dominantRun := min (3 * s.bitTime + 1) (s.bi.dominantRun + 1), recessiveRun := 0
    edgeAge := if s.bi.wasDominant then min (2 * s.bitTime) (s.bi.edgeAge + 1) else 0 } } := by
  cases h : s.bi.wasDominant <;> simp [lineTimers, modBi, h]

theorem lineTimers_recessive (s : State) : s.lineTimers false = { s with bi := { s.bi with
    wasDominant := false, dominantRun := 0, recessiveRun := min (12 * s.bitTime) (s.bi.recessiveRun + 1)
    edgeAge := min (2 * s.bitTime) (s.bi.edgeAge + 1) } } := by
  simp [lineTimers, modBi]

/-! ### A falling edge (R43, R45, R52) -/

theorem modRx_of_some {f : RxContext → RxContext} (h : s.bi.rx = some rx) :
    s.modRx f = { s with bi := { s.bi with rx := some (f rx) } } := by simp [modRx, modBi, h]

theorem busEdge_of_idle (h : s.bi.line = .idle) : s.busEdge idleFor = if idleFor ≤ 11 * s.bitTime + s.bitTime / 4 then
    nextOf (exec (.transmissionAttempt true) s.startBit) s.startBit else s.startBit := by
  rw [busEdge, if_pos h]
  rfl

theorem busEdge_of_none (h : s.bi.line ≠ .idle) (hrx : s.bi.rx = none) : s.busEdge idleFor = s := by
  rw [busEdge, if_neg h, hrx]

theorem busEdge_of_some (h : s.bi.line ≠ .idle) (hrx : s.bi.rx = some rx) : s.busEdge idleFor =
    if rx.lost then s.modRx fun rx => { rx with sawEdge := true }
    else if rx.slotAge.isSome then s
    else if bodyRead rx.bits then s.slotEdge rx
    else s.modRx fun rx => { rx with taken := 0, dominant := 0 } := by
  rw [busEdge, if_neg h, hrx]

/-! ### The samples (R43, R54) -/

theorem busSample_of_none (hrx : s.bi.rx = none) : s.busSample dominant = s.startUnread := by rw [busSample, hrx]

theorem startUnread_rests (h : s.bi.attempt = none ∨ ∃ a, s.bi.attempt = some a ∧ a.age < 9 * s.bitTime / 16) :
    s.startUnread = s := by
  obtain h | ⟨a, h, hage⟩ := h
  · simp [startUnread, h]
  · simp [startUnread, h, hage]

theorem startUnread_fails (h : s.bi.attempt = some a) (hage : 9 * s.bitTime / 16 ≤ a.age) :
    exec .driveReadbackFail s = .next s.startUnread := by
  simp [startUnread, h, hage]

/-- A sample taken into the receive context (R43). -/
def sampled (dominant : Bool) (rx : RxContext) : RxContext :=
  { rx with taken := rx.taken + 1, dominant := rx.dominant + dominant.toNat }

theorem isSamplePoint_iff {n : Nat} : s.isSamplePoint n = true
    ↔ n = 7 * s.bitTime / 16 ∨ n = 8 * s.bitTime / 16 ∨ n = 9 * s.bitTime / 16 := by
  simp [isSamplePoint, or_assoc]

theorem busSample_of_some (hrx : s.bi.rx = some rx) : s.busSample dominant =
    if rx.lost || !s.isSamplePoint (rx.slotAge.getD s.bitAge) then s
    else if (sampled dominant rx).taken < 3 then s.modRx fun _ => sampled dominant rx
    else if rx.slotAge.isSome then s.modRx fun _ =>
      { sampled dominant rx with accepted := some ((sampled dominant rx).dominant < 2) }
    else if bodyRead rx.bits then s
    else s.decideBit (sampled dominant rx) ((sampled dominant rx).dominant < 2) := by
  rw [busSample, hrx]
  rfl

/-! ### A bit decided (R43, R49 to R51) -/

theorem readBack_of_none (h : s.bi.attempt = none) : s.readBack index read = s := by simp [readBack, h]

theorem readBack_of_absent (h : s.bi.attempt = some a) (hb : a.bits[index]? = none) : s.readBack index read = s := by
  simp [readBack, h, hb]

theorem readBack_of_some {sent : Bool} (h : s.bi.attempt = some a) (hb : a.bits[index]? = some sent) :
    s.readBack index read = if sent = read then s
      else if !sent then nextOf (exec .driveReadbackFail s) s
      else if index < 8 then nextOf (exec .arbitrationLost s) s
      else s.modRx fun rx => { rx with mismatch := true } := by
  simp only [readBack, h, Option.bind_some, hb]

/-! ### Errors while a frame is followed (R44, R50, R51) -/

theorem busErrors_of_none (hrx : s.bi.rx = none) : s.busErrors dominant = s := by rw [busErrors, hrx]

theorem busErrors_of_some (hrx : s.bi.rx = some rx) : s.busErrors dominant =
    if rx.lost then s.modRx fun rx => { rx with sawFlag := rx.sawFlag || decide (s.bitTime < s.bi.dominantRun) }
    else if rx.slotAge.isSome then s
    else if decide (s.bitTime < s.bi.dominantRun) || decide (3 * s.bitTime / 2 < s.bi.edgeAge) then
      (nextOf (exec .formatError s) s).modRx fun rx => { rx with sawFlag := decide (s.bitTime < s.bi.dominantRun) }
    else if rx.mismatch && !dominant then
      nextOf (exec .bodyClash (s.modRx fun rx => { rx with mismatch := false })) s
    else s := by
  rw [busErrors, hrx]

/-! ### The vote slot (R45, R52, R54, R64) -/

theorem busSlot_of_none (hrx : s.bi.rx = none) : s.busSlot = s := by rw [busSlot, hrx]

theorem busSlot_of_body (hrx : s.bi.rx = some rx) (h : rx.slotAge = none) : s.busSlot = s := by
  simp only [busSlot, hrx, h]

theorem busSlot_counts {n : Nat} (hrx : s.bi.rx = some rx) (h : rx.slotAge = some n) (hn : n < 2 * s.bitTime)
    (hv : rx.rejecting = false ∨ s.isMember = false ∨ n ≠ 3 * s.bitTime / 4) : s.busSlot
      = (s.doIf (n = s.bitTime) (modBi fun bi => { bi with recessiveRun := min 1 bi.recessiveRun })).modRx fun rx =>
          { rx with slotAge := some (n + 1) } := by
  have hvote : (rx.rejecting && s.isMember && decide (n = 3 * s.bitTime / 4)) = false := by
    obtain h | h | h := hv <;> simp [h]
  simp only [busSlot, hrx, h, if_neg (show ¬2 * s.bitTime ≤ n by omega), hvote, doIf_false]

theorem busSlot_ends {n : Nat} (hrx : s.bi.rx = some rx) (h : rx.slotAge = some n) (hn : 2 * s.bitTime ≤ n) :
    s.busSlot = s.slotOutcome rx := by simp only [busSlot, hrx, h, if_pos hn]

theorem slotOutcome_accepted (h : rx.accepted = some true) (he : rx.error = false) :
    s.slotOutcome rx = nextOf (exec (heardFrame rx.bits) s) s := by simp [slotOutcome, h, he]

theorem slotOutcome_missed (h : rx.accepted = some true) (he : rx.error = true) (hf : s.isFollower = true) :
    s.slotOutcome rx = nextOf (exec (.frameMissed true) s) s := by simp [slotOutcome, h, he, hf]

theorem noteAcceptance_of_ne (h : s.sc.station ≠ .listen) : s.noteAcceptance = s := by simp [noteAcceptance, h]

theorem seeAcceptance_other (s : State) : s.seeAcceptance false = s.afterFrame.noteAcceptance.loseAttempt := rfl

theorem station_ne_listen (hf : s.isFollower = false) : s.sc.station ≠ .listen := by
  intro hl
  simp [isFollower, hl] at hf

theorem slotOutcome_errs (h : rx.accepted = some true) (he : rx.error = true) (hf : s.isFollower = false) :
    s.slotOutcome rx = s.afterFrame.loseAttempt := by
  rw [slotOutcome, if_pos h, he, hf, seeAcceptance_other, noteAcceptance_of_ne (s := s.afterFrame) (station_ne_listen hf)]
  rfl

theorem slotOutcome_discarded (h : rx.accepted ≠ some true) :
    s.slotOutcome rx = nextOf (exec (.frameDiscarded false false) s) s := if_neg h

/-! ### The station clock of the line -/

/-- SBD at one station clock up to the attempt that an IDLE line allows. -/
def busClocked (s : State) : State :=
  ((((((s.driveFlag.lineTimers s.sbdDominant).doIf (s.sbdDominant && !s.bi.wasDominant) (busEdge s.bi.recessiveRun)).busSample
    s.sbdDominant).busErrors s.sbdDominant).busSlot).busLine).ageAttempt

theorem tickBus_eq (s : State) : s.tickBus = if s.busClocked.bi.line = .idle then
    nextOf (exec (.transmissionAttempt false) s.busClocked) s.busClocked else s.busClocked := rfl

theorem busClocked_eq (s u : State) (hu : u = s.driveFlag.lineTimers s.sbdDominant) : s.busClocked
    = ((((if s.sbdDominant = true ∧ s.bi.wasDominant = false then u.busEdge s.bi.recessiveRun else u).busSample
        s.sbdDominant).busErrors s.sbdDominant).busSlot).busLine.ageAttempt := by
  subst hu
  cases hd : s.sbdDominant <;> cases hw : s.bi.wasDominant <;> simp [busClocked, hd, hw]

end State

open State in
/-- Settles O34, by the equations of each function of the clock. -/
theorem lineEvents : Obligations.LineEvents := by
  unfold Obligations.LineEvents
  refine ⟨fun s hs => ⟨exec_lineIdle_of_ne hs, exec_lineStuck_of_ne hs, exec_lineStuckRelease_of_stuck hs,
      exec_errorFlagEnd_of_none⟩,
    fun s => ⟨countStuck_rests, countStuck_counts, fun h hc hn => ?isolates⟩, fun s u v hu hv => ?clock,
    fun s => ⟨sbdDominant_iff, pullsSbd_iff, fun a => attemptPulls_iff, driveFlag_ends, driveFlag_goes_on,
      lineTimers_dominant s, lineTimers_recessive s⟩,
    fun idleFor s => ⟨fun h => ⟨rfl, fun hi => ?joins, fun hi => ?late⟩, busEdge_of_none, fun rx h hrx => ?edge⟩,
    fun dominant s hrx => ⟨fun h => ?unread, fun a ha hage => ?fails⟩,
    fun dominant rx now age s hrx hage hnow => ?sample, fun read rx old bits s u hrx hbits hu => ?decide,
    fun index read s => ⟨readBack_of_none, fun a ha => ?readback⟩,
    fun dominant s => ⟨busErrors_of_none, fun rx hrx => ?errors⟩,
    fun s => ⟨busSlot_of_none, fun rx hrx => ⟨busSlot_of_body hrx, fun n hn => ?slot⟩⟩, fun s => ?line⟩
  case isolates =>
    rw [countStuck_isolates h hc hn]
    exact ⟨by simp, by simp, noCopy_enterIsolated .., by simp; rfl, fun hg => outputsOff_enterIsolated _ hg,
      hasEvent_state_enterIsolated ..⟩
  case clock =>
    rw [← busClocked_eq s u hu] at hv
    subst hv
    rw [tickBus_eq]
    refine ⟨fun h => exec_of_eq_nextOf (if_pos h), fun h => if_neg h⟩
  case joins =>
    rw [busEdge_of_idle h, if_pos hi]
    exact exec_eq_next_nextOf ..
  case late => rw [busEdge_of_idle h, if_neg (by omega)]
  case edge =>
    rw [busEdge_of_some h hrx]
    refine ⟨fun hl => ?_, fun hl ha => ?_, fun hl ha hb => ?_, fun hl ha hb => ?_⟩
    · rw [if_pos hl, modRx_of_some hrx]
    · rw [if_neg (by simp [hl]), if_pos (by simpa [Option.isSome_iff_ne_none] using ha)]
    · rw [if_neg (by simp [hl]), if_neg (by simp [ha]), if_pos hb, slotEdge, modRx_of_some hrx]
    · rw [if_neg (by simp [hl]), if_neg (by simp [ha]), if_neg (by simp [hb]), modRx_of_some hrx]
  case unread => rw [busSample_of_none hrx, startUnread_rests h]
  case fails =>
    rw [busSample_of_none hrx]
    exact startUnread_fails ha hage
  case sample =>
    obtain rfl : now = sampled dominant rx := hnow
    obtain rfl : age = rx.slotAge.getD s.bitAge := hage
    rw [busSample_of_some hrx]
    refine ⟨fun h => ?_, fun hl hp => ?_⟩
    · rw [if_pos]
      obtain h | ⟨h7, h8, h9⟩ := h
      · simp [h]
      · simp [isSamplePoint, h7, h8, h9]
    · have hpoint : (rx.lost || !s.isSamplePoint (rx.slotAge.getD s.bitAge)) = false := by
        rw [hl, isSamplePoint_iff.mpr (by simpa using hp)]
        rfl
      rw [hpoint, if_neg (by simp)]
      have htaken : (sampled dominant rx).taken = rx.taken + 1 := rfl
      refine ⟨fun ht => ?_, fun ht ha => ?_, fun ht ha hb => ?_, fun ht ha hb => ?_⟩
      · rw [if_pos (by omega), modRx_of_some hrx]
      · rw [if_neg (by omega), if_pos (by simpa [Option.isSome_iff_ne_none] using ha), modRx_of_some hrx]
      · rw [if_neg (by omega), if_neg (by simp [ha]), if_pos hb]
      · rw [if_neg (by omega), if_neg (by simp [ha]), if_neg (by simp [hb])]
  case decide =>
    have heq : s.decideBit rx read = if headerRead bits && 20 < heardLength bits then nextOf (exec .formatError u) u else u := by
      subst hbits hu
      rw [decideBit, modRx_of_some hrx]
    rw [heq]
    refine ⟨fun hh hl => ?_, fun h => if_neg ?_⟩
    · rw [if_pos (by simp [hh, hl])]
      exact exec_eq_next_nextOf ..
    · obtain h | h := h
      · simp [h]
      · simp [h]
  case readback =>
    refine ⟨fun h => ?_, fun hb hr => ?_, fun hb hr hi => ?_, fun hb hr hi rx hrx => ?_⟩
    · obtain h | h := h
      · exact readBack_of_absent ha h
      · rw [readBack_of_some ha h, if_pos rfl]
    · rw [readBack_of_some ha hb, if_neg (by simp [hr]), if_pos (show (!false) = true from rfl)]
      exact exec_eq_next_nextOf ..
    · rw [readBack_of_some ha hb, if_neg (by simp [hr]), if_neg (by simp), if_pos hi]
      exact exec_eq_next_nextOf ..
    · rw [readBack_of_some ha hb, if_neg (by simp [hr]), if_neg (by simp), if_neg (by omega), modRx_of_some hrx]
  case errors =>
    rw [busErrors_of_some hrx]
    refine ⟨fun hl => ?_, fun hl ha => ?_, fun hl ha h => ?_, fun hl ha hd he => ⟨fun hm hdom => ?_, fun h => ?_⟩⟩
    · rw [if_pos hl, modRx_of_some hrx]
    · rw [if_neg (by simp [hl]), if_pos (by simpa [Option.isSome_iff_ne_none] using ha)]
    · rw [if_neg (by simp [hl]), if_neg (by simp [ha]), if_pos (by simpa using h)]
      exact ⟨_, exec_eq_next_nextOf _ _ s, rfl⟩
    · rw [if_neg (by simp [hl]), if_neg (by simp [ha]), if_neg (by simp [hd, he]), if_pos (by simp [hm, hdom]),
        modRx_of_some hrx]
      exact exec_eq_next_nextOf ..
    · rw [if_neg (by simp [hl]), if_neg (by simp [ha]), if_neg (by simp [hd, he]), if_neg]
      obtain h | h := h <;> simp [h]
  case slot =>
    refine ⟨fun hlt hne hv => ?_, fun heq hb => ?_, fun hle hacc he => ?_, fun hle hacc he => ⟨fun hf => ?_, fun hf ha => ?_,
      fun hf hs => ?_⟩, fun hle hacc => ?_⟩
    · rw [busSlot_counts hrx hn hlt hv, decide_eq_false hne, doIf_false, modRx_of_some hrx]
    · rw [busSlot_counts hrx hn (by omega) (.inr (.inr (by omega))), decide_eq_true heq, doIf_true]
      exact modRx_of_some (s := s.modBi _) hrx
    · rw [busSlot_ends hrx hn hle, slotOutcome_accepted hacc he]
      exact exec_eq_next_nextOf ..
    · rw [busSlot_ends hrx hn hle, slotOutcome_missed hacc he hf]
      exact exec_eq_next_nextOf ..
    · rw [busSlot_ends hrx hn hle, slotOutcome_errs hacc he hf, loseAttempt_of_none (s := s.afterFrame) ha]
    · rw [busSlot_ends hrx hn hle, slotOutcome_errs hacc he hf, exec_arbitrationLost, arbitrationLost,
        if_neg (show s.afterFrame.sc.station ≠ .setup from hs)]
    · rw [busSlot_ends hrx hn hle, slotOutcome_discarded hacc]
      exact exec_eq_next_nextOf ..
  case line =>
    refine ⟨fun h hw => ?_, fun h hw => ?_, fun h hd => ?_, fun h hd => ⟨busLine_rests h hd, fun hb ha hr =>
      ⟨s.lineIdle, exec_lineIdle s, fun hm => ?_, fun hm => ?_⟩⟩, rfl⟩
    · rw [busLine_of_stuck h, if_pos hw]
    · rw [busLine_of_stuck h, if_neg (by simp [hw])]
      exact exec_eq_next_nextOf ..
    · rw [busLine_of_long h hd]
      exact exec_eq_next_nextOf ..
    · rw [busLine_becomes_idle hb hd ha hr]
      exact becomeIdle_missed hm
    · rw [busLine_becomes_idle hb hd ha hr, becomeIdle_not_missed hm]

end Sys2Proof.Machine
end

section
/-! One station clock: the Setup Port, the prescaler and one count of the PWM clock (R1, R3, R20, R21, R24, R26, R27, R36,
R124, R138, R148, R153, R171, R172, logs 2, 3). -/

namespace Sys2Proof.Machine

variable {s t : State}

/-! ### Bytes read from bits (R171) -/

theorem byteBits_bitsNat_cons (b₇ b₆ b₅ b₄ b₃ b₂ b₁ b₀ : Bool) :
    byteBits (BitVec.ofNat 8 (bitsNat [b₇, b₆, b₅, b₄, b₃, b₂, b₁, b₀])) = [b₇, b₆, b₅, b₄, b₃, b₂, b₁, b₀] := by
  decide +revert

/-- Eight bits are those of the byte they spell. -/
theorem byteBits_bitsNat {l : List Bool} (h : l.length = 8) : byteBits (BitVec.ofNat 8 (bitsNat l)) = l := by
  match l, h with
  | [b₇, b₆, b₅, b₄, b₃, b₂, b₁, b₀], _ => exact byteBits_bitsNat_cons ..

theorem length_byteBits (b : Byte) : (byteBits b).length = 8 := rfl

theorem length_bytesBits (bs : List Byte) : (bytesBits bs).length = 8 * bs.length := by
  induction bs with
  | nil => rfl
  | cons b bs ih =>
    rw [bytesBits, List.flatMap_cons, List.length_append, length_byteBits, List.length_cons]
    simp only [bytesBits] at ih
    omega

theorem bytesBits_bitsBytes {n : Nat} {l : List Bool} (h : l.length = 8 * n) : bytesBits (bitsBytes n l) = l := by
  induction n generalizing l with
  | zero => simp [bitsBytes, bytesBits, List.length_eq_zero_iff.mp h]
  | succ n ih =>
    have hrest := ih (l := l.drop 8) (by simp; omega)
    rw [bytesBits] at hrest ⊢
    rw [bitsBytes, List.flatMap_cons, hrest, byteBits_bitsNat (by simp; omega), List.take_append_drop]

theorem bitsBytes_bytesBits (bs : List Byte) : bitsBytes bs.length (bytesBits bs) = bs := by
  induction bs with
  | nil => rfl
  | cons b bs ih =>
    have htake : (byteBits b ++ bytesBits bs).take 8 = byteBits b := List.take_left' rfl
    have hdrop : (byteBits b ++ bytesBits bs).drop 8 = bytesBits bs := List.drop_left' rfl
    have hcons : bytesBits (b :: bs) = byteBits b ++ bytesBits bs := rfl
    rw [hcons, List.length_cons, bitsBytes, htake, hdrop, ih, bitsNat_byteBits]
    simp

theorem length_bitsBytes (n : Nat) (l : List Bool) : (bitsBytes n l).length = n := by
  induction n generalizing l with
  | zero => rfl
  | succ n ih => simp [bitsBytes, ih]

namespace State

/-- The byte that the first eight bits of a transaction spell. -/
def commandByte (x : Transaction) : Byte := BitVec.ofNat 8 (bitsNat (x.received.take 8))

theorem completeCommand_eq (x : Transaction) : completeCommand x =
    if x.received.length = 8 + 8 * (commandArgs (commandByte x)).getD 0 then
      some (commandByte x, bitsBytes ((commandArgs (commandByte x)).getD 0) (x.received.drop 8))
    else none := rfl

theorem completeCommand_iff {x : Transaction} {code : Byte} {args : List Byte} : completeCommand x = some (code, args) ↔
    x.received = byteBits code ++ bytesBits args ∧ args.length = (commandArgs code).getD 0 := by
  rw [completeCommand_eq]
  constructor
  · intro h
    split at h
    next hlen =>
      obtain ⟨rfl, rfl⟩ := Prod.mk.inj (Option.some.inj h)
      refine ⟨?_, length_bitsBytes ..⟩
      rw [bytesBits_bitsBytes (by simp; omega), commandByte, byteBits_bitsNat (by simp; omega), List.take_append_drop]
    next => simp at h
  · rintro ⟨hbits, hlen⟩
    have hcode : commandByte x = code := by
      have htake : (byteBits code ++ bytesBits args).take 8 = byteBits code := List.take_left' rfl
      rw [commandByte, hbits, htake, bitsNat_byteBits]
      simp
    have hdrop : x.received.drop 8 = bytesBits args := by
      rw [hbits]
      exact List.drop_left' rfl
    rw [hcode, ← hlen, hdrop, bitsBytes_bytesBits, if_pos]
    rw [hbits, List.length_append, length_byteBits, length_bytesBits]

/-! ### The Setup Port (R171, R172) -/

theorem evaluatePort_of_none (h : s.sp.transaction = none) : s.evaluatePort = s := by simp [evaluatePort, h]

theorem evaluatePort_rests {x : Transaction} (hx : s.sp.transaction = some x)
    (h : x.evaluated = true ∨ completeCommand x = none) : s.evaluatePort = s := by
  obtain h | h := h
  · simp [evaluatePort, hx, h]
  · cases he : x.evaluated <;> simp [evaluatePort, hx, h, he]

theorem evaluatePort_runs {x : Transaction} {code : Byte} {args : List Byte} (hx : s.sp.transaction = some x)
    (he : x.evaluated = false) (hc : completeCommand x = some (code, args)) :
    ∃ t, exec (decodeCommand code args) s = .next t ∧ s.evaluatePort = { t with sp := { t.sp with
      transaction := some { x with evaluated := true, toSend := bytesBits t.sp.response } } } := by
  refine ⟨_, exec_eq_next _ s, ?_⟩
  simp only [evaluatePort, hx, he, hc]
  rfl

theorem portSelect_falls (hw : s.sp.scsWas = true) (hp : s.pins.scs = false) : s.portSelect
    = { s with sp := { s.sp with transaction := some ⟨[], false, [], false⟩ } } := by
  simp [portSelect, hw, hp, modSp]

theorem portSelect_rests (h : s.sp.scsWas = s.pins.scs) : s.portSelect = s := by
  cases hp : s.pins.scs <;> simp [portSelect, h, hp]

theorem portSelect_of_none (hw : s.sp.scsWas = false) (hp : s.pins.scs = true) (h : s.sp.transaction = none) :
    s.portSelect = s := by
  simp [portSelect, hw, hp, h]

theorem portSelect_rises {x : Transaction} (hw : s.sp.scsWas = false) (hp : s.pins.scs = true)
    (hx : s.sp.transaction = some x) (he : x.evaluated = true) :
    s.portSelect = { s with sp := { s.sp with transaction := none } } := by
  simp [portSelect, hw, hp, hx, he, modSp]

/-- A transaction that is not there does not change. -/
theorem modSp_transaction_of_none {f : Transaction → Transaction} (h : s.sp.transaction = none) :
    (s.modSp fun p => { p with transaction := p.transaction.map f }) = s := by
  have hsp : ({ s.sp with transaction := none } : SetupPort) = s.sp := by rw [← h]
  simp only [modSp, h, Option.map_none]
  rw [hsp]

theorem portClock_rests (h : s.pins.scs = true ∨ s.sp.sckWas = s.pins.sck ∨ s.sp.transaction = none) :
    s.portClock = s := by
  obtain h | h | h := h
  · simp [portClock, h]
  · cases hp : s.pins.sck <;> simp [portClock, h, hp]
  · rw [portClock, modSp_transaction_of_none h, modSp_transaction_of_none h]
    simp only [ite_self]

theorem portClock_rises {x : Transaction} (hp : s.pins.scs = false) (hx : s.sp.transaction = some x)
    (hw : s.sp.sckWas = false) (hk : s.pins.sck = true) : 
    s.portClock = { s with sp := { s.sp with transaction := some { x with
      received := if x.evaluated then x.received else x.received ++ [s.pins.sdi] } } } := by
  have hsame : (if x.evaluated then x else { x with received := x.received ++ [s.pins.sdi] })
      = { x with received := if x.evaluated then x.received else x.received ++ [s.pins.sdi] } := by split <;> rfl
  simp [portClock, hp, hx, hw, hk, modSp, hsame]

theorem portClock_falls {x : Transaction} (hp : s.pins.scs = false) (hx : s.sp.transaction = some x)
    (hw : s.sp.sckWas = true) (hk : s.pins.sck = false) : 
    s.portClock = { s with sp := { s.sp with transaction := some { x with
      sdo := x.toSend.headD false, toSend := x.toSend.tail } } } := by
  simp [portClock, hp, hx, hw, hk, modSp]

/-! ### The order of two events of one count (log 3) -/

theorem bothTaken_eitherOrder (choice : Nat → Bool) (a b : State → State) (s : State) :
    BothTaken a b s (eitherOrder choice a b s) := by
  refine ⟨fun h => ?_, fun h => ?_⟩
  · simp only [eitherOrder]
    rw [if_pos h]
  · simp only [eitherOrder]
    rw [if_neg h]
    cases choice s.freeCount
    · exact .inr rfl
    · exact .inl rfl

theorem pos_eq_zero_iff (h : 0 < s.period) : s.pos = 0 ↔ s.tb.b = 0 ∧ s.tb.k = 0 := by
  rw [pos, Nat.add_eq_zero_iff, Nat.mul_eq_zero]
  constructor
  · rintro ⟨hk | hp, hb⟩
    · exact ⟨hb, hk⟩
    · omega
  · exact fun ⟨hb, hk⟩ => ⟨.inl hk, hb⟩

theorem countEvents_of_pos (h : s.pos ≠ 0) : s.countEvents = s.cycleAndSamples := if_neg h

theorem countEvents_at_boundary (hb : s.tb.b = 0) (hk : s.tb.k = 0) :
    s.countEvents = eitherOrder Config.boundaryBeforeStart (boundary true) cycleAndSamples s :=
  if_pos (show s.tb.k * s.period + s.tb.b = 0 by simp [hb, hk])

theorem exec_naturalBoundary_at (hs : s.sc.station ≠ .setup) (hb : s.tb.b = 0) (hk : s.tb.k = 0) :
    exec .naturalBoundary s = .next (s.boundary true) := by
  have htb : ({ s.tb with b := 0, k := 0 } : TimeBase) = s.tb := by
    cases htb : s.tb
    simp_all
  rw [exec_naturalBoundary, State.naturalBoundary, if_neg hs, modTb, htb]

/-! ### The local cycle at a count (R124, R148) -/

theorem pointDue_iff : s.pointDue = true ↔ s.pu.length ≤ s.os.p ∨ (s.os.p = s.pu.length / 2 ∧ s.os.anchored = false) := by
  simp [pointDue, halfDue]

theorem cycleAndSamples_of_due (h : s.pointDue = true) :
    s.cycleAndSamples = eitherOrder Config.samplesBeforeCycle sampleInputs cycleAtCount s := if_pos h

theorem cycleAndSamples_of_not_due (h : s.pointDue = false) : s.cycleAndSamples = s.sampleInputs :=
  if_neg (by simp [h])

theorem cycleAtCount_half (hp : s.os.p < s.pu.length) (h : s.os.p = s.pu.length / 2 ∧ s.os.anchored = false) :
    s.cycleAtCount = s.halfPoint := by
  rw [cycleAtCount, if_neg (by omega), show s.halfDue = true by simp [halfDue, h.1, h.2], doIf_true]

theorem cycleAtCount_starts (hp : s.pu.length ≤ s.os.p) : s.cycleAtCount = s.startWithPoint true := if_pos hp

theorem startWithPoint_of_no_clears (h : s.someClears = false) (e : Bool) : s.startWithPoint e = s.cycleStart e := by
  simp [startWithPoint, crossStart, h]

theorem startWithPoint_of_clears (h : s.someClears = true) (e : Bool) :
    s.startWithPoint e = (s.nextFree.cycleStart e).halfPoint ∨ s.startWithPoint e = s.nextFree.halfPoint.cycleStart e := by
  cases hc : Config.pointBeforeStart s.freeCount
  · left
    simp [startWithPoint, crossStart, h, hc]
  · right
    simp [startWithPoint, crossStart, h, hc]

theorem someClears_iff : s.someClears = true ↔ ∃ i, (s.inputRecord i).latched = true ∧ (s.inputRecord i).active = false
    ∧ ((s.input i).manual = false ∨ (s.inputRecord i).ackArmed = true) := by
  have hmem (i : InputNo) : i ∈ allInputs := by cases i <;> simp [allInputs]
  simp only [someClears, List.any_eq_true, clearsAtPoint, Bool.and_eq_true, Bool.or_eq_true, Bool.not_eq_true']
  exact ⟨fun ⟨i, _, ⟨hl, ha⟩, hm⟩ => ⟨i, hl, ha, hm⟩, fun ⟨i, hl, ha, hm⟩ => ⟨i, hmem i, ⟨hl, ha⟩, hm⟩⟩

/-! ### The fault samples (R153) -/

section
variable {i : InputNo}

theorem evaluates_iff : s.evaluates i = true ↔ s.sc.station ≠ .setup ∧ (s.input i).cls ≠ .unused := by
  simp [evaluates]

theorem sampleInput_of_not_evaluated (h : s.evaluates i = false) : s.sampleInput i = s := by simp [sampleInput, h]

theorem sampleInput_agrees (h : s.evaluates i = true)
    (ha : (s.faultPin i != (s.input i).activeLow) = (s.inputRecord i).active) :
    s.sampleInput i = s.modInput i fun r => { r with disagree := 0 } := by
  simp [sampleInput, h, ha]

theorem sampleInput_disagrees (h : s.evaluates i = true)
    (ha : (s.faultPin i != (s.input i).activeLow) ≠ (s.inputRecord i).active) : s.sampleInput i =
      if (s.input i).filter ≤ (s.inputRecord i).disagree + 1 then
        if s.faultPin i != (s.input i).activeLow then s.activateInput i else s.releaseInput i
      else s.modInput i fun r => { r with disagree := r.disagree + 1 } := by
  simp only [sampleInput, h, if_neg ha]
  rfl

end

/-! ### SBM (R24, R26, R27, R36) -/

theorem sbmLow_iff : s.sbmLow = true ↔ s.pins.sbmPulled = true ∨ (s.tb.driveLeft ≠ 0 ∧ s.pins.sbmOpen = false) := by
  simp [sbmLow, pullsSbm]

theorem sampleDrive_idle (low : Bool) (h : s.tb.driveLeft = 0) : s.sampleDrive low = s := by simp [sampleDrive, h]

theorem sampleDrive_driving (low : Bool) (h : s.tb.driveLeft ≠ 0) :
    s.sampleDrive low = { s with tb := { s.tb with driveReadLow := s.tb.driveReadLow || low } } := by
  simp [sampleDrive, h, modTb]

theorem driveCount_ends (h : s.tb.driveLeft = 1) :
    exec (.markDriveEnd (!s.tb.driveReadLow)) s = .next s.driveCount := exec_of_eq_nextOf (if_pos h)

theorem driveCount_goes_on (h : s.tb.driveLeft ≠ 1) :
    s.driveCount = { s with tb := { s.tb with driveLeft := s.tb.driveLeft - 1 } } := if_neg h

theorem driveCount_idle (h : s.tb.driveLeft = 0) : s.driveCount = s := by
  have htb : ({ s.tb with driveLeft := 0 } : TimeBase) = s.tb := by rw [← h]
  rw [driveCount_goes_on (by omega), h, htb]

/-- The edge filter at one count (R27). -/
def edgeFiltered (low : Bool) (s : State) : State :=
  if low = s.tb.levelLow then s.modTb fun tb => { tb with filterRun := 0 }
  else if s.tb.filterRun < 2 then s.modTb fun tb => { tb with filterRun := tb.filterRun + 1 }
  else if low then s.markEdge
  else s.markRelease

/-- The low run at one count (R36). -/
def lowRunCounted (low : Bool) (s : State) : State :=
  (s.edgeFiltered low).doIf (low && s.tb.levelLow) (modTb fun tb => { tb with lowRun := min 65 (tb.lowRun + 1) })

theorem filterMark_eq (low : Bool) (s : State) : s.filterMark low = (s.lowRunCounted low).doIf
    (64 < (s.lowRunCounted low).tb.lowRun && (s.lowRunCounted low).tb.state ≠ .holdover) holdoverEntry := rfl

theorem filterMark_rests (low : Bool) (h : (s.lowRunCounted low).tb.lowRun ≤ 64 ∨ (s.lowRunCounted low).tb.state = .holdover) :
    s.filterMark low = s.lowRunCounted low := by
  rw [filterMark_eq, show (decide (64 < (s.lowRunCounted low).tb.lowRun)
    && decide ((s.lowRunCounted low).tb.state ≠ .holdover)) = false from ?_, doIf_false]
  obtain h | h := h
  · simp [h]
  · simp [h]

theorem filterMark_enters (low : Bool) (h : 64 < (s.lowRunCounted low).tb.lowRun)
    (hs : (s.lowRunCounted low).tb.state ≠ .holdover) :
    s.filterMark low = (s.lowRunCounted low).holdoverEntry := by
  rw [filterMark_eq, decide_eq_true h, decide_eq_true hs, Bool.and_self, doIf_true]

theorem edgeFiltered_cases (low : Bool) (s : State) :
    (low = s.tb.levelLow → s.edgeFiltered low = { s with tb := { s.tb with filterRun := 0 } })
    ∧ (low ≠ s.tb.levelLow → s.tb.filterRun < 2 →
        s.edgeFiltered low = { s with tb := { s.tb with filterRun := s.tb.filterRun + 1 } })
    ∧ (low = true → s.tb.levelLow = false → 2 ≤ s.tb.filterRun → exec .markEdge s = .next (s.edgeFiltered low))
    ∧ (low = false → s.tb.levelLow = true → 2 ≤ s.tb.filterRun → exec .markRelease s = .next (s.edgeFiltered low)) := by
  refine ⟨fun h => if_pos h, fun h hr => ?_, fun hl hw hr => ?_, fun hl hw hr => ?_⟩
  · rw [edgeFiltered, if_neg h, if_pos hr]
    rfl
  · rw [edgeFiltered, if_neg (by simp [hl, hw]), if_neg (by omega), if_pos hl]
    rfl
  · rw [edgeFiltered, if_neg (by simp [hl, hw]), if_neg (by omega), if_neg (by simp [hl])]
    rfl

/-! ### One count (R20, R124) -/

theorem advanceCounters_tb (s : State) : s.advanceCounters.tb =
    { s.tb with
      b := if s.period ≤ s.tb.b + 1 then 0 else s.tb.b + 1
      k := if s.period ≤ s.tb.b + 1 then (if s.epochLen ≤ s.tb.k + 1 then 0 else s.tb.k + 1) else s.tb.k } := by
  simp [advanceCounters]

theorem advanceCounters_os (s : State) :
    s.advanceCounters.os = { s.os.nextCount s.deadtime with p := s.os.p + 1 } := rfl

/-! ### A count on which nothing falls due -/

/-- Every evaluated input stands as it was last filtered. -/
def Agreeing (s : State) : Prop :=
  ∀ i, s.evaluates i = true → (s.faultPin i != (s.input i).activeLow) = (s.inputRecord i).active

theorem sampleInput_of_agreeing (h : s.Agreeing) (i : InputNo) : ∃ fu, s.sampleInput i = { s with fu := fu }
    ∧ fu.tripSet = s.fu.tripSet ∧ State.Agreeing { s with fu := fu } := by
  cases he : s.evaluates i with
  | false => exact ⟨s.fu, sampleInput_of_not_evaluated he, rfl, h⟩
  | true =>
    refine ⟨(s.modInput i fun r => { r with disagree := 0 }).fu, sampleInput_agrees he (h i he), by simp, fun j hj => ?_⟩
    refine (h j hj).trans ?_
    change _ = ((s.modInput i fun r => { r with disagree := 0 }).inputRecord j).active
    by_cases hji : j = i
    · subst hji
      rw [inputRecord_modInput_same]
    · rw [inputRecord_modInput_ne _ _ hji]

theorem sampleInputs_of_agreeing (h : s.Agreeing) :
    ∃ fu, s.sampleInputs = { s with fu := fu } ∧ fu.tripSet = s.fu.tripSet := by
  obtain ⟨f₀, h₀, ht₀, ha₀⟩ := sampleInput_of_agreeing h .flt0
  obtain ⟨f₁, h₁, ht₁, ha₁⟩ := sampleInput_of_agreeing ha₀ .flt1
  obtain ⟨f₂, h₂, ht₂, -⟩ := sampleInput_of_agreeing ha₁ .flt2
  refine ⟨f₂, ?_, ht₂.trans (ht₁.trans ht₀)⟩
  change ((s.sampleInput .flt0).sampleInput .flt1).sampleInput .flt2 = _
  rw [h₀, h₁, h₂]

theorem markAtCount_of_high (hp : s.pins.sbmPulled = false) (hd : s.tb.driveLeft = 0) (hl : s.tb.levelLow = false)
    (hr : s.tb.lowRun ≤ 64) : s.markAtCount = { s with tb := { s.tb with filterRun := 0 } } := by
  have hlow : s.sbmLow = false := by
    rw [Bool.eq_false_iff, ne_eq, sbmLow_iff]
    simp [hp, hd]
  have hfilter : s.lowRunCounted false = { s with tb := { s.tb with filterRun := 0 } } := by
    rw [lowRunCounted, (edgeFiltered_cases false s).1 hl.symm]
    rfl
  rw [markAtCount, hlow, filterMark_rests false (by rw [hfilter]; exact .inl hr), hfilter]
  exact sampleDrive_idle (s := { s with tb := { s.tb with filterRun := 0 } }) false hd

theorem cycleAndSamples_of_inside (hp : s.os.p < s.pu.length) (hh : s.os.p ≠ s.pu.length / 2) :
    s.cycleAndSamples = s.sampleInputs := by
  refine cycleAndSamples_of_not_due (Bool.eq_false_iff.mpr fun h => ?_)
  obtain h | ⟨h, -⟩ := pointDue_iff.mp h
  · omega
  · exact hh h

/-- A count in which nothing falls due: the counters, the gates and the samples alone. -/
theorem tickCount_quiet (hd : s.tb.driveLeft = 0) (hb : s.tb.b + 1 < s.period) (hp : s.os.p + 1 < s.pu.length)
    (hh : s.os.p + 1 ≠ s.pu.length / 2) (hm : s.pins.sbmPulled = false) (hl : s.tb.levelLow = false)
    (hr : s.tb.lowRun ≤ 64) (ha : s.Agreeing) : ∃ fu, fu.tripSet = s.fu.tripSet ∧ s.tickCount = { s with
      tb := { s.tb with b := s.tb.b + 1, filterRun := 0 }
      os := OutputStage.regate s.deadtime { s.os.nextCount s.deadtime with p := s.os.p + 1 }
      fu := fu } := by
  have htb : s.advanceCounters.tb = { s.tb with b := s.tb.b + 1 } := by
    rw [advanceCounters_tb, if_neg (by omega), if_neg (by omega)]
  have hadv : s.advanceCounters = { s with
      tb := { s.tb with b := s.tb.b + 1 }, os := { s.os.nextCount s.deadtime with p := s.os.p + 1 } } := by
    rw [← htb, ← advanceCounters_os]
    rfl
  have hpos : s.advanceCounters.pos ≠ 0 := by
    rw [hadv]
    exact Nat.ne_of_gt (Nat.lt_of_lt_of_le (Nat.succ_pos s.tb.b) (Nat.le_add_left ..))
  have hagrees : s.advanceCounters.Agreeing := ha
  obtain ⟨fu, hfu, htrip⟩ := sampleInputs_of_agreeing hagrees
  refine ⟨fu, htrip, ?_⟩
  rw [tickCount, driveCount_idle hd, countEvents_of_pos hpos, cycleAndSamples_of_inside (by rw [hadv]; exact hp)
    (by rw [hadv]; exact hh), hfu, hadv]
  exact markAtCount_of_high hm hd hl hr

end State

open State in
/-- Settles O50, by the equations of each part of the clock. -/
theorem stationClock : Obligations.StationClock := by
  unfold Obligations.StationClock
  refine ⟨fun s => ⟨fun h => ?reset, fun h hs => ?setup, fun h hs => ⟨?runs, fun hset => ?settled⟩,
      fun h => if_pos h, fun h => if_neg (by omega), rfl⟩,
    fun s t ht hd hb hp hh hm hl hr ha => ?quiet, fun s t ht => ?advance,
    fun s => ⟨fun hper h => countEvents_of_pos ?pos, fun hb hk => ⟨?boundary, fun hs => exec_naturalBoundary_at hs hb hk⟩⟩,
    fun s => ⟨fun hp hh => ?inside, fun h => ?due, fun hp hh hs => ?half, fun hp hc => ⟨?start, fun hs => ?startRow⟩,
      fun hp hc => ⟨?both, fun hs => ?bothRow⟩, someClears_iff⟩,
    fun s => ⟨rfl, rfl, rfl, rfl⟩,
    fun i asserted s has => ⟨evaluates_iff, sampleInput_of_not_evaluated, fun he => ?samples⟩,
    fun i f s => ⟨inputRecord_modInput_same .., fun j hj => inputRecord_modInput_ne _ _ hj, rfl, by simp, by simp⟩,
    fun s => ⟨rfl, sbmLow_iff, fun low => ⟨sampleDrive_idle low, sampleDrive_driving low⟩, driveCount_ends,
      driveCount_goes_on⟩,
    fun low s => ?filter, fun s u hu => ?port,
    fun s => ⟨evaluatePort_of_none, fun x => evaluatePort_rests, fun x code args => evaluatePort_runs⟩,
    fun x code args => completeCommand_iff,
    fun s => ⟨portSelect_falls, portSelect_rests, fun hw hp => ⟨portSelect_of_none hw hp, fun x => portSelect_rises hw hp⟩,
      portClock_rests, fun x hp hx => ⟨portClock_rises hp hx, portClock_falls hp hx⟩⟩⟩
  case reset =>
    rw [exec_deviceReset, tick, h]
    rfl
  case setup => rw [tick, h, if_neg (by simp), if_pos hs]
  case runs => rw [tick, h, if_neg (by simp), if_neg hs]
  case settled => rw [tick, h, if_neg (by simp), if_neg hs, settle_of_settled hset]
  case quiet =>
    obtain ⟨fu, htrip, heq⟩ := tickCount_quiet hd hb hp hh hm hl hr ha
    subst ht
    rw [heq]
    exact ⟨rfl, rfl, rfl, rfl, rfl, rfl, htrip⟩
  case advance =>
    subst ht
    refine ⟨fun h => ?_, fun h hk => ?_, fun h hk => ?_, rfl, rfl⟩
    · rw [advanceCounters_tb, if_neg (by omega), if_neg (by omega)]
    · rw [advanceCounters_tb, if_pos h, if_pos h, if_neg (by omega)]
    · rw [advanceCounters_tb, if_pos h, if_pos h, if_pos hk]
  case pos =>
    rw [ne_eq, pos_eq_zero_iff hper]
    omega
  case boundary =>
    rw [countEvents_at_boundary hb hk]
    exact bothTaken_eitherOrder ..
  case inside =>
    refine cycleAndSamples_of_not_due (Bool.eq_false_iff.mpr fun h => ?_)
    exact (pointDue_iff.mp h).elim (fun h => by omega) hh
  case due =>
    rw [cycleAndSamples_of_due (pointDue_iff.mpr h)]
    exact bothTaken_eitherOrder ..
  case half => rw [cycleAtCount_half hp hh, exec_halfCyclePoint, State.halfCyclePoint, if_neg hs]
  case start => rw [cycleAtCount_starts hp, startWithPoint_of_no_clears hc]
  case startRow =>
    rw [exec_localCycleStart, State.localCycleStart, if_neg hs]
    rfl
  case both =>
    rw [cycleAtCount_starts hp]
    exact startWithPoint_of_clears hc true
  case bothRow => rw [exec_halfCyclePoint, State.halfCyclePoint, if_neg hs]
  case samples =>
    subst has
    obtain ⟨hs, hc⟩ := evaluates_iff.mp he
    refine ⟨sampleInput_agrees he, fun ha hf => ?_, fun hon ha hf => ?_, fun hoff ha hf => ?_⟩
    · rw [sampleInput_disagrees he ha, if_neg (by omega)]
    · rw [sampleInput_disagrees he (by simp [hon, ha]), if_pos hf, if_pos hon, exec_faultActivation,
        faultActivation_of_inactive he ha]
    · rw [sampleInput_disagrees he (by simp [hoff, ha]), if_pos hf, if_neg (by simp [hoff]), exec_faultRelease,
        State.faultRelease, if_pos (by simp [he, ha])]
  case filter =>
    obtain ⟨hsame, hcounts, hfalls, hrises⟩ := edgeFiltered_cases low s
    refine ⟨s.edgeFiltered low, s.lowRunCounted low, hsame, hcounts, hfalls, hrises, fun h => ?_, fun hl hw => ?_,
      filterMark_rests low, fun h hs => ?_⟩
    · rw [lowRunCounted, show (low && s.tb.levelLow) = false by obtain h | h := h <;> simp [h], doIf_false]
    · rw [lowRunCounted, hl, hw]
      rfl
    · rw [filterMark_enters low h hs]
      exact exec_holdoverEntry _
  case port =>
    subst hu
    rfl

end Sys2Proof.Machine
end

section
/-! The acceptance of a frame (R5, R17 to R19, R54, R57, R61, R64): the state in which its block takes it, for another's frame
and for the own one, and the frames that no block takes. -/

namespace Sys2Proof.Machine

variable {s t u : State} {i : StationId} {c : Instr} {handle : State → State}

namespace State

/-! ### An acceptance that ends no attempt -/

/-- Another station's frame accepted: the receive context ends, the reject count is 0, and LISTEN has heard the bus (R5, R18,
R54, R64). -/
def heard (s : State) : State := s.afterFrame.noteAcceptance

theorem heard_of_ne (h : s.sc.station ≠ .listen) : s.heard = s.afterFrame := noteAcceptance_of_ne h

theorem heard_of_listen (h : s.sc.station = .listen) :
    s.heard = { s.afterFrame with sc := { s.sc with quiet := 0, frameSinceListen := true } } := by
  rw [heard, noteAcceptance, show decide (s.afterFrame.sc.station = .listen) = true from decide_eq_true h]
  rfl

@[simp] theorem heard_kept (s : State) : s.heard.bi = { s.bi with rx := none, rejectCount := 0 } ∧ s.heard.tb = s.tb
    ∧ s.heard.rt = s.rt ∧ s.heard.cq = s.cq ∧ s.heard.pu = s.pu ∧ s.heard.os = s.os ∧ s.heard.fu = s.fu
    ∧ s.heard.sp = s.sp ∧ s.heard.sc.station = s.sc.station ∧ s.heard.sc.leavePending = s.sc.leavePending
    ∧ s.heard.sc.tracked = s.sc.tracked ∧ s.heard.sc.standing = s.sc.standing
    ∧ s.heard.sc.joinHoldoff = s.sc.joinHoldoff ∧ s.heard.sc.withdrawOwed = s.sc.withdrawOwed := by
  by_cases h : s.sc.station = .listen
  · rw [heard_of_listen h]
    exact ⟨rfl, rfl, rfl, rfl, rfl, rfl, rfl, rfl, h.symm ▸ h, rfl, rfl, rfl, rfl, rfl⟩
  · rw [heard_of_ne h]
    exact ⟨rfl, rfl, rfl, rfl, rfl, rfl, rfl, rfl, rfl, rfl, rfl, rfl, rfl, rfl⟩

theorem basis_heard (s : State) : SameBasis s s.heard := 
  basis_noteAcceptance (basis_modBi (g := fun bi => { bi with rx := none, rejectCount := 0 }) .rfl')

theorem settle_heard (h : s.Settled) : s.heard.settle = s.heard := settle_of_settled (h.congr (basis_heard s))

theorem isOwnFrame_of_notSending (h : s.NotSending) (i : StationId) (c : Instr) : s.isOwnFrame i c = false := by
  obtain ⟨ha, hrx⟩ := h
  have hsent : s.bi.rx.elim false (·.sent) = false := by
    cases hx : s.bi.rx with
    | none => rfl
    | some rx => exact hrx rx hx
  simp [isOwnFrame, ha, hsent]

theorem seeAcceptance_of_notSending (h : s.NotSending) : s.seeAcceptance false = s.heard := by
  rw [seeAcceptance_other]
  exact loseAttempt_of_none (s := s.heard) (by simpa using h.1)

/-- A station whose block takes a frame. -/
def Takes (s : State) : Prop := s.isMember = true ∨ s.isFollower = true

theorem Takes.follows (h : s.Takes) : s.followsFrames = true := followsFrames_of_transmits h

theorem Takes.not_dormant (h : s.Takes) : s.sc.station ≠ .dormant := by
  intro hd
  obtain h | h := h
  · simp [isMember, hd] at h
  · simp [isFollower, hd] at h

theorem takes_of_member (h : s.isMember = true) : s.Takes := .inl h

theorem takes_of_follower (h : s.isFollower = true) : s.Takes := .inr h

/-- Another's frame is taken by its block (R54). -/
theorem acceptFrame_other (ht : s.Takes) (hn : s.NotSending) (hi : i ≠ s.ownId ∨ s.isMember = true ∨ s.sc.station = .resync)
    (c : Instr) (handle : State → State) : s.acceptFrame i c handle = (handle s.heard).settle := by
  have hclash : (decide (i = s.ownId) && !false && (decide (s.sc.station = .listen) || decide (s.sc.station = .joining)))
      = false := by
    obtain h | h | h := hi
    · simp [h]
    · obtain h | h := isMember_iff.mp h <;> simp [h]
    · simp [h]
  have hdormant : s.heard.sc.station ≠ .dormant := by simpa using ht.not_dormant
  simp only [acceptFrame, ht.follows, isOwnFrame_of_notSending hn, seeAcceptance_of_notSending hn, hclash]
  rw [if_neg (by simp), if_neg (by simp), if_neg hdormant]

/-- A frame of the own ID that was not sent here halts a station that has not entered the group (R19). -/
theorem acceptFrame_clash (hs : s.sc.station = .listen ∨ s.sc.station = .joining) (hn : s.NotSending) (hi : i = s.ownId)
    (c : Instr) (handle : State → State) :
    s.acceptFrame i c handle = (s.heard.enterHalted .idConflict).settle := by
  have ht : s.Takes := .inr (by obtain h | h := hs <;> simp [isFollower, h])
  have hclash : (decide (i = s.ownId) && !false && (decide (s.sc.station = .listen) || decide (s.sc.station = .joining)))
      = true := by obtain h | h := hs <;> simp [hi, h]
  simp only [acceptFrame, ht.follows, isOwnFrame_of_notSending hn, seeAcceptance_of_notSending hn, hclash]
  rw [if_neg (by simp), if_pos trivial]

/-- DORMANT hands no frame on (R17). -/
theorem acceptFrame_dormant (hs : s.sc.station = .dormant) (hn : s.NotSending) (i : StationId) (c : Instr)
    (handle : State → State) : s.acceptFrame i c handle = s.afterFrame.settle := by
  have hf : s.followsFrames = true := by simp [followsFrames, hs]
  have hheard : s.heard = s.afterFrame := heard_of_ne (by simp [hs])
  simp only [acceptFrame, hf, isOwnFrame_of_notSending hn, seeAcceptance_of_notSending hn, hheard, hs]
  simp [afterFrame, hs]

/-! ### The own frame accepted (R57, R61, R63) -/

/-- The own frame accepted: it leaves the queue or the TRIP slot. -/
def sent (s : State) : State := s.heard.ownAccepted

@[simp] theorem sent_kept (s : State) : s.sent.sc = s.heard.sc ∧ s.sent.tb = s.tb ∧ s.sent.rt = s.rt ∧ s.sent.cq = s.cq
    ∧ s.sent.pu = s.pu ∧ s.sent.os = s.os ∧ s.sent.sp = s.sp ∧ s.sent.fu.flt0 = s.fu.flt0 ∧ s.sent.fu.flt1 = s.fu.flt1
    ∧ s.sent.fu.flt2 = s.fu.flt2 ∧ s.sent.fu.tripSet = s.fu.tripSet ∧ s.sent.fu.lastTrip = s.fu.lastTrip := by
  cases h : s.bi.attempt.elim false (·.beatReplaced) <;> simp [sent, ownAccepted, h]

/-- What an own acceptance writes beside the Bus Interface. -/
theorem sent_eq (s : State) : s.sent = { s with bi := s.sent.bi, sc := s.heard.sc, fu := s.sent.fu } := by
  have hheard : s.heard = { s with bi := s.heard.bi, sc := s.heard.sc } := by
    by_cases h : s.sc.station = .listen
    · rw [heard_of_listen h]
      rfl
    · rw [heard_of_ne h]
      rfl
  cases h : s.heard.bi.attempt.elim false (·.beatReplaced) with
  | false =>
    simp only [sent, ownAccepted, h]
    rw [hheard]
    rfl
  | true =>
    simp only [sent, ownAccepted, h]
    rw [hheard]
    rfl

theorem sent_bi (s : State) : s.sent.bi = s.busAfterOwn := by
  cases h : s.bi.attempt.elim false (·.beatReplaced) with
  | false => simp [sent, ownAccepted, h, busAfterOwn]
  | true =>
    have hslot (o : Option SlotTrip) : (o.map fun y => { y with inFlight := false }).filter (fun y => !y.inFlight)
        = o.map fun y => { y with inFlight := false } := by cases o <;> simp
    simp [sent, ownAccepted, h, busAfterOwn, hslot]

theorem basis_sent (s : State) : SameBasis s s.sent := by
  have hnone : SameBasis s s.heard := basis_heard s
  unfold sent ownAccepted
  exact basis_modBi (by split; exact basis_landAttempt hnone; exact basis_setQueue hnone)

theorem settle_sent (h : s.Settled) : s.sent.settle = s.sent := settle_of_settled (h.congr (basis_sent s))

theorem isOwnFrame_of_inFlight (h : s.InFlight i c) : s.isOwnFrame i c = true := by
  obtain ⟨hi, a, ha, hk⟩ := h
  simp [isOwnFrame, hi, ha, hk]

/-- The own frame is taken by its block. -/
theorem acceptFrame_own (ht : s.Takes) (h : s.InFlight i c) (handle : State → State) :
    s.acceptFrame i c handle = (handle s.sent).settle := by
  have hdormant : s.sent.sc.station ≠ .dormant := by simpa using ht.not_dormant
  have hsee : s.seeAcceptance true = s.sent := rfl
  simp only [acceptFrame, ht.follows, isOwnFrame_of_inFlight h, hsee]
  rw [if_neg (by simp), if_neg (by simp), if_neg hdormant]

/-! ### Frames that no block takes (R190, R191) -/

theorem handleBeat_of_range {f : BeatFields} (h : beatInRange f = false) : s.handleBeat i f = s := by
  simp [handleBeat, h]

theorem beatInRange_iff {f : BeatFields} : beatInRange f = true
    ↔ f.depth.toNat ≤ 8 ∧ f.lowestActive.toNat ≤ 16 ∧ f.activeCount.toNat ≤ 16 := by
  simp [beatInRange, and_assoc]

/-- A command by which a frame is accepted. -/
def IsAcceptance (i : StationId) (c : Instr) : Prop := (∃ f, c = .beatAccepted i f) ∨ (∃ p, c = .proposeAccepted i p)
  ∨ (∃ o, c = .objectAccepted i o) ∨ (∃ f, c = .tripAccepted i f) ∨ c = .rosterQueryAccepted i
  ∨ (∃ r, c = .rosterReplyAccepted i r) ∨ ∃ h, c = .unownedFrameAccepted i h

theorem exec_of_isAcceptance (h : IsAcceptance i c) : ∃ handle : State → State, ∀ s, exec c s = .next (s.acceptFrame i c handle) := by
  obtain ⟨f, rfl⟩ | ⟨p, rfl⟩ | ⟨o, rfl⟩ | ⟨f, rfl⟩ | rfl | ⟨r, rfl⟩ | ⟨h, rfl⟩ := h
  all_goals exact ⟨_, fun _ => rfl⟩

end State

open State in
/-- Settles O49. -/
theorem framesHandedToNoBlock : Obligations.FramesHandedToNoBlock := by
  unfold Obligations.FramesHandedToNoBlock
  refine ⟨fun i c s hn hset h => ?_, fun i c s hn h => ⟨fun hs hi => ?_, fun hs => ?_⟩⟩
  · have hexec (ht : s.Takes) (hi : i ≠ s.ownId ∨ s.isMember = true ∨ s.sc.station = .resync) :
        exec c s = .next s.heard := by
      obtain ⟨h, rfl⟩ | ⟨f, rfl, hf⟩ := h
      · rw [exec_unownedFrameAccepted, acceptFrame_other ht hn hi, id, settle_heard hset]
      · have hrange : beatInRange f = false := by
          rw [Bool.eq_false_iff, ne_eq, beatInRange_iff]
          omega
        rw [exec_beatAccepted, acceptFrame_other ht hn hi, handleBeat_of_range hrange, settle_heard hset]
    refine ⟨fun hs => ?_, fun hs hi => ?_⟩
    · have hne : s.sc.station ≠ .listen := by
        obtain h | h | ⟨h, -⟩ := hs
        · obtain h | h := isMember_iff.mp h <;> simp [h]
        · simp [h]
        · simp [h]
      rw [← heard_of_ne hne]
      obtain h | h | ⟨h, hi⟩ := hs
      · exact hexec (.inl h) (.inr (.inl h))
      · exact hexec (.inr (by simp [isFollower, h])) (.inr (.inr h))
      · exact hexec (.inr (by simp [isFollower, h])) (.inl hi)
    · rw [hexec (.inr (by simp [isFollower, hs])) (.inl hi), heard_of_listen hs]
  · obtain ⟨handle, hexec⟩ := exec_of_isAcceptance h
    have hstation : s.sc.station = .listen ∨ s.sc.station = .joining := by simpa using hs
    refine ⟨_, (hexec s).trans (congrArg _ (acceptFrame_clash hstation hn hi c handle)), ?_⟩
    rw [settle_of_settled (settled_enterHalted _)]
    refine ⟨by simp, by simp, ?_, fun hg => outputsOff_enterHalted _ (by simpa using hg), by simp, hasEvent_enterHalted ..⟩
    constructor <;> simp
  · obtain ⟨handle, hexec⟩ := exec_of_isAcceptance h
    refine ⟨_, (hexec s).trans (congrArg _ (acceptFrame_dormant hs hn i c handle)), by simp [afterFrame], ?_,
      by simp [afterFrame], by simp⟩
    constructor <;> simp [afterFrame]

end Sys2Proof.Machine
end

section
/-! A BEAT at a member: that of a station of the roster, and the stranger rule (R15, R66, R72, R78, R79). -/

namespace Sys2Proof.Machine

variable {s t u : State} {i j : StationId} {c : Instr} {f : BeatFields}

namespace State

/-! ### What the target and the output mode read of the roster (R123, R136) -/

/-- The target and the output mode read the state and the kind of each entry alone. -/
theorem stationsWhere_congr {old new : List RosterEntry} {test : RosterEntry → Bool}
    (h : ∀ i : StationId, test (new.getD i.val .absentEntry) = test (old.getD i.val .absentEntry)) :
    stationsWhere new test = stationsWhere old test := by
  simp only [stationsWhere, h]

theorem slotOf_congr {old new : List RosterEntry}
    (h : ∀ i : StationId, (new.getD i.val .absentEntry).holdsSlot = (old.getD i.val .absentEntry).holdsSlot) (i : StationId) :
    slotOf new i = slotOf old i := by
  simp only [slotOf, stationsWhere_congr h, h]

theorem phaseCount_congr {old new : List RosterEntry}
    (h : ∀ i : StationId, (new.getD i.val .absentEntry).holdsSlot = (old.getD i.val .absentEntry).holdsSlot) :
    phaseCount new = phaseCount old := by
  simp only [phaseCount, stationsWhere_congr h]

/-- A change of the roster that leaves every state and kind leaves a settled state settled. -/
theorem Settled.of_standings {entries : List RosterEntry} (h : s.Settled)
    (hs : ∀ i : StationId, (entries.getD i.val .absentEntry).state = (s.entry i).state
      ∧ (entries.getD i.val .absentEntry).kind = (s.entry i).kind) :
    (s.modRt fun rt => { rt with entries := entries }).Settled := by
  have hslot (i : StationId) : (entries.getD i.val .absentEntry).holdsSlot
      = (s.rt.entries.getD i.val .absentEntry).holdsSlot := by
    obtain ⟨hst, hk⟩ := hs i
    simp only [RosterEntry.holdsSlot, hst, hk]
    rfl
  have htarget : (s.modRt fun rt => { rt with entries := entries }).targetNow = s.targetNow := by
    simp only [targetNow, modRt, slotOf_congr hslot, phaseCount_congr hslot]
    rfl
  have hmode : (s.modRt fun rt => { rt with entries := entries }).chosenMode = s.chosenMode := by
    have hown : (s.modRt fun rt => { rt with entries := entries }).ownEntry.state = s.ownEntry.state := (hs s.ownId).1
    simp only [chosenMode, hown]
    rfl
  rw [Settled, hmode, htarget]
  exact h

/-! ### A BEAT recorded (R66, R72) -/

theorem recordBeat_eq (i : StationId) (f : BeatFields) (s : State) : s.recordBeat i f = s.modRt fun rt => { rt with
    entries := s.rt.entries.set i.val { s.entry i with heard := true, lastBeat := some (recordOfBeat f) } } := rfl

theorem entry_recordBeat_self (f : BeatFields) (h : s.rt.entries.length = 16) : (s.recordBeat i f).entry i
    = { s.entry i with heard := true, lastBeat := some (recordOfBeat f) } := by
  simp [recordBeat_eq, entry, h]

theorem entry_recordBeat_ne (f : BeatFields) (h : j ≠ i) : (s.recordBeat i f).entry j = s.entry j := by
  have hval : i.val ≠ j.val := fun hv => h (Fin.ext hv.symm)
  simp [recordBeat_eq, entry, List.getElem?_set_ne hval]

theorem settled_recordBeat (f : BeatFields) (h : s.Settled) (hl : s.rt.entries.length = 16) :
    (s.recordBeat i f).Settled := by
  rw [recordBeat_eq]
  refine h.of_standings fun j => ?_
  change ((s.recordBeat i f).entry j).state = _ ∧ ((s.recordBeat i f).entry j).kind = _
  by_cases hj : j = i
  · subst hj
    rw [entry_recordBeat_self f hl]
    exact ⟨rfl, rfl⟩
  · rw [entry_recordBeat_ne f hj]
    exact ⟨rfl, rfl⟩

theorem isPresent_eq_true (h : (s.entry i).state ≠ .absent) : (s.entry i).isPresent = true := by
  simp [RosterEntry.isPresent, h]

theorem isPresent_eq_false (h : (s.entry i).state = .absent) : (s.entry i).isPresent = false := by
  simp [RosterEntry.isPresent, h]

/-- Where no group is followed by the BEAT: in a member, or by a BEAT of a station in RESYNC at one. -/
theorem beat_unfollowed (h : s.isMember = true ∨ (s.sc.station = .resync ∧ f.resync = true)) :
    s.adoptEpoch f = s ∧ s.hearGroup f = s ∧ s.noteGroup f = s ∧ s.compareBeat f = s := by
  obtain h | ⟨hs, hf⟩ := h
  · have hnot := not_follower_of_member h
    have hstation : s.sc.station ≠ .listen ∧ s.sc.station ≠ .resync := by
      obtain h | h := isMember_iff.mp h <;> simp [h]
    simp [adoptEpoch, hearGroup, noteGroup, compareBeat, hnot, hstation]
  · simp [adoptEpoch, hearGroup, noteGroup, compareBeat, hf]

theorem handleBeat_present (h : s.isMember = true ∨ (s.sc.station = .resync ∧ f.resync = true))
    (hr : beatInRange f = true) (hp : (s.entry i).state ≠ .absent) : s.handleBeat i f = s.recordBeat i f := by
  obtain ⟨hadopt, hhear, hnote, -⟩ := beat_unfollowed h
  have hcompare : (s.recordBeat i f).compareBeat f = s.recordBeat i f := (beat_unfollowed (s := s.recordBeat i f) h).2.2.2
  simp only [handleBeat, hr, hadopt, hhear, hnote, isPresent_eq_true hp, hcompare]
  rfl

theorem handleBeat_stranger (h : s.isMember = true) (hr : beatInRange f = true) (hp : (s.entry i).state = .absent) :
    s.handleBeat i f = s.strangerRule i f := by
  obtain ⟨hadopt, hhear, hnote, -⟩ := beat_unfollowed (f := f) (.inl h)
  simp only [handleBeat, hr, hadopt, hhear, hnote, isPresent_eq_false hp]
  rfl

theorem recordOfBeat_eq (f : BeatFields) : recordOfBeat f = ⟨f.en, f.resync, f.digest, f.depth.toNat, f.localLatched,
    f.shedLatched, f.tripLatched, f.tripHeld, f.lead⟩ := rfl

theorem heard_of_member (h : s.isMember = true) : s.heard = s.afterFrame :=
  heard_of_ne (by obtain h | h := isMember_iff.mp h <;> simp [h])

end State

open State in
/-- Settles O40. -/
theorem beatFromThePeer : Obligations.BeatFromThePeer := by
  unfold Obligations.BeatFromThePeer
  refine ⟨fun i f s hm hn hset h1 h2 h3 hp hl => ?_, fun i f s hfl hset hs h1 h2 h3 hp hl => ?_,
    fun a s ha => ⟨rfl, rfl, rfl, rfl, rfl, fun hr => ?_, fun hr => ?_⟩⟩
  · have hrange := beatInRange_iff.mpr ⟨h1, h2, h3⟩
    have hsettled : s.afterFrame.Settled := hset
    have heq : exec (.beatAccepted i f) s = .next (s.afterFrame.recordBeat i f) := by
      rw [exec_beatAccepted, acceptFrame_other (takes_of_member hm) hn (.inr (.inl hm)), heard_of_member hm,
        handleBeat_present (s := s.afterFrame) (.inl hm) hrange hp, settle_of_settled (settled_recordBeat f hsettled hl)]
    exact ⟨_, heq, entry_recordBeat_self (s := s.afterFrame) f hl, fun j hj => entry_recordBeat_ne (s := s.afterFrame) f hj,
      rfl⟩
  · have hrange := beatInRange_iff.mpr ⟨h1, h2, h3⟩
    have hne : s.sc.station ≠ .listen := by
      obtain h | ⟨h, -⟩ := hs
      · obtain h | h := isMember_iff.mp h <;> simp [h]
      · simp [h]
    have hsc : s.sent.sc = s.sc := by rw [(sent_kept s).1, heard_of_ne hne]; rfl
    have hrt : s.sent.rt = s.rt := (sent_kept s).2.2.1
    have hentry (k : StationId) : s.sent.entry k = s.entry k := entry_congr (by rw [hrt]) k
    have hsettled : s.sent.Settled := hset.congr (basis_sent s)
    have hts : s.Takes := hs.elim .inl fun h => .inr (by simp [isFollower, h.1])
    have heq : exec (.beatAccepted i f) s = .next (s.sent.recordBeat i f) := by
      rw [exec_beatAccepted, acceptFrame_own hts hfl,
        handleBeat_present (s := s.sent) (by rwa [isMember_congr (congrArg _ hsc), hsc]) hrange (by rwa [hentry]),
        settle_of_settled (settled_recordBeat f hsettled (by rwa [hrt]))]
    refine ⟨_, heq, sent_bi s, (entry_recordBeat_self f (by rwa [hrt])).trans (by rw [hentry]; rfl),
      fun j hj => (entry_recordBeat_ne f hj).trans (hentry j), ?_, ?_, ?_, fun n => ?_⟩
    · rw [recordBeat_eq, sent_eq, heard_of_ne hne]
      rfl
    · simp [recordBeat_eq]
    · simp [recordBeat_eq]
    · cases n <;> simp [recordBeat_eq, inputRecord]
  · constructor
    · simp [busAfterOwn, ha, hr]
    · intro y hy
      cases hf : y.inFlight <;> simp [busAfterOwn, ha, hr, hy, hf]
  · simp [busAfterOwn, ha, hr]

namespace State

/-! ### The stranger rule (R78, R79) -/

theorem strangerRanksFirst_iff : s.strangerRanksFirst f = true ↔ f.lowestActive.toNat < lowestActive s.rt.entries
    ∨ (f.lowestActive.toNat = lowestActive s.rt.entries ∧ activeCount s.rt.entries < f.activeCount.toNat)
    ∨ (f.lowestActive.toNat = lowestActive s.rt.entries ∧ f.activeCount.toNat = activeCount s.rt.entries
        ∧ f.digest < s.rt.epochDigest) := by
  simp [strangerRanksFirst, or_assoc, and_assoc]

theorem strangerRule_yields (hm : s.isMember = true) (hf : f.resync = false) (ha : s.admitPending i = false)
    (h : s.strangerRanksFirst f = true) : s.strangerRule i f = s.enterResync (some f.lowestActive.toNat) := by
  have hcond : (s.isMember && !f.resync && !s.admitPending i && s.strangerRanksFirst f) = true := by simp [hm, hf, ha, h]
  rw [strangerRule, hcond, doIf_true]

theorem strangerRule_stays (h : f.resync = true ∨ s.admitPending i = true ∨ s.strangerRanksFirst f = false) :
    s.strangerRule i f = s := by
  have hcond : (s.isMember && !f.resync && !s.admitPending i && s.strangerRanksFirst f) = false := by
    obtain h | h | h := h <;> simp [h]
  rw [strangerRule, hcond, doIf_false]

theorem hasEvent_ticket_enterResync (key : Option Nat) (h : ∃ x ∈ s.sp.tickets, x.unfinished = true) :
    (s.enterResync key).hasEvent .ticket = true := by
  have hsteady : Steady true (s.voidTickets .resync) (s.enterResync key) :=
    steady_settle (steady_clearBlanking (steady_modTb (steady_modSc (steady_modRt (steady_modBi (steady_dropBodies
      (steady_moveTo (steady_emptyQueue Steady.rfl') (by decide))) id) id) id) fun _ => ⟨rfl, rfl, rfl, rfl⟩))
  exact hsteady.hasEvent (hasEvent_voidTickets h)

end State

open State in
/-- Settles O41. -/
theorem strangerRule_spec : Obligations.StrangerRule := by
  unfold Obligations.StrangerRule
  refine ⟨fun i f s hm hn hr hf hp ha h => ?_, fun i f s hm hn hset hr hp h => ?_⟩
  · have heq : exec (.beatAccepted i f) s = .next (s.afterFrame.enterResync (some f.lowestActive.toNat)) := by
      rw [exec_beatAccepted, acceptFrame_other (takes_of_member hm) hn (.inr (.inl hm)), heard_of_member hm,
        handleBeat_stranger (s := s.afterFrame) hm hr hp,
        strangerRule_yields (s := s.afterFrame) hm hf ha (strangerRanksFirst_iff.mpr h),
        settle_of_settled (s := s.afterFrame.enterResync _) (settle_settled _)]
    have hkept := enterResync_kept (some f.lowestActive.toNat) s.afterFrame
    have hoff (hg : s.os.GatesOk) := outputsOff_enterResync (s := s.afterFrame) (some f.lowestActive.toNat) hg
    have hevent (hx : ∃ x ∈ s.sp.tickets, x.unfinished = true) :=
      hasEvent_ticket_enterResync (s := s.afterFrame) (some f.lowestActive.toNat) hx
    generalize s.afterFrame.enterResync (some f.lowestActive.toNat) = t at *
    obtain ⟨hsc, htb, hrt, hcq, -, htrip, -, htickets⟩ := hkept
    refine ⟨t, heq, by rw [hsc], by rw [hrt], by rw [hrt], by rw [hrt], by rw [hrt]; rfl, by rw [hcq], by rw [hcq]; rfl, htrip,
      hoff, by rw [hsc], by rw [hsc], by rw [hsc], by rw [hsc], ?_, by rw [htb]; rfl, htickets, hevent⟩
    constructor <;> rw [htb] <;> rfl
  · rw [exec_beatAccepted, acceptFrame_other (takes_of_member hm) hn (.inr (.inl hm)), heard_of_member hm,
      handleBeat_stranger (s := s.afterFrame) hm hr hp, strangerRule_stays (s := s.afterFrame) h, settle_of_settled (s := s.afterFrame) hset]

end Sys2Proof.Machine
end

section
/-! ROSTER_QUERY and ROSTER_REPLY at a member, the replies owed at a boundary, and a station's own queries (R57, R59, R61,
R65, R81, R82). -/

namespace Sys2Proof.Machine

variable {s t u : State} {i j : StationId} {r : ReplyFields}

namespace State

/-! ### Frames dropped where none is in flight -/

/-- Where no attempt and no frame goes on, only the queue changes. -/
theorem dropBodies_bi_of_idle {test : QueuedBody → Bool} (ha : s.bi.attempt = none) (hrx : s.bi.rx = none) :
    (s.dropBodies test).bi = { s.bi with queue := s.bi.queue.filter fun y => !test y.body } := by
  cases h : s.bi.queue.any fun x => test x.body && x.inFlight <;>
    simp [dropBodies, dropFrames, h, BusInterface.dropAttempt, ha, hrx]

theorem dropBodies_eq (test : QueuedBody → Bool) (s : State) :
    s.dropBodies test = { s with bi := (s.dropBodies test).bi, fu := (s.dropBodies test).fu } := by
  unfold dropBodies dropFrames
  cases s.bi.queue.any fun x => test x.body && x.inFlight <;> rfl

/-! ### The acceptance of a query (R82) -/

theorem handleQuery_rests (h : i = s.ownId ∨ s.hasQueued (·.repliesTo i) = true) : s.handleQuery i = s := by
  obtain h | h := h <;> simp [handleQuery, h]

theorem handleQuery_offers (hm : s.isMember = true) (hi : i ≠ s.ownId) (h : s.hasQueued (·.repliesTo i) = false)
    (hq : s.bi.queue.length < 6) : s.handleQuery i = s.offered (.reply i) := by
  simp [handleQuery, hm, hi, h, offer_of_room _ hq]

theorem handleQuery_pends (hm : s.isMember = true) (hi : i ≠ s.ownId) (h : s.hasQueued (·.repliesTo i) = false)
    (hq : 6 ≤ s.bi.queue.length) : s.handleQuery i
      = s.modRt fun rt => { rt with pendingReplies := rt.pendingReplies ||| stationBit i } := by
  simp [handleQuery, hm, hi, h, offer_of_full _ hq]

theorem basis_offered (body : QueuedBody) (s : State) : SameBasis s (s.offered body) := basis_setQueue .rfl'

/-! ### The acceptance of a reply at a member (R59, R82) -/

/-- The replies to an asker withdrawn, and the asker no longer pending. -/
def replied (asker : StationId) (s : State) : State :=
  (s.dropBodies (·.repliesTo asker)).modRt fun rt => { rt with pendingReplies := rt.pendingReplies &&& ~~~stationBit asker }

theorem handleReply_eq (r : ReplyFields) (s : State) : s.handleReply r =
    match entriesOfCode r.roster r.en with
    | some entries =>
      if (s.replied (stationOfNibble r.asker)).qualifies r entries then
        (s.replied (stationOfNibble r.asker)).adoptReply r entries
      else s.replied (stationOfNibble r.asker)
    | none => s.replied (stationOfNibble r.asker) := rfl

theorem handleReply_unqualified
    (h : ∀ es, entriesOfCode r.roster r.en = some es → (s.replied (stationOfNibble r.asker)).qualifies r es = false) :
    s.handleReply r = s.replied (stationOfNibble r.asker) := by
  rw [handleReply_eq]
  split
  next es hes => exact if_neg (by simp [h es hes])
  next => rfl

theorem asksForRoster_of_member (hm : s.isMember = true) : s.asksForRoster = false := by
  obtain h | h := isMember_iff.mp hm <;> simp [asksForRoster, h]

theorem basis_replied (asker : StationId) (s : State) : SameBasis s (s.replied asker) :=
  basis_modRt (basis_dropBodies .rfl') rfl

theorem handleReply_of_member (hm : s.isMember = true) : s.handleReply r = s.replied (stationOfNibble r.asker) := by
  refine handleReply_unqualified fun es _ => ?_
  have hasks : (s.replied (stationOfNibble r.asker)).asksForRoster = false :=
    asksForRoster_of_member ((basis_replied _ s).isMember.trans hm)
  simp [qualifies, hasks]

theorem replied_rt (asker : StationId) (s : State) :
    (s.replied asker).rt = { s.rt with pendingReplies := s.rt.pendingReplies &&& ~~~stationBit asker } := by
  simp [replied]

theorem getLsbD_replied (asker j : StationId) (s : State) : (s.replied asker).rt.pendingReplies.getLsbD j.val
    = (s.rt.pendingReplies.getLsbD j.val && decide (j ≠ asker)) := by
  simp only [replied_rt, BitVec.getLsbD_and, BitVec.getLsbD_not, getLsbD_stationBit]
  simp

theorem replied_eq (asker : StationId) (s : State) : s.replied asker
    = { s with bi := (s.replied asker).bi, rt := (s.replied asker).rt, fu := (s.replied asker).fu } := by
  have hu := dropBodies_eq (·.repliesTo asker) s
  have hrt : (s.dropBodies (·.repliesTo asker)).rt = s.rt := by simp
  unfold replied
  generalize s.dropBodies (·.repliesTo asker) = u at hu hrt
  simp only [modRt, hrt]
  exact congrArg (fun x : State => { x with
    rt := { s.rt with pendingReplies := s.rt.pendingReplies &&& ~~~stationBit asker } }) hu

theorem replied_bi_of_idle (asker : StationId) (ha : s.bi.attempt = none) (hrx : s.bi.rx = none) :
    (s.replied asker).bi = { s.bi with queue := s.bi.queue.filter fun y => !y.body.repliesTo asker } :=
  dropBodies_bi_of_idle ha hrx

theorem sameShared_replied (asker : StationId) (s : State) : (s.replied asker).SameShared s := by
  constructor <;> simp [replied]

/-! ### A reply owed at a boundary (R82) -/

/-- The asker no longer pends. -/
def replyPaid (i : StationId) (s : State) : State :=
  s.modRt fun rt => { rt with pendingReplies := rt.pendingReplies &&& ~~~stationBit i }

theorem offerReply_rests (h : s.isMember = false ∨ s.rt.pendingReplies.getLsbD i.val = false) : s.offerReply i = s := by
  rw [offerReply, if_neg]
  obtain h | h := h
  · simp [h]
  · rw [h, Bool.and_false]
    simp

theorem offerReply_owed (hm : s.isMember = true) (h : s.rt.pendingReplies.getLsbD i.val = true) : s.offerReply i =
    if s.hasQueued (·.repliesTo i) then s.replyPaid i else ((s.offer (.reply i)).map (replyPaid i)).getD s := by
  rw [offerReply, if_pos (by simp [hm, h])]
  rfl

/-! ### The own queries (R81) -/

theorem needsRoster_iff : s.needsRoster = true ↔ s.tb.state = .locked
    ∧ ((s.sc.station = .listen ∧ s.rt.copySource = .none)
      ∨ (s.sc.station = .resync ∧ (s.rt.copySource = .none ∨ s.rt.copySource = .old))) := by
  simp [needsRoster]

/-- The countdown set. -/
def counted (n : Nat) (s : State) : State := s.modRt fun rt => { rt with countdown := n }

theorem queryAtBoundary_unneeded (h : s.needsRoster = false) : s.queryAtBoundary
    = (s.counted 0).doIf (s.isFollower && s.hasQueued (·.isQuery)) (dropBodies (·.isQuery)) := by
  simp only [queryAtBoundary, h]
  rfl

theorem queryAtBoundary_needed (h : s.needsRoster = true) : s.queryAtBoundary =
    if s.rt.countdown - 1 = 0 && !s.hasQueued (·.isQuery) then
      match s.offer .query with
      | some s' => s'.counted s.listenEpochs
      | none => s.counted 0
    else s.counted (s.rt.countdown - 1) := by
  simp only [queryAtBoundary, h]
  rfl

/-- Without a query queued nothing of that kind can be dropped. -/
theorem filter_not_of_hasQueued {test : QueuedBody → Bool} (h : s.hasQueued test = false) :
    (s.bi.queue.filter fun y => !test y.body) = s.bi.queue := by
  rw [List.filter_eq_self]
  intro y hy
  simpa using hasQueued_eq_false_iff.mp h y hy

end State

open State in
/-- Settles O47. -/
theorem rosterQueryAccepted : Obligations.RosterQueryAccepted := by
  unfold Obligations.RosterQueryAccepted
  refine ⟨fun i s hm hn hset => ?_, fun i s ht hset hfl => ?_, fun i r s hm hset h => ?_,
    fun s i => ⟨offerReply_rests, fun hm h => ?_⟩, fun s => needsRoster_iff, fun s => ⟨fun h => ?_, fun h => ?_⟩⟩
  · have hexec : exec (.rosterQueryAccepted i) s = .next (s.afterFrame.handleQuery i).settle := by
      rw [exec_rosterQueryAccepted, acceptFrame_other (takes_of_member hm) hn (.inr (.inl hm)), heard_of_member hm]
    have hsettled : s.afterFrame.Settled := hset
    refine ⟨fun h => ?_, fun hi h hq => ?_, fun hi h hq => ?_⟩
    · rw [hexec, handleQuery_rests (s := s.afterFrame) h, settle_of_settled hsettled]
    · rw [handleQuery_offers (s := s.afterFrame) hm hi h hq,
        settle_of_settled (hsettled.congr (basis_offered _ _))] at hexec
      refine ⟨_, hexec, by simp; rfl, by simp; rfl, ?_, by simp; rfl, by simp; rfl, by simp; rfl, by simp; rfl,
        by simp; rfl⟩
      constructor <;> simp [afterFrame, offered]
    · rw [hexec, handleQuery_pends (s := s.afterFrame) hm hi h hq,
        settle_of_settled (hsettled.congr (basis_modRt .rfl' rfl))]
      rfl
  · have hexec : exec (.rosterQueryAccepted i) s = .next s.sent := by
      rw [exec_rosterQueryAccepted, acceptFrame_own ht hfl,
        handleQuery_rests (.inl (hfl.1.trans (ownId_congr (by simp)))), settle_sent hset]
    refine ⟨_, hexec, sent_bi s, ?_, ?_, ?_⟩
    · rw [(sent_kept s).1]
      split
      next h => rw [heard_of_listen h]
      next h => rw [heard_of_ne h]; rfl
    · rw [(sent_kept s).1]
      exact sent_eq s
    · constructor <;> simp
  · have hstation : s.sc.station ≠ .listen := by obtain h | h := isMember_iff.mp hm <;> simp [h]
    obtain hn | hfl := h
    · have hexec : exec (.rosterReplyAccepted i r) s = .next (s.afterFrame.replied (stationOfNibble r.asker)) := by
        rw [exec_rosterReplyAccepted, acceptFrame_other (takes_of_member hm) hn (.inr (.inl hm)), heard_of_member hm,
          handleReply_of_member (s := s.afterFrame) hm,
          settle_of_settled (Settled.congr (s := s.afterFrame) hset (basis_replied _ _))]
      have hnot : ¬s.InFlight i (.rosterReplyAccepted i r) := fun ⟨_, a, ha, _⟩ => by simp [hn.1] at ha
      refine ⟨_, hexec, fun _ => replied_bi_of_idle (s := s.afterFrame) _ hn.1 rfl, fun h => absurd h hnot,
        by rw [replied_rt]; rfl, fun j => getLsbD_replied .., ?_, ?_⟩
      · exact replied_eq (stationOfNibble r.asker) s.afterFrame
      · exact SameShared.trans' (t := s.afterFrame) ⟨rfl, rfl, rfl, rfl⟩ (sameShared_replied ..)
    · have hsc : s.sent.sc = s.sc := by rw [(sent_kept s).1, heard_of_ne hstation]; rfl
      have hrt : s.sent.rt = s.rt := (sent_kept s).2.2.1
      have hexec : exec (.rosterReplyAccepted i r) s = .next (s.sent.replied (stationOfNibble r.asker)) := by
        rw [exec_rosterReplyAccepted, acceptFrame_own (takes_of_member hm) hfl,
          handleReply_of_member ((basis_sent s).isMember.trans hm),
          settle_of_settled ((hset.congr (basis_sent s)).congr (basis_replied _ _))]
      have hbi := replied_bi_of_idle (s := s.sent) (stationOfNibble r.asker) (by rw [sent_bi]; rfl) (by rw [sent_bi]; rfl)
      rw [sent_bi] at hbi
      have hnot : ¬s.NotSending := fun hn => by
        obtain ⟨_, a, ha, _⟩ := hfl
        simp [hn.1] at ha
      refine ⟨_, hexec, fun h => absurd h hnot, fun _ => hbi, by rw [replied_rt, hrt],
        fun j => (getLsbD_replied ..).trans (by rw [hrt]), ?_, ?_⟩
      · refine (replied_eq (stationOfNibble r.asker) s.sent).trans ?_
        generalize s.sent.replied (stationOfNibble r.asker) = t
        rw [sent_eq, heard_of_ne hstation]
        rfl
      · exact SameShared.trans' (t := s.sent) (by constructor <;> simp) (sameShared_replied ..)
  · rw [offerReply_owed hm h]
    refine ⟨fun hq => ?_, fun hq hl => ?_, fun hq hl => ?_⟩
    · rw [if_pos hq]
      rfl
    · rw [if_neg (by simp [hq]), offer_of_room _ hl]
      refine ⟨by simp [replyPaid], by simp [replyPaid], ?_⟩
      constructor <;> simp [replyPaid, offered]
    · rw [if_neg (by simp [hq]), offer_of_full _ hl]
      rfl
  · rw [queryAtBoundary_unneeded h]
    refine ⟨by simp [counted], by simp [counted], by simp [counted], ?_, fun hf => ?_, fun hf => ?_⟩
    · constructor <;> simp [counted]
    · cases hq : s.hasQueued (·.isQuery) with
      | false => rw [Bool.and_false, doIf_false, filter_not_of_hasQueued hq]; rfl
      | true =>
        rw [hf, Bool.and_true, doIf_true]
        simp [counted]
    · rw [hf, Bool.false_and, doIf_false]
      rfl
  · rw [queryAtBoundary_needed h]
    refine ⟨fun hc => ?_, fun hc => ⟨fun hq => ?_, fun hq hl => ?_, fun hq hl => ?_⟩⟩
    · rw [if_neg (by simp; omega)]
      rfl
    · rw [if_neg (by simp [hq]), Nat.sub_eq_zero_of_le hc]
      rfl
    · rw [if_pos (by simp [hq]; omega), offer_of_full _ hl]
      rfl
    · rw [if_pos (by simp [hq]; omega), offer_of_room _ hl]
      refine ⟨by simp [counted], by simp [counted], ?_, by simp [counted]⟩
      constructor <;> simp [counted, offered]

end Sys2Proof.Machine
end

section
/-! The acceptance of a TRIP (R60, R61, R108, R136, R161, R162). -/

namespace Sys2Proof.Machine

variable {s t u : State} {i j : StationId} {f : TripFields} {e : QueueEntry} {z : Ticket} {l : List QueueEntry}

/-- The ticket as a TRIP of the target of its CLEAR_TRIP leaves it (R108). -/
def Ticket.retripped (z : Ticket) : Ticket :=
  { z with state := .voided .retripped, withdrawRequest := false, withdrawQueued := false }

namespace State

/-! ### A CLEAR_TRIP voided (R60, R108) -/

@[simp] theorem voidClearTrip_kept (s : State) (e : QueueEntry) : (s.voidClearTrip e).sc = s.sc
    ∧ (s.voidClearTrip e).tb = s.tb ∧ (s.voidClearTrip e).rt = s.rt ∧ (s.voidClearTrip e).pu = s.pu
    ∧ (s.voidClearTrip e).os = s.os ∧ (s.voidClearTrip e).cq.duty = s.cq.duty
    ∧ (s.voidClearTrip e).fu.tripSet = s.fu.tripSet ∧ (s.voidClearTrip e).fu.lastTrip = s.fu.lastTrip
    ∧ (s.voidClearTrip e).sp.record = s.sp.record
    ∧ (s.voidClearTrip e).cq.entries = s.cq.entries.filter (fun x => x.id ≠ e.id)
    ∧ (s.voidClearTrip e).bi.queue = s.bi.queue.filter (fun y => !y.body.objectsTo e.id) := by
  simp [voidClearTrip]

/-- Every CLEAR_TRIP of a list voided. -/
def clearTripsVoided (l : List QueueEntry) (s : State) : State := l.foldl voidClearTrip s

@[simp] theorem clearTripsVoided_kept (l : List QueueEntry) (s : State) : (s.clearTripsVoided l).sc = s.sc
    ∧ (s.clearTripsVoided l).tb = s.tb ∧ (s.clearTripsVoided l).rt = s.rt ∧ (s.clearTripsVoided l).pu = s.pu
    ∧ (s.clearTripsVoided l).os = s.os ∧ (s.clearTripsVoided l).cq.duty = s.cq.duty
    ∧ (s.clearTripsVoided l).fu.tripSet = s.fu.tripSet ∧ (s.clearTripsVoided l).fu.lastTrip = s.fu.lastTrip
    ∧ (s.clearTripsVoided l).sp.record = s.sp.record
    ∧ (s.clearTripsVoided l).cq.entries = s.cq.entries.filter (fun x => !l.any fun e => e.id = x.id)
    ∧ (s.clearTripsVoided l).bi.queue = s.bi.queue.filter (fun y => !l.any fun e => y.body.objectsTo e.id) := by
  induction l generalizing s with
  | nil => simp [clearTripsVoided]
  | cons e es ih =>
    have hstep : s.clearTripsVoided (e :: es) = (s.voidClearTrip e).clearTripsVoided es := rfl
    obtain ⟨hsc, htb, hrt, hpu, hos, hduty, htrip, hlast, hrecord, hentries, hqueue⟩ := ih (s.voidClearTrip e)
    rw [hstep, hsc, htb, hrt, hpu, hos, hduty, htrip, hlast, hrecord, hentries, hqueue]
    simp [List.filter_filter, eq_comm, Bool.and_comm]

/-- No attempt and no frame followed is left where there was none. -/
structure Idle (s : State) : Prop where
  attempt : s.bi.attempt = none
  rx : s.bi.rx = none

theorem idle_dropBodies {test : QueuedBody → Bool} (h : s.Idle) : (s.dropBodies test).Idle := by
  have hbi := dropBodies_bi_of_idle (test := test) h.attempt h.rx
  exact ⟨by rw [hbi]; exact h.attempt, by rw [hbi]; exact h.rx⟩

theorem Idle.of_bi (h : s.Idle) (hb : t.bi = s.bi) : t.Idle := ⟨by rw [hb]; exact h.attempt, by rw [hb]; exact h.rx⟩

theorem voidClearTrip_bi (h : s.Idle) (e : QueueEntry) : (s.voidClearTrip e).bi
    = { s.bi with queue := s.bi.queue.filter fun y => !y.body.objectsTo e.id } := by
  have hdrop : (s.dropEntry e.id).bi = { s.bi with queue := s.bi.queue.filter fun y => !y.body.objectsTo e.id } :=
    dropBodies_bi_of_idle (s := s.modCq _) h.attempt h.rx
  simp [voidClearTrip, hdrop]

theorem clearTripsVoided_bi (h : s.Idle) (l : List QueueEntry) : (s.clearTripsVoided l).bi
    = { s.bi with queue := s.bi.queue.filter fun y => !l.any fun e => y.body.objectsTo e.id } := by
  induction l generalizing s with
  | nil => simp [clearTripsVoided]
  | cons e es ih =>
    have hbi := voidClearTrip_bi h e
    have hidle : (s.voidClearTrip e).Idle := ⟨by rw [hbi]; exact h.attempt, by rw [hbi]; exact h.rx⟩
    have hstep : s.clearTripsVoided (e :: es) = (s.voidClearTrip e).clearTripsVoided es := rfl
    rw [hstep, ih hidle, hbi]
    simp [List.filter_filter, Bool.and_comm]

theorem steady_clearTripsVoided (l : List QueueEntry) (s : State) : Steady true s (s.clearTripsVoided l) := by
  induction l generalizing s with
  | nil => exact Steady.rfl'
  | cons e es ih => exact (steady_voidClearTrip (Steady.rfl' (w := true))).trans (ih (s.voidClearTrip e))

/-- The ticket of a local CLEAR_TRIP of the list is VOIDED, at the first entry of its number (R108, R182). -/
theorem ticket_clearTripsVoided (he : e ∈ l) (hl : e.isLocal = true) (hz : z ∈ s.sp.tickets) (hu : z.unfinished = true)
    (hn : z.number = e.id.seq) (hk : ∀ x ∈ l, z.kind.fits x.content = true) (hr : z.reserved = false) :
    z.retripped ∈ (s.clearTripsVoided l).sp.tickets ∧ (s.clearTripsVoided l).hasEvent .ticket = true := by
  induction l generalizing s with
  | nil => exact absurd he (by simp)
  | cons x xs ih =>
    have hstep : s.clearTripsVoided (x :: xs) = (s.voidClearTrip x).clearTripsVoided xs := rfl
    rw [hstep]
    by_cases hx : x.isLocal = true ∧ z.number = x.id.seq
    · obtain ⟨hxl, hxn⟩ := hx
      have hvoid : s.voidClearTrip x
          = (s.dropEntry x.id).reportTicket z.number x.content (Ticket.finish (.voided .retripped)) := by
        rw [voidClearTrip, hxl, doIf_true, hxn]
      have hfits := hk x (by simp)
      have hmem : z ∈ (s.dropEntry x.id).sp.tickets := by simpa using hz
      have hdone : z.retripped ∈ (s.voidClearTrip x).sp.tickets := by
        rw [hvoid]
        have := mem_tickets_reportTicket (d := x.content) (Ticket.finish (.voided .retripped)) hmem hu hfits hr
        simpa [Ticket.finish, Ticket.retripped, hr] using this
      have hevent : (s.voidClearTrip x).hasEvent .ticket = true := by
        rw [hvoid]
        exact hasEvent_reportTicket hmem hu hfits hr rfl
      refine ⟨?_, (steady_clearTripsVoided xs _).hasEvent hevent⟩
      generalize s.voidClearTrip x = v at hdone
      clear ih hk he hstep
      induction xs generalizing v with
      | nil => exact hdone
      | cons y ys ih =>
        refine ih (v.voidClearTrip y) ?_
        unfold voidClearTrip
        cases y.isLocal
        · simpa using hdone
        · exact mem_tickets_updateTickets (by simpa using hdone) rfl
    · have hkeeps : z ∈ (s.voidClearTrip x).sp.tickets := by
        unfold voidClearTrip
        cases hxl : x.isLocal with
        | false => simpa using hz
        | true =>
          have hxn : z.number ≠ x.id.seq := fun h => hx ⟨hxl, h⟩
          rw [doIf_true, reportTicket, (updateTickets_kept ..).2.2.2.2.2.2.2.2.2.2.2.2.2]
          exact List.mem_map.mpr ⟨z, by simpa using hz, if_neg (by simp [hxn])⟩
      have hmem : e ∈ xs := by
        obtain rfl | h := List.mem_cons.mp he
        · exact absurd ⟨hl, hn⟩ hx
        · exact h
      exact ih hmem hkeeps fun y hy => hk y (by simp [hy])

/-! ### A TRIP processed (R108, R162) -/

/-- The trip set and the last trip of a TRIP. -/
def tripNoted (i : StationId) (f : TripFields) (s : State) : State :=
  (s.setTripSet (s.fu.tripSet ||| stationBit i)).modFu fun fu =>
    { fu with lastTrip := some ⟨i, f.input, f.en, s.tb.en⟩ }

theorem processTrip_eq (i : StationId) (f : TripFields) (s : State) : s.processTrip i f
    = (s.tripNoted i f).clearTripsVoided (s.cq.entries.filter fun e => e.content = .clearTrip i) := rfl

@[simp] theorem tripNoted_kept (i : StationId) (f : TripFields) (s : State) : (s.tripNoted i f).sc = s.sc
    ∧ (s.tripNoted i f).tb = s.tb ∧ (s.tripNoted i f).bi = s.bi ∧ (s.tripNoted i f).rt = s.rt
    ∧ (s.tripNoted i f).cq = s.cq ∧ (s.tripNoted i f).pu = s.pu ∧ (s.tripNoted i f).os = s.os
    ∧ (s.tripNoted i f).fu.tripSet = (s.fu.tripSet ||| stationBit i)
    ∧ (s.tripNoted i f).fu.lastTrip = some ⟨i, f.input, f.en, s.tb.en⟩
    ∧ (s.tripNoted i f).sp.record = s.sp.record ∧ (s.tripNoted i f).sp.tickets = s.sp.tickets := by
  simp [tripNoted]

theorem steady_processTrip' (i : StationId) (f : TripFields) (s : State) : Steady true s (s.processTrip i f) :=
  (steady_modFu (steady_setTripSet (Steady.rfl' (w := true)))).trans (steady_clearTripsVoided _ _)

theorem stationBit_ne_zero (i : StationId) : stationBit i ≠ 0 := by
  revert i
  decide

theorem or_stationBit_ne_zero (m : StationMask) (i : StationId) : m ||| stationBit i ≠ 0 := by
  intro h
  have hbit : (m ||| stationBit i).getLsbD i.val = false := by rw [h]; simp
  rw [BitVec.getLsbD_or, getLsbD_stationBit, decide_eq_true rfl, Bool.or_true] at hbit
  exact absurd hbit (by simp)

theorem hasEvent_tripNoted (h : s.fu.tripSet = 0) : (s.tripNoted i f).hasEvent .tripOn = true := by
  have hne : s.fu.tripSet ||| stationBit i ≠ 0 := fun h => or_stationBit_ne_zero _ _ h
  have hraise : (s.setTripSet (s.fu.tripSet ||| stationBit i)).hasEvent .tripOn = true := by
    rw [setTripSet, decide_eq_true h, decide_eq_true hne, Bool.and_self, doIf_true, decide_eq_false (not_not.mpr h),
      Bool.false_and, doIf_false]
    exact hasEvent_raise_same ..
  exact hraise

/-- A settled station with a trip set has its outputs OFF (R136). -/
theorem outputsOff_of_tripped (hs : s.Settled) (ht : s.fu.tripSet ≠ 0) (hg : s.os.GatesOk) : s.OutputsOff := by
  have hchosen : s.chosenMode = .off :=
    if_pos (by rw [decide_eq_true ht, Bool.or_true, Bool.true_or])
  have hmode : s.os.mode = .off := (hs.1 (by simp [hchosen])).trans hchosen
  obtain ⟨hgh, hgl⟩ := hg.2 hmode
  exact ⟨hmode, hgh, hgl, by simp [genAsserted, hmode]⟩

/-! ### The state in which a block takes a frame -/

/-- What an acceptance leaves as it was, whosever the frame is. -/
structure TakenIn (s u : State) : Prop where
  station : u.sc.station = s.sc.station
  leavePending : u.sc.leavePending = s.sc.leavePending
  tracked : u.sc.tracked = s.sc.tracked
  standing : u.sc.standing = s.sc.standing
  joinHoldoff : u.sc.joinHoldoff = s.sc.joinHoldoff
  withdrawOwed : u.sc.withdrawOwed = s.sc.withdrawOwed
  sc : s.sc.station ≠ .listen → u.sc = s.sc
  tb : u.tb = s.tb
  rt : u.rt = s.rt
  cq : u.cq = s.cq
  pu : u.pu = s.pu
  os : u.os = s.os
  sp : u.sp = s.sp
  flt0 : u.fu.flt0 = s.fu.flt0
  flt1 : u.fu.flt1 = s.fu.flt1
  flt2 : u.fu.flt2 = s.fu.flt2
  tripSet : u.fu.tripSet = s.fu.tripSet
  lastTrip : u.fu.lastTrip = s.fu.lastTrip
  idle : u.Idle

theorem takenIn_heard (h : s.bi.attempt = none) : TakenIn s s.heard :=
  ⟨by simp, by simp, by simp, by simp, by simp, by simp, fun hl => by rw [heard_of_ne hl]; rfl, by simp, by simp, by simp,
    by simp, by simp, by simp, by simp, by simp, by simp, by simp, by simp, by simpa using h, by simp⟩

theorem takenIn_sent (s : State) : TakenIn s s.sent :=
  ⟨by simp, by simp, by simp, by simp, by simp, by simp, fun hl => by rw [(sent_kept s).1, heard_of_ne hl]; rfl, by simp,
    by simp, by simp, by simp, by simp, by simp, by simp, by simp, by simp, by simp, by simp, by rw [sent_bi]; rfl,
    by rw [sent_bi]; rfl⟩

theorem TakenIn.isMember (h : TakenIn s u) : u.isMember = s.isMember := isMember_congr h.station

theorem TakenIn.isFollower (h : TakenIn s u) : u.isFollower = s.isFollower := isFollower_congr h.station

theorem TakenIn.ownId (h : TakenIn s u) : u.ownId = s.ownId := ownId_congr (by rw [h.sp])

theorem TakenIn.entry (h : TakenIn s u) (i : StationId) : u.entry i = s.entry i := entry_congr (by rw [h.rt]) i

theorem TakenIn.sameShared (h : TakenIn s u) : u.SameShared s :=
  ⟨by rw [h.rt], by rw [h.cq], by rw [h.cq], h.tripSet.symm⟩

theorem TakenIn.hasCopy (h : TakenIn s u) : u.hasCopy = s.hasCopy := by rw [State.hasCopy, h.rt]; rfl

/-- A frame that its block takes, another's or the own one (R54, R61). -/
theorem acceptFrame_takenIn {c : Instr} (ht : s.Takes)
    (h : (s.NotSending ∧ (i ≠ s.ownId ∨ s.isMember = true ∨ s.sc.station = .resync)) ∨ s.InFlight i c)
    (handle : State → State) : ∃ u, TakenIn s u ∧ s.acceptFrame i c handle = (handle u).settle
      ∧ (s.NotSending → u.bi = s.afterFrame.bi) ∧ (s.InFlight i c → u.bi = s.busAfterOwn) := by
  have hnot (hn : s.NotSending) : ¬s.InFlight i c := fun ⟨_, a, ha, _⟩ => by simp [hn.1] at ha
  obtain ⟨hn, hi⟩ | hfl := h
  · exact ⟨s.heard, takenIn_heard hn.1, acceptFrame_other ht hn hi c handle, fun _ => by simp [afterFrame],
      fun hfl => absurd hfl (hnot hn)⟩
  · exact ⟨s.sent, takenIn_sent s, acceptFrame_own ht hfl handle, fun hn => absurd hfl (hnot hn), fun _ => sent_bi s⟩

/-- A frame that changes nothing of what a station shares: one that is not followed, or is handed on in vain. -/
theorem sameShared_acceptFrame {c : Instr} {handle : State → State} (hn : s.NotSending) (hm : s.isMember = false)
    (hid : ∀ u, u.sc.station = s.sc.station → u.rt = s.rt → handle u = u) :
    (s.acceptFrame i c handle).SameShared s ∧ (s.acceptFrame i c handle).fu.lastTrip = s.fu.lastTrip := by
  cases hf : s.followsFrames with
  | false =>
    have heq : s.acceptFrame i c handle = s := by simp [acceptFrame, hf]
    rw [heq]
    exact ⟨.rfl', rfl⟩
  | true =>
    by_cases hd : s.sc.station = .dormant
    · rw [acceptFrame_dormant hd hn]
      refine ⟨?_, by simp; rfl⟩
      constructor <;> simp [afterFrame]
    · have ht : s.isFollower = true := by
        simp only [followsFrames, isMember, isFollower] at hf hm ⊢
        cases hs : s.sc.station <;> simp_all
      by_cases hc : i = s.ownId ∧ s.sc.station ≠ .resync
      · have hs : s.sc.station = .listen ∨ s.sc.station = .joining := by
          have := hc.2
          simpa [isFollower, this] using ht
        rw [acceptFrame_clash hs hn hc.1]
        refine ⟨?_, by simp⟩
        constructor <;> simp
      · rw [acceptFrame_other (.inr ht) hn (by
          by_cases hi : i = s.ownId
          · exact .inr (.inr (by simpa [hi] using hc))
          · exact .inl hi), hid s.heard (by simp) (by simp)]
        refine ⟨?_, by simp⟩
        constructor <;> simp

theorem processesShared_iff : s.processesShared = true ↔ s.isMember = true ∨ (s.isFollower = true ∧ s.hasCopy = true) := by
  simp [processesShared]

theorem takes_of_processes (h : s.isMember = true ∨ (s.isFollower = true ∧ s.hasCopy = true)) : s.Takes :=
  h.imp_right And.left

theorem TakenIn.processesShared (h : TakenIn s u) : u.processesShared = s.processesShared := by
  rw [State.processesShared, h.isMember, h.isFollower, h.hasCopy]
  rfl

end State

open State in
/-- Settles O46. -/
theorem tripAccepted : Obligations.TripAccepted := by
  unfold Obligations.TripAccepted
  refine ⟨fun i f s hp h => ?_, fun i f s hn hm h => ?_⟩
  · obtain ⟨u, hu, heq, hother, hown⟩ := acceptFrame_takenIn (takes_of_processes hp)
      (h.imp_left fun ⟨hn, hi⟩ => ⟨hn, hi.imp_right .inl⟩) (State.handleTrip i f)
    have hhandle : u.handleTrip i f = u.processTrip i f := by
      rw [handleTrip, hu.processesShared, processesShared_iff.mpr hp, doIf_true]
    rw [hhandle] at heq
    have hbi : (u.processTrip i f).bi = { u.bi with
        queue := u.bi.queue.filter fun y => !(s.cq.entries.any fun e => e.content = .clearTrip i && y.body.objectsTo e.id) } := by
      rw [processTrip_eq, clearTripsVoided_bi (hu.idle.of_bi (by simp)), hu.cq]
      simp [List.any_filter]
    have htrip : (u.processTrip i f).fu.tripSet = (s.fu.tripSet ||| stationBit i) := by
      simp [processTrip_eq, hu.tripSet]
    have hsteady : Steady true u ((u.processTrip i f).settle) := steady_settle (steady_processTrip' i f u)
    have hnoted : Steady true (u.tripNoted i f) ((u.processTrip i f).settle) := steady_settle (steady_clearTripsVoided _ _)
    refine ⟨_, (exec_tripAccepted i f s).trans (congrArg _ heq), fun j => ?_, ?_, fun h0 => ?_, ?_, fun e he hc hl z hz hun hnum hk hr => ?_, fun hn => ?_,
      fun hfl => ?_, fun hg => ?_, ?_, ?_, ?_, ?_⟩
    · simp only [settle_kept, htrip, BitVec.getLsbD_or, getLsbD_stationBit]
    · simp [processTrip_eq, hu.tb]
    · exact hnoted.hasEvent (hasEvent_tripNoted (hu.tripSet.trans h0))
    · simp [processTrip_eq, hu.cq, List.any_filter, Bool.and_comm]
    · obtain ⟨hmem, hevent⟩ := ticket_clearTripsVoided (s := u.tripNoted i f) (e := e) (z := z)
        (l := u.cq.entries.filter fun e => e.content = .clearTrip i) (by simp [hu.cq, he, hc]) hl
        (by simpa [hu.sp] using hz) hun hnum (fun x hx => by
          have hxc : x.content = .clearTrip i := by simpa using (List.mem_filter.mp hx).2
          rw [hxc, ← hc]
          exact hk) hr
      exact ⟨by simpa [processTrip_eq, Ticket.retripped] using hmem, (steady_settle (Steady.rfl' (w := true))).hasEvent hevent⟩
    · simp only [settle_kept, hbi, hother hn]
      rfl
    · rw [(settle_kept _).2.2.1, hbi, hown hfl]
      exact ⟨rfl, rfl, rfl, rfl, rfl, rfl⟩
    · refine outputsOff_of_tripped (settle_settled _) ?_ (hsteady.gates (by rwa [hu.os]))
      simp only [settle_kept, htrip]
      exact fun h => or_stationBit_ne_zero _ _ h
    · simp [processTrip_eq, hu.rt]
    · simp [processTrip_eq, hu.cq]
    · constructor <;> simp [processTrip_eq, hu.tb]
    · simp [processTrip_eq, hu.station]
  · obtain ⟨hshared, hlast⟩ := sameShared_acceptFrame (i := i) (c := .tripAccepted i f)
      (handle := State.handleTrip i f) hn hm fun u hst hrt => by
        have hnot : u.processesShared = false := by
          rw [processesShared, isMember_congr hst, isFollower_congr hst, hm, State.hasCopy, hrt]
          obtain h | h := h
          · simp [h]
          · rw [State.hasCopy] at h
            rw [h, Bool.and_false, Bool.false_or]
        rw [handleTrip, hnot, doIf_false]
    exact ⟨_, rfl, hshared, hlast⟩

end Sys2Proof.Machine
end

section
/-! What the outcomes of a tracked proposal leave: the shared state, the pending objections, and in the transmit queue no frame
but a PROPOSE that was not there (R8, R11 to R13, R65, R168). -/

namespace Sys2Proof.Machine

variable {s t u v : State} {y : QueuedFrame}

namespace State

/-! ### What is left by a change of station state -/

/-- The shared state stands, no pending objection is new, and a new frame is a PROPOSE that is not in flight. -/
structure Leaves (s t : State) : Prop where
  shared : t.SameShared s
  pending : ∀ o ∈ t.cq.pendingObjections, o ∈ s.cq.pendingObjections
  abandonCount : t.bi.abandonCount = s.bi.abandonCount ∨ t.bi.abandonCount = 0
  queue : ∀ y ∈ t.bi.queue, y ∈ s.bi.queue ∨ ∃ seq c, y = ⟨.propose seq c, 0, false⟩

theorem Leaves.refl (s : State) : s.Leaves s := ⟨.rfl', fun _ => id, .inl rfl, fun _ => .inl⟩

theorem Leaves.trans (h : s.Leaves t) (k : t.Leaves u) : s.Leaves u where
  shared := h.shared.trans' k.shared
  pending o ho := h.pending o (k.pending o ho)
  abandonCount := k.abandonCount.elim (fun hk => h.abandonCount.imp hk.trans hk.trans) .inr
  queue y hy := (k.queue y hy).elim (h.queue y) .inr

/-- Where the shared state, the Commit Queue and the Bus Interface are kept. -/
theorem Leaves.of_kept (hrt : t.rt.entries = s.rt.entries) (hcq : t.cq = s.cq) (htrip : t.fu.tripSet = s.fu.tripSet)
    (hbi : t.bi = s.bi) : s.Leaves t :=
  ⟨⟨hrt.symm, by rw [hcq], by rw [hcq], htrip.symm⟩, fun o ho => by rwa [← hcq], .inl (by rw [hbi]),
    fun y hy => .inl (by rwa [← hbi])⟩

theorem leaves_settle (s : State) : s.Leaves s.settle := .of_kept (by simp) (by simp) (by simp) (by simp)

theorem pendingObjections_moveTo (new : StationState) (s : State) :
    (s.moveTo new).cq.pendingObjections = s.cq.pendingObjections ∨ (s.moveTo new).cq.pendingObjections = [] := by
  simp only [moveTo]
  generalize (s.isMember && !State.isMember _) = c
  cases c <;> simp [dropMemberWork]

theorem leaves_moveTo (new : StationState) (s : State) : s.Leaves (s.moveTo new) where
  shared := by constructor <;> simp
  pending o ho := by
    obtain h | h := pendingObjections_moveTo new s
    · rwa [h] at ho
    · simp [h] at ho
  abandonCount := .inl (by simp)
  queue y hy := by
    rw [moveTo_queue] at hy
    split at hy
    · exact .inl hy
    · exact .inl (List.mem_of_mem_filter hy)

/-- A PROPOSE offered, with what the Commit Queue and the Fault Unit note of it. -/
theorem leaves_offered (seq : Byte) (c : ProposalContent) (s : State) : s.Leaves (s.offered (.propose seq c)) where
  shared := by constructor <;> simp [offered]
  pending := by simp
  abandonCount := .inl (by simp)
  queue y hy := by
    simp only [offered_kept, mem_insertFrame] at hy
    exact hy.elim (fun h => .inr ⟨seq, c, h⟩) .inl

theorem leaves_proposed (c : ProposalContent) (s : State) : s.Leaves (s.proposed c) :=
  (leaves_offered s.cq.nextSeq c s).trans
    ⟨⟨rfl, rfl, rfl, rfl⟩, fun _ => id, .inl rfl, fun _ => .inl⟩

theorem leaves_offerPropose (c : ProposalContent) (f : FaultUnit → FaultUnit) (hf : ∀ fu, (f fu).tripSet = fu.tripSet)
    (s : State) : s.Leaves (orKeep ((s.offerPropose c).map (modFu f)) s) := by
  obtain hq | hq := Nat.lt_or_ge s.bi.queue.length 6
  · rw [offerPropose_of_room c hq]
    refine (leaves_proposed c s).trans (.of_kept rfl rfl ?_ rfl)
    exact hf _
  · rw [offerPropose_of_full c hq]
    exact .refl s

theorem leaves_memberTests (s : State) : s.Leaves s.memberTests := by
  have hshed (u : State) : u.Leaves u.shedTest := by
    unfold shedTest
    split
    · exact leaves_offerPropose .shed (fun fu => { fu with shedFrame := some u.nextId }) (fun _ => rfl) u
    · exact .refl u
  have hreadmit (u : State) : u.Leaves u.readmissionTest := by
    unfold readmissionTest
    split
    · exact leaves_offerPropose u.admitContent (fun fu => { fu with readmitFrame := some u.nextId }) (fun _ => rfl) u
    · exact .refl u
  exact (hshed s).trans (hreadmit _)

theorem leaves_becomeLeaving (n : Byte) (s : State) : s.Leaves (s.becomeLeaving n) :=
  (leaves_moveTo .leaving s).trans (.of_kept rfl rfl rfl rfl)

theorem leaves_proposeLeave (s : State) : s.Leaves s.proposeLeave := by
  obtain hq | hq := Nat.lt_or_ge s.bi.queue.length 6
  · cases hr : s.reservedTicket with
    | none =>
      rw [proposeLeave_fresh hr hq]
      refine (leaves_proposed (.remove s.ownId .left) s).trans (Leaves.trans ?_ (leaves_becomeLeaving _ _))
      exact .of_kept (by simp) (by simp) (by simp) (by simp)
    | some r =>
      rw [proposeLeave_reserved hr hq]
      refine (leaves_offered r.number (.remove s.ownId .left) s).trans (Leaves.trans ?_ (leaves_becomeLeaving _ _))
      exact .of_kept (by simp) (by simp) (by simp) (by simp)
  · rw [proposeLeave_of_full hq]
    exact .refl s

theorem leaves_doIf {c : Bool} {f : State → State} (h : s.Leaves (f s)) : s.Leaves (s.doIf c f) := by
  cases c
  · exact .refl s
  · exact h

theorem leaves_becomeMember (s : State) : s.Leaves s.becomeMember := by
  have hmoved : s.Leaves (((s.moveTo .member).modRt fun rt => { rt with copySource := .own }).modSc fun sc =>
      { sc with tracked := none }) := (leaves_moveTo .member s).trans (.of_kept rfl rfl rfl rfl)
  exact (hmoved.trans (leaves_doIf (leaves_proposeLeave _))).trans (leaves_memberTests _)

theorem leaves_returnToMember (s : State) : s.Leaves s.returnToMember :=
  (leaves_becomeMember s).trans (leaves_settle _)

theorem leaves_enterListen (standing : FollowStanding) (n : Nat) (s : State) : s.Leaves (s.enterListen standing n) := by
  refine (leaves_moveTo .listen s).trans (.of_kept ?_ ?_ ?_ ?_) <;> simp [enterListen]

theorem leaves_listenWithCopy (s : State) : s.Leaves s.listenWithCopy :=
  (leaves_enterListen _ _ s).trans (leaves_settle _)

theorem leaves_enterDormant (s : State) : s.Leaves s.enterDormant where
  shared := sameShared_enterDormant s
  pending := by simp
  abandonCount := .inr (by simp [enterDormant])
  queue := by simp

theorem leaves_joinFailed (s : State) : s.Leaves s.joinFailed := by
  unfold joinFailed
  split
  · exact leaves_enterDormant s
  · exact leaves_listenWithCopy s

theorem leaves_trackedLost (s : State) : s.Leaves s.trackedLost := by
  unfold trackedLost
  split
  · exact leaves_joinFailed s
  · exact leaves_returnToMember s
  · exact .refl s

/-! ### What a member keeps of its Bus Interface -/

/-- Only the queue of the Bus Interface changes. -/
def SameBus (s t : State) : Prop := ∃ q, t.bi = { s.bi with queue := q }

theorem SameBus.refl (s : State) : s.SameBus s := ⟨s.bi.queue, rfl⟩

theorem SameBus.trans (h : s.SameBus t) (k : t.SameBus u) : s.SameBus u := by
  obtain ⟨q, hq⟩ := h
  obtain ⟨r, hr⟩ := k
  exact ⟨r, by rw [hr, hq]⟩

theorem SameBus.of_bi (h : t.bi = s.bi) : s.SameBus t := ⟨s.bi.queue, h⟩

theorem SameBus.idle (h : s.SameBus t) (hs : s.Idle) : t.Idle := by
  obtain ⟨q, hq⟩ := h
  exact ⟨by rw [hq]; exact hs.attempt, by rw [hq]; exact hs.rx⟩

theorem sameBus_dropBodies (test : QueuedBody → Bool) (h : s.Idle) : s.SameBus (s.dropBodies test) :=
  ⟨_, dropBodies_bi_of_idle h.attempt h.rx⟩

/-- A member that moves within the group. -/
theorem sameBus_moveTo (hi : s.Idle) (hm : s.isMember = true) {new : StationState} (hn : new = .member ∨ new = .leaving) :
    s.SameBus (s.moveTo new) := by
  refine ⟨s.bi.queue.filter fun y => !y.body.isQuery, ?_⟩
  obtain rfl | rfl := hn <;>
    simp [moveTo, hm, State.isMember, drivesMarks, dropBodies_bi_of_idle, hi.attempt, hi.rx]

theorem sameBus_offered (body : QueuedBody) (s : State) : s.SameBus (s.offered body) :=
  ⟨insertFrame ⟨body, 0, false⟩ s.bi.queue, by simp⟩

theorem sameBus_memberTests (s : State) : s.SameBus s.memberTests := by
  have hshed (u : State) : u.SameBus u.shedTest := by
    obtain ⟨q, seq, shed, readmit, h⟩ := shedTest_frame u
    exact ⟨q, by rw [h]⟩
  have hreadmit (u : State) : u.SameBus u.readmissionTest := by
    obtain ⟨q, seq, shed, readmit, h⟩ := readmissionTest_frame u
    exact ⟨q, by rw [h]⟩
  exact (hshed s).trans (hreadmit _)

theorem sameBus_proposeLeave (hi : s.Idle) (hm : s.isMember = true) : s.SameBus s.proposeLeave := by
  have hleaves (u : State) (hb : s.SameBus u) (hu : u.isMember = true) (n : Byte) : s.SameBus (u.becomeLeaving n) :=
    (hb.trans (sameBus_moveTo (hb.idle hi) hu (.inr rfl))).trans (.of_bi rfl)
  obtain hq | hq := Nat.lt_or_ge s.bi.queue.length 6
  · cases hr : s.reservedTicket with
    | none =>
      rw [proposeLeave_fresh hr hq]
      exact hleaves _ ((sameBus_offered (.propose s.cq.nextSeq (.remove s.ownId .left)) s).trans (.of_bi (by simp [proposed])))
        ((isMember_congr (by simp)).trans hm) _
    | some r =>
      rw [proposeLeave_reserved hr hq]
      exact hleaves _ ((sameBus_offered (.propose r.number (.remove s.ownId .left)) s).trans (.of_bi (by simp))) ((isMember_congr (by simp)).trans hm) _
  · rw [proposeLeave_of_full hq]
    exact .refl s

theorem sameBus_doIf {c : Bool} {f : State → State} (h : s.SameBus (f s)) : s.SameBus (s.doIf c f) := by
  cases c
  · exact .refl s
  · exact h

theorem sameBus_returnToMember (hi : s.Idle) (hm : s.isMember = true) : s.SameBus s.returnToMember := by
  have hmoved : s.SameBus (((s.moveTo .member).modRt fun rt => { rt with copySource := .own }).modSc fun sc =>
      { sc with tracked := none }) := (sameBus_moveTo hi hm (.inl rfl)).trans (.of_bi rfl)
  have hmember : (((s.moveTo .member).modRt fun rt => { rt with copySource := .own }).modSc fun sc =>
      { sc with tracked := none }).isMember = true := by simp [isMember]
  have hleave : s.SameBus (leaveIfPending _) := hmoved.trans (sameBus_doIf (sameBus_proposeLeave (hmoved.idle hi) hmember))
  exact (hleave.trans (sameBus_memberTests _)).trans (.of_bi (settle_kept _).2.2.1)

theorem isMember_proposeLeave (hm : s.isMember = true) : s.proposeLeave.isMember = true := by
  obtain hq | hq := Nat.lt_or_ge s.bi.queue.length 6
  · exact isMember_of_leaving (proposeLeave_kept hq).1
  · rwa [proposeLeave_of_full hq]

theorem isMember_returnToMember (s : State) : s.returnToMember.isMember = true := by
  have hmember : (((s.moveTo .member).modRt fun rt => { rt with copySource := .own }).modSc fun sc =>
      { sc with tracked := none }).isMember = true := by simp [isMember]
  rw [returnToMember, becomeMember]
  generalize ((s.moveTo .member).modRt fun rt => { rt with copySource := .own }).modSc _ = u at hmember
  refine (isMember_congr (s := u.leaveIfPending) (by simp)).trans ?_
  unfold leaveIfPending
  cases u.sc.station = .member && u.sc.leavePending
  · exact hmember
  · exact isMember_proposeLeave hmember

end State
end Sys2Proof.Machine
end

section
/-! The acceptance of an OBJECT, and the objections and withdrawals that wait (R8, R11, R13, R59 to R61, R75, R96, R102,
R107, R179). -/

namespace Sys2Proof.Machine

variable {s t u v : State} {i j : StationId} {e : QueueEntry} {r : ObjectReason} {o : ObjectFields} {z : Ticket}

/-- The ticket as an objection leaves it (R102). -/
def Ticket.objectedBy (r : ObjectReason) (i : StationId) (z : Ticket) : Ticket :=
  { z with state := .objected r i, withdrawRequest := false, withdrawQueued := false }

/-- The coded roster reads the state and the kind of each entry (R192). -/
theorem rosterCode_congr {old new : List RosterEntry}
    (h : ∀ i : StationId, (new.getD i.val .absentEntry).state = (old.getD i.val .absentEntry).state
      ∧ (new.getD i.val .absentEntry).kind = (old.getD i.val .absentEntry).kind) : rosterCode new = rosterCode old := by
  have hnibble (i : StationId) :
      entryNibble (new.getD i.val .absentEntry) = entryNibble (old.getD i.val .absentEntry) := by
    simp only [entryNibble, (h i).1, (h i).2]
  simp only [rosterCode, hnibble]

namespace State

/-! ### The silence of a station that shows itself (R75) -/

theorem lt_length_of_present (h : (s.entry i).state ≠ .absent) : i.val < s.rt.entries.length := by
  by_contra hl
  exact h (by rw [entry, List.getD_eq_default _ _ (by omega)]; rfl)

theorem resetSilence_of_absent (h : (s.entry i).state = .absent) : s.resetSilence i = s := by
  rw [resetSilence, isPresent_eq_false h, doIf_false]

theorem resetSilence_of_present (h : (s.entry i).state ≠ .absent) : s.resetSilence i = s.modRt fun rt =>
    { rt with entries := rt.entries.set i.val { s.entry i with silent := 0 } } := by
  rw [resetSilence, isPresent_eq_true h, doIf_true]

theorem entry_resetSilence_self (h : (s.entry i).state ≠ .absent) :
    (s.resetSilence i).entry i = { s.entry i with silent := 0 } := by
  have hl := lt_length_of_present h
  rw [resetSilence_of_present h]
  simp [entry, hl]

theorem entry_resetSilence_ne (h : j ≠ i) : (s.resetSilence i).entry j = s.entry j := by
  have hval : i.val ≠ j.val := fun hv => h (Fin.ext hv.symm)
  by_cases ha : (s.entry i).state = .absent
  · rw [resetSilence_of_absent ha]
  · rw [resetSilence_of_present ha]
    simp [entry, List.getElem?_set_ne hval]

theorem standing_resetSilence (i j : StationId) (s : State) :
    ((s.resetSilence i).entry j).state = (s.entry j).state ∧ ((s.resetSilence i).entry j).kind = (s.entry j).kind := by
  by_cases hj : j = i
  · subst hj
    by_cases ha : (s.entry j).state = .absent
    · rw [resetSilence_of_absent ha]
      exact ⟨rfl, rfl⟩
    · rw [entry_resetSilence_self ha]
      exact ⟨rfl, rfl⟩
  · rw [entry_resetSilence_ne hj]
    exact ⟨rfl, rfl⟩

@[simp] theorem resetSilence_kept (i : StationId) (s : State) : (s.resetSilence i).sc = s.sc ∧ (s.resetSilence i).tb = s.tb
    ∧ (s.resetSilence i).bi = s.bi ∧ (s.resetSilence i).cq = s.cq ∧ (s.resetSilence i).pu = s.pu
    ∧ (s.resetSilence i).os = s.os ∧ (s.resetSilence i).fu = s.fu ∧ (s.resetSilence i).sp = s.sp
    ∧ (s.resetSilence i).rt.copySource = s.rt.copySource := by
  unfold resetSilence
  cases (s.entry i).isPresent <;> exact ⟨rfl, rfl, rfl, rfl, rfl, rfl, rfl, rfl, rfl⟩

/-! ### An objection that takes effect (R102) -/

theorem objectionHolds_iff : (decide (e.phase = .openPhase) && s.objectionFits e i r) = true ↔ s.objectionHolds e i r := by
  rw [Bool.and_eq_true, decide_eq_true_iff, objectionHolds]
  refine and_congr_right fun _ => ?_
  cases r <;> cases hc : e.content <;> simp [objectionFits, hc]
  case present.remove k l => cases l <;> simp

/-- The entry objected to removed and its ticket reported, before the station state follows. -/
def objected (e : QueueEntry) (r : ObjectReason) (i : StationId) (s : State) : State :=
  ((s.dropEntry e.id).doIf e.isLocal (reportTicket e.id.seq e.content (Ticket.finish (.objected r i)))).doIf
    (r = .present) (resetSilence e.target)

theorem applyObjection_eq (e : QueueEntry) (r : ObjectReason) (i : StationId) (s : State) :
    s.applyObjection e r i = (s.objected e r i).doIf (s.tracks e.id) trackedLost := rfl

@[simp] theorem objected_kept (e : QueueEntry) (r : ObjectReason) (i : StationId) (s : State) :
    (s.objected e r i).sc = s.sc ∧ (s.objected e r i).tb = s.tb ∧ (s.objected e r i).pu = s.pu
      ∧ (s.objected e r i).os = s.os ∧ (s.objected e r i).cq.duty = s.cq.duty
      ∧ (s.objected e r i).fu.tripSet = s.fu.tripSet ∧ (s.objected e r i).sp.record = s.sp.record
      ∧ (s.objected e r i).rt.copySource = s.rt.copySource ∧ (s.objected e r i).bi.abandonCount = s.bi.abandonCount
      ∧ (s.objected e r i).cq.entries = s.cq.entries.filter (fun x => x.id ≠ e.id)
      ∧ (s.objected e r i).cq.pendingObjections = s.cq.pendingObjections.filter (fun o => o.1 ≠ e.id)
      ∧ (s.objected e r i).bi.queue = s.bi.queue.filter (fun y => !y.body.objectsTo e.id) := by
  have habandon : (s.dropEntry e.id).bi.abandonCount = s.bi.abandonCount := by simp [dropEntry]
  simp [objected, habandon]

theorem idle_objected (h : s.Idle) : (s.objected e r i).Idle := by
  have hdrop : (s.dropEntry e.id).Idle := idle_dropBodies (s := s.modCq _) ⟨h.attempt, h.rx⟩
  exact hdrop.of_bi (by simp [objected])

theorem objected_rt_of_ne (h : r ≠ .present) : (s.objected e r i).rt = s.rt := by
  simp [objected, h]

theorem objected_rt_of_present (e : QueueEntry) (i : StationId) (s : State) :
    (s.objected e .present i).rt.entries = (s.resetSilence e.target).rt.entries := by
  simp only [objected, decide_true, doIf_true]
  have hentry : ((s.dropEntry e.id).doIf e.isLocal
      (reportTicket e.id.seq e.content (Ticket.finish (.objected .present i)))).rt = s.rt := by simp
  generalize (s.dropEntry e.id).doIf e.isLocal _ = u at hentry
  have hsame : u.entry e.target = s.entry e.target := entry_congr (by rw [hentry]) _
  by_cases ha : (s.entry e.target).state = .absent
  · rw [resetSilence_of_absent ha, resetSilence_of_absent (by rwa [hsame]), hentry]
  · rw [resetSilence_of_present ha, resetSilence_of_present (by rwa [hsame])]
    simp [hentry, hsame]

theorem entry_objected_present (h : (s.entry e.target).state ≠ .absent) :
    (s.objected e .present i).entry e.target = { s.entry e.target with silent := 0 } :=
  (entry_congr (objected_rt_of_present e i s) _).trans (entry_resetSilence_self h)

theorem entry_objected_other (h : r ≠ .present ∨ j ≠ e.target ∨ (s.entry j).state = .absent) :
    (s.objected e r i).entry j = s.entry j := by
  by_cases hr : r = .present
  · subst hr
    refine (entry_congr (objected_rt_of_present e i s) j).trans ?_
    by_cases hj : j = e.target
    · have ha : (s.entry e.target).state = .absent := by
        obtain h | h | h := h
        · exact absurd rfl h
        · exact absurd hj h
        · rwa [← hj]
      rw [resetSilence_of_absent ha]
    · exact entry_resetSilence_ne hj
  · exact entry_congr (by rw [objected_rt_of_ne hr]) j

theorem rosterCode_objected (e : QueueEntry) (r : ObjectReason) (i : StationId) (s : State) :
    rosterCode (s.objected e r i).rt.entries = rosterCode s.rt.entries := by
  by_cases hr : r = .present
  · subst hr
    rw [objected_rt_of_present]
    exact rosterCode_congr fun j => standing_resetSilence e.target j s
  · rw [objected_rt_of_ne hr]

theorem ticket_objected (hl : e.isLocal = true) (hz : z ∈ s.sp.tickets) (hu : z.unfinished = true)
    (hn : z.number = e.id.seq) (hk : z.kind.fits e.content = true) (hr : z.reserved = false) :
    z.objectedBy r i ∈ (s.objected e r i).sp.tickets ∧ (s.objected e r i).hasEvent .ticket = true := by
  have hmem : z ∈ (s.dropEntry e.id).sp.tickets := by simpa using hz
  have hreported := mem_tickets_reportTicket (d := e.content) (Ticket.finish (.objected r i)) hmem hu hk hr
  have hevent := hasEvent_reportTicket (f := Ticket.finish (.objected r i)) hmem hu hk hr rfl
  rw [hn] at hreported hevent
  constructor
  · simpa [objected, hl, Ticket.objectedBy, Ticket.finish, hr] using hreported
  · rw [objected, hl, doIf_true]
    cases decide (r = .present)
    · exact hevent
    · rw [doIf_true, hasEvent, (resetSilence_kept ..).2.2.2.2.2.2.2.1]
      exact hevent

theorem hasEvent_listenWithCopy (s : State) : s.listenWithCopy.hasEvent .state = true := by
  have hsteady : Steady true (s.moveTo .listen) s.listenWithCopy :=
    steady_settle (steady_modTb (steady_modSc .rfl' id) fun _ => ⟨rfl, rfl, rfl, rfl⟩)
  exact hsteady.hasEvent (hasEvent_moveTo _ s)

/-! ### An OBJECT processed (R59, R96, R102) -/

theorem TakenIn.dropBodies (h : TakenIn s u) (test : QueuedBody → Bool) : TakenIn s (u.dropBodies test) :=
  ⟨by simp [h.station], by simp [h.leavePending], by simp [h.tracked], by simp [h.standing], by simp [h.joinHoldoff],
    by simp [h.withdrawOwed], fun hl => by simp [h.sc hl], by simp [h.tb], by simp [h.rt], by simp [h.cq], by simp [h.pu],
    by simp [h.os], by simp [h.sp], by simp [h.flt0], by simp [h.flt1], by simp [h.flt2], by simp [h.tripSet],
    by simp [h.lastTrip], idle_dropBodies h.idle⟩

theorem processObject_of_holds {id : ProposalId} (hid : id = ⟨stationOfNibble o.origin, o.seq⟩)
    (he : s.cq.entries.find? (·.id = id) = some e) (hr : objectReasonOf o.reason = some r)
    (h : s.objectionHolds e i r) : s.processObject i o = s.applyObjection e r i := by
  subst hid
  simp only [processObject, he, hr]
  exact if_pos (objectionHolds_iff.mpr h)

theorem processObject_of_not {id : ProposalId} (hid : id = ⟨stationOfNibble o.origin, o.seq⟩)
    (h : s.cq.entries.find? (·.id = id) = none ∨ objectReasonOf o.reason = none
      ∨ ∃ e r, s.cq.entries.find? (·.id = id) = some e ∧ objectReasonOf o.reason = some r
          ∧ ¬s.objectionHolds e i r) : s.processObject i o = s := by
  subst hid
  simp only [processObject]
  split
  next e r he hr =>
    refine if_neg fun hc => ?_
    have hholds := objectionHolds_iff.mp hc
    obtain h | h | ⟨e', r', he', hr', hn⟩ := h
    · simp [h] at he
    · simp [h] at hr
    · rw [he] at he'
      rw [hr] at hr'
      obtain rfl := Option.some.inj he'
      obtain rfl := Option.some.inj hr'
      exact hn hholds
  next => rfl

theorem objectionHolds_congr (h : t.rt.entries = s.rt.entries) : t.objectionHolds e i r ↔ s.objectionHolds e i r := by
  rw [objectionHolds, objectionHolds, entry_congr h]

/-! ### Objections and withdrawals that wait (R11, R107, R179) -/

theorem offerObjections_full {id : ProposalId} {rest : List (ProposalId × ObjectReason)} (hq : 6 ≤ s.bi.queue.length) :
    offerObjections ((id, r) :: rest) s = s := by
  simp only [offerObjections, offer_of_full _ hq]

theorem offerObjections_room {id : ProposalId} {rest : List (ProposalId × ObjectReason)} (hq : s.bi.queue.length < 6) :
    offerObjections ((id, r) :: rest) s = offerObjections rest ((s.offered (.object id r)).modCq fun cq =>
      { cq with pendingObjections := rest }) := by
  simp only [offerObjections, offer_of_room _ hq]

/-- The withdrawal that a STOP owes no longer. -/
def withdrawalPaid (s : State) : State := s.modSc fun sc => { sc with withdrawOwed := false }

theorem offerOwedWithdrawal_of_none (h : s.ownAdmit = none) : s.offerOwedWithdrawal = s.withdrawalPaid := by
  simp only [offerOwedWithdrawal, h]
  rfl

theorem offerOwedWithdrawal_of_some (h : s.ownAdmit = some e) : s.offerOwedWithdrawal =
    if s.sc.withdrawOwed && e.phase = .openPhase && !s.withdrawalQueued e.id then
      match s.offer (.object e.id .withdrawn) with
      | some s' => s'.withdrawalPaid
      | none => s
    else s.withdrawalPaid := by
  simp only [offerOwedWithdrawal, h]
  rfl

/-- A withdrawal is asked for and not yet queued (R179). -/
def WithdrawAsked (e : QueueEntry) (s : State) : Prop := e.isLocal = true ∧ e.phase = .openPhase
  ∧ ∃ z ∈ s.sp.tickets, z.unfinished = true ∧ z.number = e.id.seq ∧ z.kind.fits e.content = true
      ∧ z.withdrawRequest = true ∧ z.withdrawQueued = false

theorem offerWithdrawal_of_asked (h : s.WithdrawAsked e) : s.offerWithdrawal e =
    match s.offer (.object e.id .withdrawn) with
    | some s' => s'.reportTicket e.id.seq e.content fun t => { t with withdrawQueued := true }
    | none => s := by
  obtain ⟨hl, hp, z, hz, hu, hn, hk, hw, hq⟩ := h
  refine if_pos ?_
  rw [Bool.and_eq_true, Bool.and_eq_true, decide_eq_true_iff, List.any_eq_true]
  exact ⟨⟨hl, hp⟩, z, hz, by simp [hu, hn, hk, hw, hq]⟩

theorem offerWithdrawal_of_not_asked (h : ¬s.WithdrawAsked e) : s.offerWithdrawal e = s := by
  refine if_neg fun hc => h ?_
  rw [Bool.and_eq_true, Bool.and_eq_true, decide_eq_true_iff, List.any_eq_true] at hc
  obtain ⟨⟨hl, hp⟩, z, hz, hc⟩ := hc
  simp only [Bool.and_eq_true, decide_eq_true_iff, Bool.not_eq_true'] at hc
  obtain ⟨⟨⟨⟨hu, hn⟩, hk⟩, hw⟩, hq⟩ := hc
  exact ⟨hl, hp, z, hz, hu, hn, hk, hw, hq⟩

end State
end Sys2Proof.Machine
end

section
/-! An OBJECT taken by the Commit Queue, and the objections and withdrawals offered at a boundary (R8, R11, R13, R59 to R61,
R75, R102, R107, R179). -/

namespace Sys2Proof.Machine

variable {s t u v w : State} {i j : StationId} {e : QueueEntry} {r : ObjectReason} {o : ObjectFields} {z : Ticket}
  {id : ProposalId} {y : QueuedFrame}

namespace State

/-! ### The outcome of an objection (R8, R13, R102) -/

theorem leaves_applyObjection (e : QueueEntry) (r : ObjectReason) (i : StationId) (s : State) :
    (s.objected e r i).Leaves (s.applyObjection e r i) := by
  rw [applyObjection_eq]
  exact leaves_doIf (leaves_trackedLost _)

theorem attempt_applyObjection (h : s.Idle) : (s.applyObjection e r i).bi.attempt = none := by
  rw [applyObjection_eq]
  have hlanded := landed_trackedLost (idle_objected (e := e) (r := r) (i := i) h).attempt
  exact (doIf_keeps (P := fun v => v.bi.attempt)
    (hlanded.attempt.trans (idle_objected h).attempt.symm)).trans (idle_objected h).attempt

theorem applyObjection_untracked (h : s.sc.tracked ≠ some e.id) : s.applyObjection e r i = s.objected e r i := by
  rw [applyObjection_eq, tracks, decide_eq_false (by simpa using h), doIf_false]

theorem applyObjection_tracked (h : s.sc.tracked = some e.id) : s.applyObjection e r i = (s.objected e r i).trackedLost := by
  rw [applyObjection_eq, tracks, decide_eq_true (by simpa using h), doIf_true]

theorem ticket_applyObjection (hp : s.sc.station = .leaving → s.sc.leavePending = false) (hl : e.isLocal = true)
    (hz : z ∈ s.sp.tickets) (hu : z.unfinished = true) (hn : z.number = e.id.seq) (hk : z.kind.fits e.content = true)
    (hr : z.reserved = false) : z.objectedBy r i ∈ (s.applyObjection e r i).sp.tickets
      ∧ (s.applyObjection e r i).hasEvent .ticket = true := by
  obtain ⟨hmem, hevent⟩ := ticket_objected (r := r) (i := i) hl hz hu hn hk hr
  by_cases ht : s.sc.tracked = some e.id
  · rw [applyObjection_tracked ht]
    exact ⟨mem_tickets_trackedLost (by simpa using hp) hmem rfl, (steady_trackedLost (Steady.rfl' (w := true))).hasEvent hevent⟩
  · rw [applyObjection_untracked ht]
    exact ⟨hmem, hevent⟩

/-- A station LEAVING by the REMOVE objected to is MEMBER again (R13). -/
theorem applyObjection_returns (ht : s.sc.tracked = some e.id) (hs : s.sc.station = .leaving)
    (hp : s.sc.leavePending = false) : (s.applyObjection e r i).sc.station = .member
      ∧ (s.applyObjection e r i).sc.tracked = none ∧ (s.applyObjection e r i).hasEvent .state = true := by
  rw [applyObjection_tracked ht, trackedLost_leaving (by simpa using hs), returnToMember_sc (by simpa using hp)]
  exact ⟨rfl, rfl, hasEvent_state_returnToMember (by simpa using hp)⟩

/-- A joiner whose ADMIT is objected to: LISTEN with its copy (R8). -/
theorem applyObjection_listens (ht : s.sc.tracked = some e.id) (hs : s.sc.station = .joining)
    (hp : s.sc.leavePending = false) : (s.applyObjection e r i).sc.station = .listen
      ∧ (s.applyObjection e r i).sc.tracked = none ∧ (s.applyObjection e r i).sc.joinHoldoff = s.listenEpochs
      ∧ (s.applyObjection e r i).sc.standing = s.sc.standing
      ∧ (s.applyObjection e r i).rt.copySource = s.rt.copySource ∧ (s.applyObjection e r i).hasEvent .state = true := by
  rw [applyObjection_tracked ht, trackedLost_joining (by simpa using hs), joinFailed_listens (by simpa using hp),
    listenWithCopy_sc]
  obtain ⟨-, -, hsource⟩ := listenWithCopy_bi (s.objected e r i)
  exact ⟨rfl, rfl, by simp [listenEpochs], by simp, by simp [hsource], hasEvent_listenWithCopy _⟩

/-- A joiner whose ADMIT is objected to after a STOP: DORMANT (R8, R11). -/
theorem applyObjection_leaves (ht : s.sc.tracked = some e.id) (hs : s.sc.station = .joining)
    (hp : s.sc.leavePending = true) : (s.applyObjection e r i).sc.station = .dormant
      ∧ (s.applyObjection e r i).bi.queue = [] ∧ (s.applyObjection e r i).hasEvent .state = true := by
  rw [applyObjection_tracked ht, trackedLost_joining (by simpa using hs), joinFailed_leaves (by simpa using hp)]
  exact ⟨by simp, by simp, hasEvent_enterDormant _⟩

/-! ### The block's work at an OBJECT -/

theorem settle_bi (s : State) : s.settle.bi = s.bi := by simp

/-- What the processing leaves, whether or not the objection takes effect. -/
theorem processObject_shared (h : s.Idle) (i : StationId) (o : ObjectFields) :
    (s.processObject i o).cq.duty = s.cq.duty ∧ (s.processObject i o).fu.tripSet = s.fu.tripSet
      ∧ rosterCode (s.processObject i o).rt.entries = rosterCode s.rt.entries
      ∧ (s.processObject i o).bi.attempt = none
      ∧ ((s.processObject i o).bi.abandonCount = s.bi.abandonCount ∨ (s.processObject i o).bi.abandonCount = 0)
      ∧ ∀ y ∈ (s.processObject i o).bi.queue, y ∈ s.bi.queue ∨ ∃ seq c, y = ⟨.propose seq c, 0, false⟩ := by
  have hrests : s.processObject i o = s ∨ ∃ e r, s.processObject i o = s.applyObjection e r i := by
    simp only [processObject]
    split
    · split
      · exact .inr ⟨_, _, rfl⟩
      · exact .inl rfl
    · exact .inl rfl
  obtain heq | ⟨e, r, heq⟩ := hrests
  · rw [heq]
    exact ⟨rfl, rfl, rfl, h.attempt, .inl rfl, fun y => .inl⟩
  · rw [heq]
    have hleaves := leaves_applyObjection e r i s
    refine ⟨by simp [← hleaves.shared.duty], by simp [← hleaves.shared.tripSet], ?_, attempt_applyObjection h,
      by simpa using hleaves.abandonCount, fun y hy => ?_⟩
    · rw [← hleaves.shared.entries]
      exact rosterCode_objected e r i s
    · refine (hleaves.queue y hy).imp_left fun hkept => ?_
      obtain ⟨-, -, -, -, -, -, -, -, -, -, -, hqueue⟩ := objected_kept e r i s
      exact List.mem_of_mem_filter (hqueue ▸ hkept)

/-- An acceptance of the own frame leaves no frame in flight (R61). -/
theorem not_inFlight_busAfterOwn (hy : y ∈ s.busAfterOwn.queue) : y.inFlight = false := by
  rw [busAfterOwn] at hy
  split at hy
  · obtain ⟨x, -, rfl⟩ := List.mem_map.mp hy
    cases hx : x.inFlight <;> simp [hx]
  · simpa using (List.mem_filter.mp hy).2

/-- A frame that is not in flight outlives an acceptance of the own frame (R61). -/
theorem mem_busAfterOwn (hy : y ∈ s.bi.queue) (hf : y.inFlight = false) : y ∈ s.busAfterOwn.queue := by
  rw [busAfterOwn]
  dsimp only
  split
  · exact List.mem_map.mpr ⟨y, hy, by simp [hf]⟩
  · exact List.mem_filter.mpr ⟨hy, by simp [hf]⟩

/-- An OBJECT that its block processes: `w` is the state in which the entry is looked up, with the objections to it dropped. -/
theorem exec_objectAccepted_taken (hp : s.isMember = true ∨ (s.isFollower = true ∧ s.hasCopy = true))
    (h : (s.NotSending ∧ (i ≠ s.ownId ∨ s.isMember = true)) ∨ s.InFlight i (.objectAccepted i o))
    (hid : id = ⟨stationOfNibble o.origin, o.seq⟩) :
    ∃ w, TakenIn s w ∧ exec (.objectAccepted i o) s = .next (w.processObject i o).settle
      ∧ (s.NotSending → w.bi = { s.afterFrame.bi with queue := s.bi.queue.filter fun y => !y.body.objectsTo id })
      ∧ (s.InFlight i (.objectAccepted i o) →
          w.bi = { s.busAfterOwn with queue := s.busAfterOwn.queue.filter fun y => !y.body.objectsTo id }) := by
  obtain ⟨u, hu, heq, hother, hown⟩ := acceptFrame_takenIn (takes_of_processes hp)
    (h.imp_left fun h => ⟨h.1, h.2.imp_right .inl⟩) (State.handleObject i o)
  have hw := hu.dropBodies (·.objectsTo id)
  have hbi : (u.dropBodies (·.objectsTo id)).bi
      = { u.bi with queue := u.bi.queue.filter fun y => !y.body.objectsTo id } :=
    dropBodies_bi_of_idle hu.idle.attempt hu.idle.rx
  have hprocess : u.handleObject i o = (u.dropBodies (·.objectsTo id)).processObject i o := by
    rw [handleObject, ← hid, hu.processesShared, processesShared_iff.mpr hp, doIf_true]
  refine ⟨_, hw, (exec_objectAccepted i o s).trans (congrArg _ (heq.trans (congrArg settle hprocess))), fun hn => ?_,
    fun hf => ?_⟩
  · rw [hbi, hother hn]
    rfl
  · rw [hbi, hown hf]

/-- A request whose withdrawal has been queued is marked so in every ticket it reaches (R179). -/
theorem withdrawQueued_of_reported {n : Byte} {d : ProposalContent}
    (hz : z ∈ (s.reportTicket n d fun t => { t with withdrawQueued := true }).sp.tickets) (hu : z.unfinished = true)
    (hn : z.number = n) (hk : z.kind.fits d = true) (hr : z.reserved = false) : z.withdrawQueued = true := by
  rw [reportTicket, (updateTickets_kept _ _ s).2.2.2.2.2.2.2.2.2.2.2.2.2] at hz
  obtain ⟨x, -, rfl⟩ := List.mem_map.mp hz
  by_cases hx : (x.unfinished && (x.number = n && x.kind.fits d && !x.reserved)) = true
  · simp [hx]
  · rw [if_neg hx] at hu hn hk hr
    simp [hu, hn, hk, hr] at hx

end State

open State in
/-- Settles O45. -/
theorem objectAccepted : Obligations.ObjectAccepted := by
  refine ⟨fun i o id s hp h hid => ?_, fun i o s hf hc hn hi => ?_, fun s => rfl, fun id r rest s => ⟨fun hq => ?_,
    fun hq => ?_⟩, fun s u hu => ⟨fun ho => ?_, fun ho => ?_⟩, fun s e ho he => ⟨fun hph hn hq => ?_, fun hph hn hq => ?_,
    fun h => ?_⟩, fun s h => offerOwedWithdrawal_of_none h, fun s e => ⟨fun ha hq => ?_, fun h => ?_⟩⟩
  · obtain ⟨w, hw, hexec, hother, hown⟩ := exec_objectAccepted_taken hp h hid
    obtain ⟨hduty, htrip, hcode, hattempt, habandon, hqueue⟩ := processObject_shared hw.idle i o
    have hclean : ∀ y ∈ w.bi.queue, y.body.objectsTo id = false := by
      intro y hy
      obtain ⟨hn, -⟩ | hf := h
      · rw [hother hn] at hy
        simpa using (List.mem_filter.mp hy).2
      · rw [hown hf] at hy
        simpa using (List.mem_filter.mp hy).2
    have hkept : ∀ y ∈ s.bi.queue, y.inFlight = false → y.body.objectsTo id = false → y ∈ w.bi.queue := by
      intro y hy hfl hb
      obtain ⟨hn, -⟩ | hf := h
      · rw [hother hn]
        exact List.mem_filter.mpr ⟨hy, by simp [hb]⟩
      · rw [hown hf]
        exact List.mem_filter.mpr ⟨mem_busAfterOwn hy hfl, by simp [hb]⟩
    obtain ⟨hb, hk, hen, -⟩ := (steady_processObject (i := i) (o := o) (Steady.rfl' (w := true) (a := w))).counters rfl
    refine ⟨_, hexec, by simp [hduty, hw.cq], by simp [htrip, hw.tripSet], by simp [hcode, hw.rt],
      by constructor <;> simp [hb, hk, hen, hw.tb], fun y hy => ?_, fun hf => ⟨by simp [hattempt], ?_, fun y hy => ?_⟩,
      fun e r he hr hholds => ?_, fun h => ?_⟩
    · rw [settle_bi] at hy
      obtain hy | ⟨seq, c, rfl⟩ := hqueue y hy
      · exact hclean y hy
      · rfl
    · rw [settle_bi]
      rw [hown hf] at habandon
      exact habandon.elim (fun h => h) fun h => h
    · rw [settle_bi] at hy
      obtain hy | ⟨seq, c, rfl⟩ := hqueue y hy
      · rw [hown hf] at hy
        exact not_inFlight_busAfterOwn (List.mem_filter.mp hy).1
      · rfl
    · have heid : e.id = id := by simpa using List.find?_some he
      have hprocess : w.processObject i o = w.applyObjection e r i :=
        processObject_of_holds hid (by rw [hw.cq, he]) hr ((objectionHolds_congr (by rw [hw.rt])).mpr hholds)
      rw [hprocess]
      have hleaves := leaves_applyObjection e r i w
      have htarget : r = .present → e.target = i := by
        intro hr'
        subst hr'
        obtain ⟨-, h | h | h | h⟩ := hholds
        · exact nomatch h.1
        · exact nomatch h.1
        · exact nomatch h.1
        · exact h.2.1.symm
      have hentry (j : StationId) : (w.applyObjection e r i).settle.entry j = (w.objected e r i).entry j :=
        entry_congr (by simp [hleaves.shared.entries]) j
      have hsettle : Steady true (w.applyObjection e r i) (w.applyObjection e r i).settle := steady_settle .rfl'
      refine ⟨?_, fun x hx => ?_, fun hl hlp z hz hun hnum hkind hres => ?_, fun hr' hlen hpres => ?_, fun j hj => ?_,
        fun ht => ?_, fun ht hs hlp => ?_, fun ht hs hlp => ?_, fun ht hs hlp => ?_⟩
      · simp [← hleaves.shared.queue, hw.cq]
      · have hx' := hleaves.pending x (by simpa using hx)
        simp only [objected_kept] at hx'
        simpa using (List.mem_filter.mp hx').2
      · obtain ⟨hmem, hevent⟩ := ticket_applyObjection (i := i) (r := r) (s := w) (by rwa [hw.station, hw.leavePending]) hl (by rwa [hw.sp])
          hun hnum hkind hres
        exact ⟨by simpa [Ticket.objectedBy] using hmem, hsettle.hasEvent hevent⟩
      · subst hr'
        rw [hentry, ← htarget rfl, entry_objected_present (by rwa [hw.entry, htarget rfl]), hw.entry]
      · rw [hentry, entry_objected_other, hw.entry]
        rw [hw.entry]
        by_cases hr' : r = .present
        · rwa [htarget hr']
        · exact .inl hr'
      · rw [applyObjection_untracked (by rwa [hw.tracked])]
        exact ⟨by simp [hw.station], by simp [hw.tracked], fun y hy hfl hb => by simp [hkept y hy hfl hb, heid, hb]⟩
      · obtain ⟨hstation, htracked, hevent⟩ := applyObjection_returns (s := w) (r := r) (i := i) (by rwa [hw.tracked]) (by rwa [hw.station])
          (by rwa [hw.leavePending])
        exact ⟨by simp [hstation], by simp [htracked], hsettle.hasEvent hevent⟩
      · obtain ⟨hstation, htracked, hholdoff, hstanding, hsource, hevent⟩ := applyObjection_listens (s := w) (r := r) (i := i)
          (by rwa [hw.tracked]) (by rwa [hw.station]) (by rwa [hw.leavePending])
        exact ⟨by simp [hstation], by simp [htracked], by simp [hholdoff, listenEpochs, hw.sp], by simp [hstanding, hw.standing],
          by simp [hsource, hw.rt], hsettle.hasEvent hevent⟩
      · obtain ⟨hstation, hqueue', hevent⟩ := applyObjection_leaves (s := w) (r := r) (i := i) (by rwa [hw.tracked])
          (by rwa [hw.station]) (by rwa [hw.leavePending])
        exact ⟨by simp [hstation], by simp [hqueue'], hsettle.hasEvent hevent⟩
    · have hprocess : w.processObject i o = w := processObject_of_not hid (by
        obtain h | h | ⟨e, r, he, hr, hn⟩ := h
        · exact .inl (by rw [hw.cq, h])
        · exact .inr (.inl h)
        · exact .inr (.inr ⟨e, r, by rw [hw.cq, he], hr, mt (objectionHolds_congr (by rw [hw.rt])).mp hn⟩))
      rw [hprocess]
      refine ⟨by simp [hw.cq], by simp [hw.rt], by simp [hw.sp], by simp [hw.station], by simp [hw.tracked], fun hn => ?_,
        fun hf => ?_⟩
      · rw [settle_bi, hother hn]
      · rw [settle_bi, hown hf]
  · have hheard : (s.heard.handleObject i o) = s.heard.dropBodies (·.objectsTo ⟨stationOfNibble o.origin, o.seq⟩) := by
      have hnot : s.heard.processesShared = false := by
        have hm : s.heard.isMember = false := (isMember_congr (takenIn_heard hn.1).station).trans (isMember_of_follower hf)
        have hcopy : s.heard.hasCopy = false := (takenIn_heard hn.1).hasCopy.trans hc
        rw [processesShared, hm, hcopy, Bool.and_false, Bool.or_false]
      rw [handleObject, hnot, doIf_false]
    refine ⟨_, (exec_objectAccepted i o s).trans (congrArg _ (acceptFrame_other (takes_of_follower hf) hn (.inl hi) _ _)), ?_⟩
    rw [hheard]
    refine ⟨by constructor <;> simp, by constructor <;> simp, by simp, by simp⟩
  · exact offerObjections_full hq
  · refine ⟨_, offerObjections_room hq, by simp, by simp, ?_, by simp, by simp, fun n => ?_⟩
    · obtain ⟨shed, readmit, heq⟩ := setQueue_frame (insertFrame ⟨.object id r, 0, false⟩ s.bi.queue) s
      rw [offered, heq]
      rfl
    · cases n <;> simp [inputRecord]
  · rw [offerAtBoundary, ho, ← hu]
    rfl
  · rw [offerAtBoundary, ho, ← hu]
    rfl
  · rw [offerOwedWithdrawal_of_some he, if_pos (by simp [ho, hph, hn]), offer_of_room _ hq]
    exact ⟨by simp [withdrawalPaid], by simp [withdrawalPaid], by simp [withdrawalPaid]⟩
  · rw [offerOwedWithdrawal_of_some he, if_pos (by simp [ho, hph, hn]), offer_of_full _ hq]
  · rw [offerOwedWithdrawal_of_some he, if_neg (by obtain h | h := h <;> simp [h])]
    rfl
  · rw [offerWithdrawal_of_asked ha, offer_of_room _ hq]
    refine ⟨by simp, fun z hz hun hnum hk hr => ?_, by simp, by simp⟩
    exact withdrawQueued_of_reported hz hun hnum hk hr
  · obtain h | h := h
    · exact offerWithdrawal_of_not_asked h
    · by_cases ha : s.WithdrawAsked e
      · rw [offerWithdrawal_of_asked ha, offer_of_full _ h]
      · exact offerWithdrawal_of_not_asked ha

end Sys2Proof.Machine
end

section
/-! The adoption of a ROSTER_REPLY (R15, R79, R84, R122, R123, R129, R191, R192). -/

namespace Sys2Proof.Machine

variable {s t u w : State} {i : StationId} {r : ReplyFields} {es : List RosterEntry}

namespace State

/-! ### What qualifies a reply (R84) -/

theorem asksForRoster_iff : s.asksForRoster = true ↔ (s.sc.station = .listen ∧ s.rt.copySource = .none)
    ∨ (s.sc.station = .resync ∧ (s.rt.copySource = .none ∨ s.rt.copySource = .old)) := by
  simp [asksForRoster]

theorem qualifies_iff : s.qualifies r es = true ↔ stationOfNibble r.asker = s.ownId ∧ s.asksForRoster = true
    ∧ (∀ k, s.rt.expectedKey = some k → k = lowestActive es) ∧ r.digest = digestOfCode r.roster r.duty r.tripSet := by
  cases h : s.rt.expectedKey <;> simp [qualifies, h, and_assoc]

theorem handleReply_qualified (he : entriesOfCode r.roster r.en = some es)
    (h : (s.replied (stationOfNibble r.asker)).qualifies r es = true) :
    s.handleReply r = (s.replied (stationOfNibble r.asker)).adoptReply r es := by
  rw [handleReply_eq, he]
  exact if_pos h

/-! ### What an adoption writes (R6, R23, R84, R93, R160) -/

/-- The reply adopted, before the target follows. -/
def rosterAdopted (r : ReplyFields) (es : List RosterEntry) (s : State) : State :=
  let s₁ := ((s.setRoster es).emptyQueue .resync).modCq fun cq => { cq with duty := r.duty }
  let s₂ := (s₁.setTripSet r.tripSet).modTb fun tb => { tb with en := r.en }
  let s₃ := s₂.modRt fun rt => { rt with
    groupFingerprint := some r.fingerprint, copySource := .reply, armed := false, countdown := 0 }
  ((s₃.modSc fun sc => { sc with standing := .held }).dropBodies (·.isQuery)).remode

theorem adoptReply_eq (r : ReplyFields) (es : List RosterEntry) (s : State) :
    s.adoptReply r es = (s.rosterAdopted r es).adoptTarget := rfl

@[simp] theorem rosterAdopted_kept (r : ReplyFields) (es : List RosterEntry) (s : State) :
    (s.rosterAdopted r es).sc = { s.sc with standing := .held } ∧ (s.rosterAdopted r es).tb = { s.tb with en := r.en }
      ∧ (s.rosterAdopted r es).rt = { s.rt with
          entries := es, groupFingerprint := some r.fingerprint, copySource := .reply, armed := false, countdown := 0 }
      ∧ (s.rosterAdopted r es).cq = { s.cq with entries := [], pendingObjections := [], duty := r.duty }
      ∧ (s.rosterAdopted r es).pu = s.pu ∧ (s.rosterAdopted r es).os.p = s.os.p
      ∧ (s.rosterAdopted r es).fu.tripSet = r.tripSet ∧ (s.rosterAdopted r es).sp.record = s.sp.record
      ∧ (s.rosterAdopted r es).bi.queue = s.bi.queue.filter fun y => !y.body.isQuery := by
  simp [rosterAdopted]

/-- O and the local cycle at an adoption that gives a target (R123, R129). -/
theorem adoptTarget_slewing (h : s.targetNow ≠ none) : s.adoptTarget.pu.slewing = false := by
  obtain ⟨x, hx⟩ := Option.ne_none_iff_exists'.mp h
  simp only [adoptTarget, jumpToTarget, hx]
  split
  next hon =>
    simp only [Bool.and_eq_true, Bool.not_eq_true'] at hon
    exact hon.2
  next =>
    rw [jumpTo_eq]

/-- O and the local cycle at an adoption that gives no target (R122, R127). -/
theorem adoptTarget_unplaced (h : s.targetNow = none) : s.adoptTarget.pu.slewing = false ∧ s.adoptTarget.pu.step = 0 := by
  obtain ⟨pu, os, ev, heq, -, -, -, hnone⟩ := adoptTarget_frame s
  obtain ⟨-, -, hslewing, hstep, -⟩ := hnone h
  rw [heq]
  exact ⟨hslewing, hstep⟩

/-- The target that an adoption leaves is the one that the roster gives. -/
theorem settle_adoptTarget (h : s.adoptTarget.pu.target = s.targetNow) : s.adoptTarget.settle = s.adoptTarget.remode := by
  refine settle_of_target ?_
  rw [h]
  exact targetNow_of_same (by simp) (by simp) (by simp)

theorem adoptTarget_target (s : State) : s.adoptTarget.pu.target = s.targetNow := by
  cases h : s.targetNow with
  | none => exact (adoptTarget_of_none h).1
  | some x => exact (adoptTarget_of_target h).1

/-- What a settled adoption leaves of the shared state and the standing. -/
theorem adopted_kept (r : ReplyFields) (es : List RosterEntry) (s : State) : (s.adoptReply r es).settle.rt.entries = es
    ∧ (s.adoptReply r es).settle.cq.entries = [] ∧ (s.adoptReply r es).settle.cq.duty = r.duty
    ∧ (s.adoptReply r es).settle.fu.tripSet = r.tripSet ∧ (s.adoptReply r es).settle.tb.en = r.en
    ∧ (s.adoptReply r es).settle.rt.groupFingerprint = some r.fingerprint
    ∧ (s.adoptReply r es).settle.rt.copySource = .reply ∧ (s.adoptReply r es).settle.rt.armed = false
    ∧ (s.adoptReply r es).settle.rt.countdown = 0 ∧ (s.adoptReply r es).settle.sc.standing = .held
    ∧ (s.adoptReply r es).settle.sc.station = s.sc.station
    ∧ (s.adoptReply r es).settle.rt.expectedKey = s.rt.expectedKey
    ∧ (∀ x ∈ (s.adoptReply r es).settle.bi.queue, x.body ≠ .query)
    ∧ (s.adoptReply r es).settle.tb.b = s.tb.b ∧ (s.adoptReply r es).settle.tb.k = s.tb.k := by
  rw [adoptReply_eq]
  refine ⟨by simp, by simp, by simp, by simp, by simp, by simp, by simp, by simp, by simp, by simp, by simp, by simp,
    fun x hx hb => ?_, by simp, by simp⟩
  have hx' : x ∈ s.bi.queue.filter fun y => !y.body.isQuery := by simpa using hx
  simpa [hb, QueuedBody.isQuery] using (List.mem_filter.mp hx').2

/-- Where the new roster gives the station a slot it is placed at once (R123, R129). -/
theorem adopted_placed (hf : s.isFollower = true) {slot : Nat} (hslot : slotOf es s.ownId = some slot) :
    (s.adoptReply r es).settle.pu.target = some (slot * s.period / phaseCount es)
      ∧ (s.adoptReply r es).settle.pu.offset = slot * s.period / phaseCount es
      ∧ (s.adoptReply r es).settle.pu.slewing = false := by
  have hnow : (s.rosterAdopted r es).targetNow = some (slot * s.period / phaseCount es) := by
    have hown : (s.rosterAdopted r es).ownId = s.ownId := ownId_congr (by simp)
    rw [targetNow_of_slot (slot := slot) (.inr (by rw [isFollower_congr (s := s) (by simp), hf])) (by rw [hown]; simpa using hslot)]
    simp [period]
  rw [adoptReply_eq, settle_adoptTarget (adoptTarget_target _)]
  obtain ⟨htarget, hoffset⟩ := adoptTarget_of_target hnow
  have hslewing := adoptTarget_slewing (s := s.rosterAdopted r es) (by simp [hnow])
  exact ⟨by simp [htarget], by simp [hoffset], by simp [hslewing]⟩

/-- Where it gives none the station goes on where it is, unslewed (R122, R127). -/
theorem adopted_unplaced (hslot : slotOf es s.ownId = none) :
    (s.adoptReply r es).settle.pu.target = none ∧ (s.adoptReply r es).settle.pu.offset = s.pu.offset
      ∧ (s.adoptReply r es).settle.pu.slewing = false ∧ (s.adoptReply r es).settle.pu.step = 0
      ∧ (s.pu.step = 0 → (s.adoptReply r es).settle.os.p = s.os.p
          ∧ (s.adoptReply r es).settle.pu.length = s.pu.length) := by
  have hnow : (s.rosterAdopted r es).targetNow = none := by
    have hown : (s.rosterAdopted r es).ownId = s.ownId := ownId_congr (by simp)
    exact targetNow_eq_none (.inr (by rw [hown]; simpa using hslot))
  rw [adoptReply_eq, settle_adoptTarget (adoptTarget_target _)]
  obtain ⟨htarget, hoffset, hkept⟩ := adoptTarget_of_none hnow
  obtain ⟨hslewing, hstep⟩ := adoptTarget_unplaced hnow
  refine ⟨by simp [htarget], by simp [hoffset], by simp [hslewing], by simp [hstep], fun h => ?_⟩
  obtain ⟨hlength, hos⟩ := hkept (by simpa using h)
  exact ⟨by simp [hos], by simp [hlength]⟩

end State

open State in
/-- Settles O48. -/
theorem rosterReplyAccepted : Obligations.RosterReplyAccepted := by
  intro i r s hf hn hi
  have hheard := takenIn_heard hn.1
  have hexec : exec (.rosterReplyAccepted i r) s = .next (s.heard.handleReply r).settle :=
    (exec_rosterReplyAccepted i r s).trans (congrArg _ (acceptFrame_other (takes_of_follower hf) hn (.inl hi) _ _))
  obtain ⟨w, hw⟩ : ∃ w, w = s.heard.replied (stationOfNibble r.asker) := ⟨_, rfl⟩
  have hkept : w.sc = s.heard.sc ∧ w.tb = s.tb ∧ w.pu = s.pu ∧ w.os = s.os ∧ w.sp = s.sp
      ∧ w.rt.expectedKey = s.rt.expectedKey ∧ w.rt.copySource = s.rt.copySource := by
    rw [hw, replied_eq, replied_rt]
    simp
  obtain ⟨hsc, htb, hpu, hos, hsp, hkey, hsource⟩ := hkept
  have hstation : w.sc.station = s.sc.station := by rw [hsc, hheard.station]
  have hown : w.ownId = s.ownId := ownId_congr (by rw [hsp])
  have hperiod : w.period = s.period := by simp only [period, hsp]
  have hqualifies (es : List RosterEntry) : w.qualifies r es = true ↔ stationOfNibble r.asker = s.ownId
      ∧ ((s.sc.station = .listen ∧ s.rt.copySource = .none)
        ∨ (s.sc.station = .resync ∧ (s.rt.copySource = .none ∨ s.rt.copySource = .old)))
      ∧ (∀ k, s.rt.expectedKey = some k → k = lowestActive es) ∧ r.digest = digestOfCode r.roster r.duty r.tripSet := by
    rw [qualifies_iff, asksForRoster_iff, hown, hkey, hsource, hstation]
  refine ⟨fun es hasks he hasker hexp hdigest => ?_, fun h => ?_⟩
  · have hadopt : s.heard.handleReply r = w.adoptReply r es := by
      rw [handleReply_qualified he (hw ▸ (hqualifies es).mpr ⟨hasker, hasks, hexp, hdigest⟩), hw]
    have hgates : s.os.GatesOk → (s.heard.handleReply r).settle.os.GatesOk := fun hg =>
      (steady_settle (steady_handleReply (Steady.rfl' (a := s.heard)))).gates (by rwa [hheard.os])
    rw [hadopt] at hexec hgates
    obtain ⟨hentries, hqueue, hduty, htrip, hen, hprint, hcopy, harmed, hcount, hstanding, hst, hexpected, hqueries, hb, hk⟩ := adopted_kept r es w
    refine ⟨_, hexec, hentries, hqueue, hduty, htrip, hen, hprint, hcopy, harmed, hcount, hstanding, hst.trans hstation, hexpected.trans hkey, hqueries,
      hb.trans (by rw [htb]), hk.trans (by rw [htb]), fun slot hslot => ?_, fun hslot => ?_, fun hg => ?_⟩
    · rw [← hperiod]
      exact adopted_placed ((isFollower_congr hstation).trans hf) (by rwa [hown])
    · rw [← hpu, ← hos]
      exact adopted_unplaced (by rwa [hown])
    · exact outputsOff_of_settled (settle_settled _)
        ((isMember_congr (hst.trans hstation)).trans (isMember_of_follower hf)) (hgates hg)
  · have hrests : s.heard.handleReply r = w := by
      rw [hw]
      refine handleReply_unqualified fun es he => ?_
      rw [← hw, Bool.eq_false_iff, Ne, hqualifies]
      rintro ⟨hasker, hasks, hexp, hdigest⟩
      obtain h | h | h | ⟨k, es', hk, he', hne⟩ | h | h | h | h := h
      · simp [h] at he
      · exact h hasker
      · exact h hdigest
      · rw [he] at he'
        obtain rfl := Option.some.inj he'
        exact hne (hexp k hk)
      all_goals simp [h] at hasks
    have hshared : w.SameShared s := hw ▸ (hheard.sameShared.trans' (sameShared_replied _ _))
    rw [hrests] at hexec
    refine ⟨_, hexec, ?_, by simp [hsource], by simp [hsc], by constructor <;> simp [htb]⟩
    constructor <;> simp [hshared.entries, hshared.queue, hshared.duty, hshared.tripSet]

end Sys2Proof.Machine
end

section
/-! A confirmed follower enters the group (R7, R16, R119): to MEMBER where its copy holds its entry, else to JOINING. -/

namespace Sys2Proof.Machine

variable {s t u w : State} {i : StationId} {f : BeatFields} {e : QueueEntry} {z : Ticket} {l : List QueueEntry}

namespace State

/-! ### MEMBER at a confirmation (R7, R16) -/

theorem jumpToTarget_placed (s : State) : s.jumpToTarget.pu.target = s.targetNow
    ∧ ∀ x, s.jumpToTarget.pu.target = some x → s.jumpToTarget.pu.offset = x := by
  cases h : s.targetNow with
  | none =>
    have htarget : s.jumpToTarget.pu.target = none := by
      simp only [jumpToTarget, h, recomputeTarget]
      split
      next hsame => exact hsame.symm
      next => rfl
    exact ⟨htarget, by simp [htarget]⟩
  | some x =>
    simp only [jumpToTarget, h]
    split
    next hon =>
      simp only [Bool.and_eq_true, decide_eq_true_iff] at hon
      obtain ⟨⟨htarget, hoffset⟩, -⟩ := hon
      exact ⟨htarget, fun y hy => hoffset.trans (Option.some.inj (htarget.symm.trans hy))⟩
    next =>
      rw [jumpTo_eq]
      exact ⟨rfl, fun y hy => Option.some.inj hy⟩

/-- What a follower is at once after its entry to MEMBER. -/
theorem enterMember_enters (hp : s.sc.leavePending = false) : s.enterMember.sc.station = .member
    ∧ s.enterMember.sc.standing = s.sc.standing ∧ s.enterMember.rt.copySource = .own
    ∧ s.enterMember.rt.entries = s.rt.entries ∧ (∀ x, s.enterMember.pu.target = some x → s.enterMember.pu.offset = x)
    ∧ s.enterMember.hasEvent .state = true := by
  have htests := becomeMember_eq_tests hp
  obtain ⟨htarget, hplaced⟩ := jumpToTarget_placed s.becomeMember.settle
  have hsettled : s.enterMember = s.becomeMember.settle.jumpToTarget.remode := by
    refine settle_of_target ?_
    rw [htarget]
    exact targetNow_of_same (by simp) (by simp) (by simp)
  have hmoved : Steady true (s.moveTo .member) s.becomeMember := by
    rw [htests]
    exact steady_memberTests (steady_modSc (steady_modRt .rfl' id) id)
  have hevent : s.enterMember.hasEvent .state = true :=
    (steady_settle (steady_jumpToTarget (steady_settle hmoved))).hasEvent (hasEvent_moveTo _ s)
  refine ⟨?_, ?_, ?_, (enterMember_shared s).1.entries.symm, ?_, hevent⟩
  · simp [enterMember, htests]
  · simp [enterMember, htests, enteredMember]
  · simp [enterMember, htests, enteredMember]
  · rw [hsettled]
    simpa using hplaced

/-! ### JOINING at a confirmation (R7, R16, R65) -/

theorem proposeAdmission_of_full (hq : 6 ≤ s.bi.queue.length) : s.proposeAdmission = s := by
  simp only [proposeAdmission, offerPropose_of_full _ hq]

theorem proposeAdmission_of_room (hq : s.bi.queue.length < 6) : s.proposeAdmission =
    (((s.proposed s.admitContent).moveTo .joining).doIf (s.sc.station = .resync) (dropGroupFrames (·.isAdmit))).modSc
      fun sc => { sc with tracked := some s.nextId } := by
  simp only [proposeAdmission, offerPropose_of_room _ hq]

theorem proposeAdmission_joins (hq : s.bi.queue.length < 6) : s.proposeAdmission.sc.station = .joining
    ∧ s.proposeAdmission.sc.standing = s.sc.standing
    ∧ s.proposeAdmission.sc.tracked = some ⟨s.ownId, s.cq.nextSeq⟩ ∧ s.proposeAdmission.cq.nextSeq = s.cq.nextSeq + 1
    ∧ s.proposeAdmission.cq.entries = s.cq.entries
    ∧ ⟨.propose s.cq.nextSeq (.admission s.sp.fingerprint s.ownKind), 0, false⟩ ∈ s.proposeAdmission.bi.queue
    ∧ (∀ y ∈ s.proposeAdmission.bi.queue, y.body ≠ .query) ∧ s.proposeAdmission.hasEvent .state = true := by
  have hmoved : ((s.proposed s.admitContent).moveTo .joining).bi.queue
      = (insertFrame ⟨.propose s.cq.nextSeq s.admitContent, 0, false⟩ s.bi.queue).filter fun y => !y.body.isQuery := by
    rw [moveTo_queue]
    simp [proposed]
  have hevent : ((s.proposed s.admitContent).moveTo .joining).hasEvent .state = true := hasEvent_moveTo _ _
  rw [proposeAdmission_of_room hq]
  generalize hw : (s.proposed s.admitContent).moveTo .joining = w at hmoved hevent
  have hkept : w.sc.station = .joining ∧ w.sc.standing = s.sc.standing ∧ w.cq.nextSeq = s.cq.nextSeq + 1
      ∧ w.cq.entries = s.cq.entries := by
    rw [← hw]
    simp [proposed]
  obtain ⟨hstation, hstanding, hseq, hentries⟩ := hkept
  refine ⟨by simp [hstation], by simp [hstanding], rfl, by simp [hseq], by simp [hentries], ?_, fun y hy => ?_, ?_⟩
  · have hmem : ⟨.propose s.cq.nextSeq (.admission s.sp.fingerprint s.ownKind), 0, false⟩ ∈ w.bi.queue := by
      rw [hmoved, List.mem_filter, mem_insertFrame]
      exact ⟨.inl rfl, rfl⟩
    cases decide (s.sc.station = .resync)
    · simpa using hmem
    · simpa [QueuedBody.isAdmit] using hmem
  · have hw' : y ∈ w.bi.queue := by
      cases hc : decide (s.sc.station = .resync)
      · simpa [hc] using hy
      · have hmem := hy
        simp only [hc, modSc_bi, doIf_true, dropGroupFrames_kept] at hmem
        exact List.mem_of_mem_filter hmem
    rw [hmoved] at hw'
    have hnot := (List.mem_filter.mp hw').2
    intro hb
    simp [hb, QueuedBody.isQuery] at hnot
  · have hsteady (c : Bool) : Steady true w ((w.doIf c (dropGroupFrames (·.isAdmit))).modSc fun sc =>
        { sc with tracked := some s.nextId }) := by
      cases c
      · exact steady_modSc .rfl' id
      · exact steady_modSc (steady_dropGroupFrames .rfl') id
    exact (hsteady _).hasEvent hevent

/-! ### The entry to the group (R7, R16) -/

/-- What a follower that may enter the group comes to. -/
structure EntersGroup (s t : State) : Prop where
  member : s.ownEntry.state ≠ .absent → t.sc.station = .member ∧ t.rt.copySource = .own ∧ t.rt.entries = s.rt.entries
    ∧ (∀ x, t.pu.target = some x → t.pu.offset = x) ∧ t.hasEvent .state = true
  joining : s.ownEntry.state = .absent → s.classLatched .shed = false → s.bi.queue.length < 6 →
    t.sc.station = .joining ∧ t.sc.tracked = some ⟨s.ownId, s.cq.nextSeq⟩ ∧ t.cq.nextSeq = s.cq.nextSeq + 1
      ∧ t.cq.entries = s.cq.entries
      ∧ ⟨.propose s.cq.nextSeq (.admission s.sp.fingerprint s.ownKind), 0, false⟩ ∈ t.bi.queue
      ∧ (∀ y ∈ t.bi.queue, y.body ≠ .query) ∧ t.hasEvent .state = true
  waits : s.ownEntry.state = .absent → (s.classLatched .shed = true ∨ 6 ≤ s.bi.queue.length) →
    t.sc = s.sc ∧ t.cq = s.cq ∧ t.bi = s.bi

theorem enterGroup_latched (ha : s.ownEntry.state = .absent) (hl : s.classLatched .shed = true) : s.enterGroup = s := by
  rw [enterGroup, if_neg (by simpa [isPresent_iff] using ha), if_pos hl]

theorem enterGroup_proposes (ha : s.ownEntry.state = .absent) (hl : s.classLatched .shed = false) :
    s.enterGroup = s.proposeAdmission.settle := by
  rw [enterGroup, if_neg (by simpa [isPresent_iff] using ha), if_neg (by simp [hl])]

theorem enterGroup_full (ha : s.ownEntry.state = .absent) (hl : s.classLatched .shed = false)
    (hq : 6 ≤ s.bi.queue.length) : s.enterGroup = s.settle := by
  rw [enterGroup_proposes ha hl, proposeAdmission_of_full hq]

theorem enterGroup_enters (hp : s.sc.leavePending = false) :
    s.EntersGroup s.enterGroup ∧ s.enterGroup.sc.standing = s.sc.standing := by
  by_cases ha : s.ownEntry.state = .absent
  · refine ⟨⟨fun h => absurd ha h, fun _ hl hq => ?_, fun _ h => ?_⟩, ?_⟩
    · obtain ⟨hstation, -, htracked, hseq, hentries, hmem, hquery, hevent⟩ := proposeAdmission_joins hq
      rw [enterGroup_proposes ha hl]
      exact ⟨by simp [hstation], by simp [htracked], by simp [hseq], by simp [hentries], by simpa using hmem,
        by simpa using hquery, (steady_settle (Steady.rfl' (w := true))).hasEvent hevent⟩
    · cases hl : s.classLatched .shed with
      | true =>
        rw [enterGroup_latched ha hl]
        exact ⟨rfl, rfl, rfl⟩
      | false =>
        rw [enterGroup_full ha hl (h.resolve_left (by simp [hl]))]
        exact ⟨by simp, by simp, by simp⟩
    · cases hl : s.classLatched .shed with
      | true => rw [enterGroup_latched ha hl]
      | false =>
        rw [enterGroup_proposes ha hl]
        obtain hq | hq := Nat.lt_or_ge s.bi.queue.length 6
        · simp [(proposeAdmission_joins hq).2.1]
        · simp [proposeAdmission_of_full hq]
  · have henter : s.enterGroup = s.enterMember := enterGroup_of_present ha
    obtain ⟨hstation, hstanding, hsource, hentries, hplaced, hevent⟩ := enterMember_enters hp
    rw [henter]
    exact ⟨⟨fun _ => ⟨hstation, hsource, hentries, hplaced, hevent⟩, fun h => absurd h ha, fun h => absurd h ha⟩, hstanding⟩

theorem enterGroup_station (hp : s.sc.leavePending = false) : s.enterGroup.sc.station = .member
    ∨ s.enterGroup.sc.station = .joining ∨ s.enterGroup.sc.station = s.sc.station := by
  obtain ⟨henters, -⟩ := enterGroup_enters hp
  by_cases ha : s.ownEntry.state = .absent
  · obtain hq | hq := Nat.lt_or_ge s.bi.queue.length 6
    · cases hl : s.classLatched .shed with
      | true => exact .inr (.inr (by rw [(henters.waits ha (.inl hl)).1]))
      | false => exact .inr (.inl (henters.joining ha hl hq).1)
    · exact .inr (.inr (by rw [(henters.waits ha (.inr hq)).1]))
  · exact .inl (henters.member ha).1

theorem leaves_enterGroup (s : State) : s.Leaves s.enterGroup := by
  unfold enterGroup
  split
  · exact ((leaves_becomeMember s).trans (leaves_settle _)).trans
      ((Leaves.of_kept (by simp) (by simp) (by simp) (by simp)).trans (leaves_settle _))
  · split
    · exact .refl s
    · refine Leaves.trans ?_ (leaves_settle _)
      obtain hq | hq := Nat.lt_or_ge s.bi.queue.length 6
      · rw [proposeAdmission_of_room hq]
        refine (((leaves_proposed _ s).trans (leaves_moveTo .joining _)).trans (leaves_doIf ?_)).trans
          (.of_kept rfl rfl rfl rfl)
        exact ⟨by constructor <;> simp, by simp, .inl (by simp), fun y hy => .inl (by
          simp only [dropGroupFrames_kept] at hy
          exact List.mem_of_mem_filter hy)⟩
      · rw [proposeAdmission_of_full hq]
        exact .refl s

theorem enAdopted_enterGroup (s : State) : s.enterGroup.tb.enAdopted = s.tb.enAdopted := by
  unfold enterGroup
  split
  · simp [enterMember, becomeMember_tb]
  · split
    · rfl
    · obtain hq | hq := Nat.lt_or_ge s.bi.queue.length 6
      · rw [proposeAdmission_of_room hq]
        simp [moveTo_tb]
      · simp [proposeAdmission_of_full hq]

/-! ### The join test and the resync step (R7, R16) -/

theorem joinTest_rests (h : s.sc.station ≠ .listen ∨ s.sc.standing ≠ .confirmed ∨ s.tb.state ≠ .locked
    ∨ s.sc.joinHoldoff ≠ 0) : s.joinTest = s := by
  have hnot : (decide (s.sc.station = .listen) && decide (s.sc.standing = .confirmed) && decide (s.tb.state = .locked)
      && decide (s.sc.joinHoldoff = 0)) = false := by
    rw [Bool.eq_false_iff, Ne, Bool.and_eq_true, Bool.and_eq_true, Bool.and_eq_true]
    simp only [decide_eq_true_iff]
    tauto
  rw [joinTest, hnot, doIf_false]

theorem joinTest_enters (hs : s.sc.station = .listen) (hc : s.sc.standing = .confirmed) (hl : s.tb.state = .locked)
    (hh : s.sc.joinHoldoff = 0) : s.joinTest = s.enterGroup := by
  simp [joinTest, hs, hc, hl, hh]

theorem resyncTest_rests (h : s.sc.station ≠ .resync ∨ s.sc.standing ≠ .confirmed) : s.resyncTest = s := by
  have hnot : (decide (s.sc.station = .resync) && decide (s.sc.standing = .confirmed)) = false := by
    rw [Bool.eq_false_iff, Ne, Bool.and_eq_true]
    simp only [decide_eq_true_iff]
    tauto
  rw [resyncTest, hnot, doIf_false]

theorem resyncTest_enters (hs : s.sc.station = .resync) (hc : s.sc.standing = .confirmed) :
    s.resyncTest = s.enterGroup := by
  simp [resyncTest, hs, hc]

/-! ### The comparison of a BEAT with the copy (R86, R87) -/

/-- The copy confirmed, before the join or resync step. -/
def confirmed (s : State) : State := s.modSc fun sc => { sc with standing := .confirmed }

theorem confirmCopy_waits (hh : s.sc.standing = .held) (hs : s.sc.station = .listen)
    (h : s.tb.state ≠ .locked ∨ s.sc.joinHoldoff ≠ 0) : s.confirmCopy = s.confirmed := by
  rw [confirmCopy, if_pos hh]
  have hjoin : s.confirmed.joinTest = s.confirmed := joinTest_rests (h.elim (.inr ∘ .inr ∘ .inl) (.inr ∘ .inr ∘ .inr))
  exact (congrArg resyncTest hjoin).trans (resyncTest_rests (.inl (by simp [confirmed, hs])))

theorem confirmCopy_enters (hh : s.sc.standing = .held) (hp : s.sc.leavePending = false)
    (h : (s.sc.station = .listen ∧ s.tb.state = .locked ∧ s.sc.joinHoldoff = 0) ∨ s.sc.station = .resync) :
    s.confirmCopy = s.confirmed.enterGroup := by
  rw [confirmCopy, if_pos hh]
  obtain ⟨hs, hl, hz⟩ | hs := h
  · have hjoin : s.confirmed.joinTest = s.confirmed.enterGroup := joinTest_enters hs rfl hl hz
    refine (congrArg resyncTest hjoin).trans (resyncTest_rests (.inl ?_))
    obtain h | h | h := enterGroup_station (s := s.confirmed) hp
    · simp [h]
    · simp [h]
    · rw [h]
      simp [confirmed, hs]
  · have hjoin : s.confirmed.joinTest = s.confirmed := joinTest_rests (.inl (by simp [confirmed, hs]))
    exact (congrArg resyncTest hjoin).trans (resyncTest_enters hs rfl)

theorem compareBeat_confirms (hf : s.isFollower = true) (hc : s.hasCopy = true) (ha : s.rt.armed = true)
    (hr : f.resync = false) (he : f.en = s.tb.en) (hd : f.digest = s.rt.epochDigest) (h0 : f.depth = 0) :
    s.compareBeat f = s.confirmCopy := by
  rw [compareBeat, if_neg (by simp [hf, hc, ha, hr]), if_neg (by simp [he]), if_pos hd, if_pos h0]

theorem compareBeat_misses (hf : s.isFollower = true) (hc : s.hasCopy = true) (ha : s.rt.armed = true)
    (hr : f.resync = false) (h : f.en ≠ s.tb.en ∨ (f.en = s.tb.en ∧ f.digest ≠ s.rt.epochDigest ∧ f.depth = 0)) :
    s.compareBeat f = s.missedFrame := by
  rw [compareBeat, if_neg (by simp [hf, hc, ha, hr])]
  obtain h | ⟨he, hd, h0⟩ := h
  · exact if_pos h
  · rw [if_neg (by simp [he]), if_neg hd, if_pos h0]

theorem compareBeat_rests (he : f.en = s.tb.en) (hd : f.digest ≠ s.rt.epochDigest) (h0 : f.depth ≠ 0) :
    s.compareBeat f = s := by
  rw [compareBeat, if_neg (c := f.en ≠ s.tb.en) (by simp [he]), if_neg hd, if_neg h0, ite_self]

/-- What a comparison in LISTEN or RESYNC comes to. -/
theorem compareBeat_cases (hs : s.sc.station = .listen ∨ s.sc.station = .resync) : s.compareBeat f = s
    ∨ s.compareBeat f = s.discardCopy ∨ s.compareBeat f = s.confirmCopy := by
  unfold compareBeat
  repeat' split
  · exact .inl rfl
  · exact .inr (.inl (missedFrame_listen hs))
  · exact .inr (.inr rfl)
  · exact .inl rfl
  · exact .inr (.inl (missedFrame_listen hs))
  · exact .inl rfl

theorem leaves_confirmCopy (s : State) : s.Leaves s.confirmCopy := by
  have hconfirmed : s.Leaves s.confirmed := .of_kept rfl rfl rfl rfl
  have hjoin : s.Leaves s.confirmed.joinTest := hconfirmed.trans (by
    rw [joinTest]
    exact leaves_doIf (leaves_enterGroup _))
  have hresync : s.Leaves s.confirmed.joinTest.resyncTest := hjoin.trans (by
    rw [resyncTest]
    exact leaves_doIf (leaves_enterGroup _))
  obtain h | h : s.confirmCopy = s.confirmed.joinTest.resyncTest ∨ s.confirmCopy = s := by
    unfold confirmCopy
    split
    · exact .inl rfl
    · exact .inr rfl
  · rwa [h]
  · rw [h]
    exact .refl s

theorem enAdopted_confirmCopy (s : State) : s.confirmCopy.tb.enAdopted = s.tb.enAdopted := by
  have hstep (c : Bool) (u : State) : (u.doIf c enterGroup).tb.enAdopted = u.tb.enAdopted :=
    doIf_keeps (P := fun v => v.tb.enAdopted) (enAdopted_enterGroup u)
  unfold confirmCopy
  split
  · exact (hstep _ _).trans (hstep _ _)
  · rfl

/-- A comparison in LISTEN or RESYNC brings no entry and no pending objection, and leaves the adoption of EN. -/
theorem compareBeat_keeps (hs : s.sc.station = .listen ∨ s.sc.station = .resync) :
    (s.compareBeat f).tb.enAdopted = s.tb.enAdopted
      ∧ (s.cq.entries = [] → s.cq.pendingObjections = [] →
          (s.compareBeat f).cq.entries = [] ∧ (s.compareBeat f).cq.pendingObjections = []) := by
  obtain h | h | h := compareBeat_cases (f := f) hs
  · rw [h]
    exact ⟨rfl, fun he ho => ⟨he, ho⟩⟩
  · rw [h]
    exact ⟨by simp, fun _ _ => ⟨by simp, by simp [discardCopy]⟩⟩
  · rw [h]
    have hleaves := leaves_confirmCopy s
    refine ⟨enAdopted_confirmCopy s, fun he ho => ⟨hleaves.shared.queue.symm.trans he, ?_⟩⟩
    exact List.eq_nil_iff_forall_not_mem.mpr fun x hx => by simpa [ho] using hleaves.pending x hx

end State
end Sys2Proof.Machine
end

section
/-! A BEAT flagged MEMBER at a follower: the adoption of EN and the comparison with the copy (R5 to R7, R9, R15, R16, R23, R80,
R86, R87, R117, R119). -/

namespace Sys2Proof.Machine

variable {s t u v w : State} {i j : StationId} {f : BeatFields} {e : QueueEntry} {z : Ticket} {l : List QueueEntry}
  {r : VoidReason}

/-- The ticket as an emptied Commit Queue leaves it. -/
def Ticket.voidedBy (r : VoidReason) (z : Ticket) : Ticket :=
  { z with state := .voided r, withdrawRequest := false, withdrawQueued := false }

namespace State

/-! ### The tickets of an emptied Commit Queue (R182) -/

/-- The tickets of the entries of a list VOIDED. -/
def voidTicketsOf (r : VoidReason) (l : List QueueEntry) (s : State) : State :=
  l.foldl (fun s e => s.reportTicket e.id.seq e.content (Ticket.finish (.voided r))) s

theorem emptyQueue_eq (r : VoidReason) (s : State) : s.emptyQueue r
    = (s.voidTicketsOf r (s.cq.entries.filter (·.isLocal))).modCq fun cq =>
        { cq with entries := [], pendingObjections := [] } := rfl

theorem steady_voidTicketsOf (r : VoidReason) (l : List QueueEntry) (s : State) : Steady true s (s.voidTicketsOf r l) :=
  steady_foldl (fun _ _ => steady_reportTicket .rfl') _ .rfl'

theorem mem_tickets_voidTicketsOf (hz : z ∈ s.sp.tickets) (hu : z.unfinished = false) :
    z ∈ (s.voidTicketsOf r l).sp.tickets := by
  induction l generalizing s with
  | nil => exact hz
  | cons x xs ih => exact ih (mem_tickets_updateTickets hz hu)

theorem ticket_voidTicketsOf (he : e ∈ l) (hz : z ∈ s.sp.tickets) (hu : z.unfinished = true) (hn : z.number = e.id.seq)
    (hk : z.kind.fits e.content = true) (hr : z.reserved = false) :
    z.voidedBy r ∈ (s.voidTicketsOf r l).sp.tickets ∧ (s.voidTicketsOf r l).hasEvent .ticket = true := by
  induction l generalizing s with
  | nil => exact absurd he (by simp)
  | cons x xs ih =>
    change z.voidedBy r ∈ ((s.reportTicket x.id.seq x.content (Ticket.finish (.voided r))).voidTicketsOf r xs).sp.tickets
      ∧ ((s.reportTicket x.id.seq x.content (Ticket.finish (.voided r))).voidTicketsOf r xs).hasEvent .ticket = true
    by_cases hx : z.number = x.id.seq ∧ z.kind.fits x.content = true
    · obtain ⟨hxn, hxk⟩ := hx
      rw [← hxn]
      have hmem := mem_tickets_reportTicket (d := x.content) (Ticket.finish (.voided r)) hz hu hxk hr
      have hevent := hasEvent_reportTicket (f := Ticket.finish (.voided r)) hz hu hxk hr rfl
      refine ⟨mem_tickets_voidTicketsOf ?_ rfl, (steady_voidTicketsOf r xs _).hasEvent hevent⟩
      simpa [Ticket.voidedBy, Ticket.finish, hr] using hmem
    · have hkeeps : z ∈ (s.reportTicket x.id.seq x.content (Ticket.finish (.voided r))).sp.tickets := by
        rw [reportTicket, (updateTickets_kept ..).2.2.2.2.2.2.2.2.2.2.2.2.2]
        refine List.mem_map.mpr ⟨z, hz, if_neg ?_⟩
        simp only [Bool.and_eq_true, decide_eq_true_iff]
        exact fun ⟨_, ⟨h1, h2⟩, _⟩ => hx ⟨h1, h2⟩
      have hmem : e ∈ xs := by
        obtain rfl | h := List.mem_cons.mp he
        · exact absurd ⟨hn, hk⟩ hx
        · exact h
      exact ih hmem hkeeps

theorem ticket_emptyQueue (he : e ∈ s.cq.entries) (hl : e.isLocal = true) (hz : z ∈ s.sp.tickets)
    (hu : z.unfinished = true) (hn : z.number = e.id.seq) (hk : z.kind.fits e.content = true) (hr : z.reserved = false) :
    z.voidedBy r ∈ (s.emptyQueue r).sp.tickets ∧ (s.emptyQueue r).hasEvent .ticket = true :=
  ticket_voidTicketsOf (l := s.cq.entries.filter (·.isLocal)) (List.mem_filter.mpr ⟨he, hl⟩) hz hu hn hk hr

/-! ### A BEAT recorded at a follower (R66, R72) -/

theorem state_recordBeat (f : BeatFields) (i j : StationId) (s : State) :
    ((s.recordBeat i f).entry j).state = (s.entry j).state := by
  by_cases hj : j = i
  · subst hj
    obtain hl | hl := Nat.lt_or_ge j.val s.rt.entries.length
    · simp [recordBeat_eq, entry, hl]
    · simp [recordBeat_eq, entry, List.set_eq_of_length_le hl]
  · rw [entry_recordBeat_ne f hj]

@[simp] theorem recordBeat_kept (i : StationId) (f : BeatFields) (s : State) : (s.recordBeat i f).sc = s.sc
    ∧ (s.recordBeat i f).tb = s.tb ∧ (s.recordBeat i f).bi = s.bi ∧ (s.recordBeat i f).cq = s.cq
    ∧ (s.recordBeat i f).pu = s.pu ∧ (s.recordBeat i f).os = s.os ∧ (s.recordBeat i f).fu = s.fu
    ∧ (s.recordBeat i f).sp = s.sp ∧ (s.recordBeat i f).rt.copySource = s.rt.copySource
    ∧ (s.recordBeat i f).rt.armed = s.rt.armed ∧ (s.recordBeat i f).rt.epochDigest = s.rt.epochDigest :=
  ⟨rfl, rfl, rfl, rfl, rfl, rfl, rfl, rfl, rfl, rfl, rfl⟩

/-! ### EN adopted, and the group noted (R15, R23, R80) -/

@[simp] theorem hearGroup_kept (f : BeatFields) (s : State) : (s.hearGroup f).tb = s.tb ∧ (s.hearGroup f).rt = s.rt
    ∧ (s.hearGroup f).bi = s.bi ∧ (s.hearGroup f).cq = s.cq ∧ (s.hearGroup f).pu = s.pu ∧ (s.hearGroup f).os = s.os
    ∧ (s.hearGroup f).fu = s.fu ∧ (s.hearGroup f).sp = s.sp ∧ (s.hearGroup f).sc.station = s.sc.station
    ∧ (s.hearGroup f).sc.standing = s.sc.standing ∧ (s.hearGroup f).sc.leavePending = s.sc.leavePending
    ∧ (s.hearGroup f).sc.tracked = s.sc.tracked ∧ (s.hearGroup f).sc.joinHoldoff = s.sc.joinHoldoff
    ∧ (s.hearGroup f).sc.frameSinceListen = s.sc.frameSinceListen := by
  rw [hearGroup]
  generalize (decide (s.sc.station = .resync) && !f.resync) = c
  cases c <;> simp

theorem hearGroup_quiet (hr : f.resync = false) (h : s.sc.station = .resync ∨ s.sc.quiet = 0) :
    (s.hearGroup f).sc.quiet = 0 := by
  by_cases hs : s.sc.station = .resync
  · simp [hearGroup, hs, hr]
  · simp [hearGroup, hs, h.resolve_left hs]

/-- The group noted: the lowest ACTIVE ID heard (R80). -/
theorem noteGroup_follower (hf : s.isFollower = true) (hr : f.resync = false) : s.noteGroup f = s.modRt fun rt =>
    { rt with heardGroup := some (rt.heardGroup.elim f.lowestActive.toNat (min f.lowestActive.toNat)) } := by
  simp [noteGroup, hf, hr]

theorem adoptEpoch_rests (h : s.tb.enAdopted = true) : s.adoptEpoch f = s := if_neg (by simp [h])

theorem adoptEpoch_adopts (hs : s.sc.station = .listen ∨ s.sc.station = .resync) (hr : f.resync = false)
    (ha : s.tb.enAdopted = false) : s.adoptEpoch f = (s.doIf (f.en ≠ s.tb.en) (emptyQueue .resync)).modTb fun tb =>
      { tb with en := f.en, enAdopted := true } :=
  if_pos (by obtain hs | hs := hs <;> simp [hs, hr, ha])

/-- EN adopted: the queue of another EN is emptied (R23, R119). -/
theorem adoptEpoch_kept (hs : s.sc.station = .listen ∨ s.sc.station = .resync) (hr : f.resync = false)
    (ha : s.tb.enAdopted = false) : (s.adoptEpoch f).sc = s.sc ∧ (s.adoptEpoch f).rt = s.rt
      ∧ (s.adoptEpoch f).bi = s.bi ∧ (s.adoptEpoch f).fu = s.fu
      ∧ (s.adoptEpoch f).tb = { s.tb with en := f.en, enAdopted := true }
      ∧ (f.en = s.tb.en → (s.adoptEpoch f).cq = s.cq)
      ∧ (f.en ≠ s.tb.en → (s.adoptEpoch f).cq = { s.cq with entries := [], pendingObjections := [] }
          ∧ (s.adoptEpoch f).sp = (s.emptyQueue .resync).sp) := by
  rw [adoptEpoch_adopts hs hr ha]
  by_cases he : f.en = s.tb.en <;> simp [he]

/-- What a BEAT flagged MEMBER tells a follower before it is compared. -/
def groupHeard (f : BeatFields) (s : State) : State := ((s.adoptEpoch f).hearGroup f).noteGroup f

theorem groupHeard_station (f : BeatFields) (s : State) : (s.groupHeard f).sc.station = s.sc.station := by
  have hadopt : (s.adoptEpoch f).sc.station = s.sc.station := by
    unfold adoptEpoch
    split
    · simp
    · rfl
  rw [groupHeard, noteGroup]
  exact (doIf_keeps (P := fun v => v.sc.station) rfl).trans ((hearGroup_kept f _).2.2.2.2.2.2.2.2.1.trans hadopt)

theorem handleBeat_follower (hf : s.isFollower = true) (hr : beatInRange f = true) : s.handleBeat i f =
    if ((s.groupHeard f).entry i).isPresent then ((s.groupHeard f).recordBeat i f).compareBeat f else s.groupHeard f := by
  have hm : (s.groupHeard f).isMember = false :=
    (isMember_congr (groupHeard_station f s)).trans (isMember_of_follower hf)
  have hnot : ((s.groupHeard f).strangerRule i f) = s.groupHeard f := by
    rw [strangerRule, hm]
    rfl
  rw [handleBeat, hr]
  change (if ((s.groupHeard f).entry i).isPresent then ((s.groupHeard f).recordBeat i f).compareBeat f
    else (s.groupHeard f).strangerRule i f) = _
  rw [hnot]

/-- The first BEAT flagged MEMBER: its EN, and the group it tells of (R23, R80, R119). -/
theorem groupHeard_first (hs : s.sc.station = .listen ∨ s.sc.station = .resync) (hr : f.resync = false)
    (ha : s.tb.enAdopted = false) : (s.groupHeard f).tb = { s.tb with en := f.en, enAdopted := true }
      ∧ (s.groupHeard f).sc.standing = s.sc.standing
      ∧ (s.groupHeard f).sc.frameSinceListen = s.sc.frameSinceListen
      ∧ (s.sc.station = .resync ∨ s.sc.quiet = 0 → (s.groupHeard f).sc.quiet = 0)
      ∧ (s.groupHeard f).rt = { s.rt with
          heardGroup := some (s.rt.heardGroup.elim f.lowestActive.toNat (min f.lowestActive.toNat)) }
      ∧ (f.en = s.tb.en → (s.groupHeard f).cq = s.cq)
      ∧ (f.en ≠ s.tb.en → (s.groupHeard f).cq = { s.cq with entries := [], pendingObjections := [] }
          ∧ (s.groupHeard f).sp = (s.emptyQueue .resync).sp) := by
  obtain ⟨hsc, hrt, -, -, htb, hcq, hempty⟩ := adoptEpoch_kept hs hr ha
  have hf : ((s.adoptEpoch f).hearGroup f).isFollower = true := by
    obtain hs | hs := hs <;> simp [isFollower, hsc, hs]
  have hquiet := hearGroup_quiet (s := s.adoptEpoch f) hr
  rw [hsc] at hquiet
  rw [groupHeard, noteGroup_follower hf hr]
  exact ⟨by simp [htb], by simp [hsc], by simp [hsc], by simpa using hquiet, by simp [hrt], by simpa using hcq,
    by simpa using hempty⟩

/-- A later BEAT flagged MEMBER tells of the group alone (R80). -/
theorem groupHeard_later (hf : s.isFollower = true) (hr : f.resync = false) (ha : s.tb.enAdopted = true) :
    s.groupHeard f = (s.hearGroup f).modRt fun rt =>
      { rt with heardGroup := some (rt.heardGroup.elim f.lowestActive.toNat (min f.lowestActive.toNat)) } := by
  rw [groupHeard, adoptEpoch_rests ha, noteGroup_follower ((isFollower_congr (by simp)).trans hf) hr]

end State
end Sys2Proof.Machine
end

section
/-! A BEAT flagged MEMBER accepted by a follower (R5 to R7, R9, R15, R16, R23, R80, R86, R87, R117, R119). -/

namespace Sys2Proof.Machine

variable {s t u v w : State} {i j : StationId} {f : BeatFields} {e : QueueEntry} {z : Ticket}

namespace State

theorem exec_beat_follower (hf : s.isFollower = true) (hn : s.NotSending) (hi : i ≠ s.ownId) :
    exec (.beatAccepted i f) s = .next (s.heard.handleBeat i f).settle :=
  (exec_beatAccepted i f s).trans (congrArg _ (acceptFrame_other (takes_of_follower hf) hn (.inl hi) _ _))

theorem NoCopy.settle (h : s.NoCopy) : s.settle.NoCopy := by
  constructor <;> simp [h.entries, h.queue, h.duty, h.tripSet, h.source, h.armed, h.standing]

/-! ### The first BEAT (R23, R119) -/

/-- LISTEN and RESYNC have heard a frame of the group (R5, R15). -/
theorem heard_quiet (hs : s.sc.station = .listen ∨ s.sc.station = .resync) :
    (s.heard.sc.station = .resync ∨ s.heard.sc.quiet = 0)
      ∧ (s.sc.station = .listen → s.heard.sc.frameSinceListen = true) := by
  by_cases hl : s.sc.station = .listen
  · rw [heard_of_listen hl]
    exact ⟨.inr rfl, fun _ => rfl⟩
  · refine ⟨.inl ?_, fun h => absurd h hl⟩
    rw [heard_of_ne hl]
    exact hs.resolve_left hl

/-- The first BEAT of a station without an entry: EN, the group, and nothing else (R23, R80, R119). -/
theorem groupHeard_stranger (hs : s.sc.station = .listen ∨ s.sc.station = .resync) (ha : s.bi.attempt = none)
    (hr : f.resync = false) (hen : s.tb.enAdopted = false) (ht : t = (s.heard.groupHeard f).settle) :
    t.sc.quiet = 0 ∧ t.sc.station = s.sc.station ∧ (s.sc.station = .listen → t.sc.frameSinceListen = true)
      ∧ t.rt.heardGroup = some (s.rt.heardGroup.elim f.lowestActive.toNat (min f.lowestActive.toNat))
      ∧ t.rt.entries = s.rt.entries ∧ t.rt.copySource = s.rt.copySource ∧ t.sc.standing = s.sc.standing
      ∧ (f.en = s.tb.en → t.cq = s.cq)
      ∧ (f.en ≠ s.tb.en → ∀ e ∈ s.cq.entries, e.isLocal = true → ∀ z ∈ s.sp.tickets, z.unfinished = true →
          z.number = e.id.seq → z.kind.fits e.content = true → z.reserved = false →
          { z with state := .voided .resync, withdrawRequest := false, withdrawQueued := false } ∈ t.sp.tickets
          ∧ t.hasEvent .ticket = true) := by
  have hheard := takenIn_heard ha
  obtain ⟨hsilent, hframe⟩ := heard_quiet hs
  obtain ⟨-, hstanding, hsince, hquiet, hrt, hcq, hempty⟩ := groupHeard_first (s := s.heard) (f := f)
    (by rwa [hheard.station]) hr (by rwa [hheard.tb])
  rw [hheard.tb] at hcq hempty
  subst ht
  refine ⟨by simpa using hquiet hsilent, by simp [groupHeard_station], fun h => ?_, by simp [hrt],
    by simp [hrt], by simp [hrt], by simp [hstanding],
    fun he => by simp [hcq he], fun he e hmem hl z hz hu hn hk hres => ?_⟩
  · simp [hsince, hframe h]
  · obtain ⟨-, hsp⟩ := hempty he
    obtain ⟨hticket, hevent⟩ := ticket_emptyQueue (s := s.heard) (r := .resync) (by rwa [hheard.cq]) hl
      (by rwa [hheard.sp]) hu hn hk hres
    refine ⟨by simpa [hsp, Ticket.voidedBy] using hticket, (steady_settle (Steady.rfl' (w := true))).hasEvent ?_⟩
    rw [hasEvent, hsp]
    exact hevent

/-- What the adoption of EN leaves stands after the comparison. -/
theorem compareBeat_epoch (hs : s.sc.station = .listen ∨ s.sc.station = .resync) : (s.compareBeat f).tb.en = s.tb.en
    ∧ (s.compareBeat f).tb.enAdopted = s.tb.enAdopted ∧ (s.compareBeat f).tb.b = s.tb.b
    ∧ (s.compareBeat f).tb.k = s.tb.k
    ∧ (s.cq.entries = [] → s.cq.pendingObjections = [] →
        (s.compareBeat f).cq.entries = [] ∧ (s.compareBeat f).cq.pendingObjections = []) := by
  obtain ⟨hadopted, hkept⟩ := compareBeat_keeps (f := f) hs
  have hsteady : Steady true s (s.compareBeat f) := steady_compareBeat .rfl'
  obtain ⟨hb, hk, hen, -⟩ := hsteady.counters rfl
  exact ⟨hen, hadopted, hb, hk, hkept⟩

/-- The first BEAT, whoever sent it (R23, R119). -/
theorem handleBeat_first (hs : s.sc.station = .listen ∨ s.sc.station = .resync) (ha : s.bi.attempt = none)
    (hrange : beatInRange f = true) (hr : f.resync = false) (hen : s.tb.enAdopted = false)
    (ht : t = (s.heard.handleBeat i f).settle) : t.tb.en = f.en ∧ t.tb.enAdopted = true ∧ t.tb.b = s.tb.b
      ∧ t.tb.k = s.tb.k ∧ (f.en ≠ s.tb.en → t.cq.entries = [] ∧ t.cq.pendingObjections = []) := by
  have hheard := takenIn_heard ha
  obtain ⟨htb, -, -, -, -, -, hempty⟩ := groupHeard_first (s := s.heard) (f := f)
    (by rwa [hheard.station]) hr (by rwa [hheard.tb])
  rw [hheard.tb] at htb hempty
  have hf : s.heard.isFollower = true := by
    rw [hheard.isFollower]
    obtain hs | hs := hs <;> simp [isFollower, hs]
  have hst : (s.heard.groupHeard f).sc.station = .listen ∨ (s.heard.groupHeard f).sc.station = .resync := by
    rwa [groupHeard_station, hheard.station]
  rw [handleBeat_follower hf hrange] at ht
  generalize s.heard.groupHeard f = v at htb hempty hst ht
  by_cases hp : (v.entry i).isPresent = true
  · rw [if_pos hp] at ht
    obtain ⟨hen', hadopted, hb, hk, hkept⟩ := compareBeat_epoch (s := v.recordBeat i f) (f := f) hst
    generalize (v.recordBeat i f).compareBeat f = c at ht hen' hadopted hb hk hkept
    rw [ht]
    refine ⟨by simp [hen', htb], by simp [hadopted, htb], by simp [hb, htb], by simp [hk, htb], fun he => ?_⟩
    obtain ⟨hcq, -⟩ := hempty he
    simpa using hkept (by simp [hcq]) (by simp [hcq])
  · rw [if_neg hp] at ht
    rw [ht]
    refine ⟨by simp [htb], by simp [htb], by simp [htb], by simp [htb], fun he => ?_⟩
    obtain ⟨hcq, -⟩ := hempty he
    simp [hcq]

/-! ### A later BEAT, compared with the copy (R86, R87, R117) -/

/-- The state in which a BEAT of the roster is compared: nothing but what was heard is new. -/
structure Compared (s v : State) : Prop where
  sc : v.sc.station = s.sc.station ∧ v.sc.standing = s.sc.standing ∧ v.sc.leavePending = s.sc.leavePending
    ∧ v.sc.tracked = s.sc.tracked ∧ v.sc.joinHoldoff = s.sc.joinHoldoff
  tb : v.tb = s.tb
  queue : v.bi.queue = s.bi.queue
  cq : v.cq = s.cq
  sp : v.sp = s.sp
  copySource : v.rt.copySource = s.rt.copySource
  armed : v.rt.armed = s.rt.armed
  digest : v.rt.epochDigest = s.rt.epochDigest
  standing : ∀ j, (v.entry j).state = (s.entry j).state
  input : ∀ n, v.inputRecord n = s.inputRecord n

theorem handleBeat_later (hf : s.isFollower = true) (ha : s.bi.attempt = none) (hrange : beatInRange f = true)
    (hr : f.resync = false) (hen : s.tb.enAdopted = true) (hp : (s.entry i).state ≠ .absent) :
    ∃ v, Compared s v ∧ s.heard.handleBeat i f = v.compareBeat f := by
  have hheard := takenIn_heard ha
  have hf' : s.heard.isFollower = true := by rwa [hheard.isFollower]
  obtain ⟨u, hu⟩ : ∃ u, u = s.heard.groupHeard f := ⟨_, rfl⟩
  have hlater := groupHeard_later hf' hr (by rwa [hheard.tb])
  rw [← hu] at hlater
  have hentry (j : StationId) : u.entry j = s.entry j := entry_congr (by simp [hlater]) j
  refine ⟨u.recordBeat i f, ⟨?_, by simp [hlater], ?_, by simp [hlater], by simp [hlater],
    by simp [hlater], by simp [hlater], by simp [hlater], fun j => ?_, fun n => ?_⟩, ?_⟩
  · simp [hlater]
  · simp [hlater]
  · rw [state_recordBeat, hentry]
  · cases n <;> simp [inputRecord, hlater]
  · rw [handleBeat_follower hf' hrange, ← hu, isPresent_eq_true (by rwa [hentry])]
    rfl

theorem Compared.isFollower (h : Compared s v) : v.isFollower = s.isFollower := isFollower_congr h.sc.1

theorem Compared.hasCopy (h : Compared s v) : v.hasCopy = s.hasCopy := by rw [State.hasCopy, h.copySource]; rfl

/-- What `EntersGroup` says of a follower after the BEAT that took it into the group, or left it waiting (R7, R16). -/
theorem Compared.enters (h : Compared s v) (hp : s.sc.leavePending = false) (ht : t = v.confirmed.enterGroup.settle) :
    t.sc.standing = .confirmed
      ∧ (s.ownEntry.state ≠ .absent → t.sc.station = .member ∧ t.rt.copySource = .own
          ∧ (∀ x, t.pu.target = some x → t.pu.offset = x) ∧ t.hasEvent .state = true)
      ∧ (s.ownEntry.state = .absent → s.classLatched .shed = false → s.bi.queue.length < 6 →
          t.sc.station = .joining ∧ t.sc.tracked = some ⟨s.ownId, s.cq.nextSeq⟩ ∧ t.cq.nextSeq = s.cq.nextSeq + 1
            ∧ t.cq.entries = s.cq.entries
            ∧ ⟨.propose s.cq.nextSeq (.admission s.sp.fingerprint s.ownKind), 0, false⟩ ∈ t.bi.queue
            ∧ (∀ y ∈ t.bi.queue, y.body ≠ .query) ∧ t.hasEvent .state = true)
      ∧ (s.ownEntry.state = .absent → (s.classLatched .shed = true ∨ 6 ≤ s.bi.queue.length) →
          t.sc.station = s.sc.station ∧ t.cq.nextSeq = s.cq.nextSeq ∧ t.bi.queue = s.bi.queue) := by
  obtain ⟨hstation, -, hleave, -, -⟩ := h.sc
  obtain ⟨henters, hstanding⟩ := enterGroup_enters (s := v.confirmed) (hleave.trans hp)
  have hsp : v.confirmed.sp = s.sp := h.sp
  have hcq : v.confirmed.cq = s.cq := h.cq
  have hqueue : v.confirmed.bi.queue = s.bi.queue := h.queue
  have hown : v.confirmed.ownId = s.ownId := ownId_congr (by rw [hsp])
  have hkind : v.confirmed.ownKind = s.ownKind := ownKind_congr (by rw [hsp])
  have hentry : v.confirmed.ownEntry.state = s.ownEntry.state := by
    rw [ownEntry, hown]
    exact h.standing s.ownId
  have hlatched : v.confirmed.classLatched .shed = s.classLatched .shed := classLatched_congr h.input (by rw [hsp])
  have hst : v.confirmed.sc.station = s.sc.station := hstation
  have hsd : v.confirmed.sc.standing = .confirmed := rfl
  generalize v.confirmed = c at henters hstanding hsp hcq hqueue hown hkind hentry hlatched hst hsd ht
  have hsettle : Steady true c.enterGroup c.enterGroup.settle := steady_settle .rfl'
  subst ht
  obtain ⟨hmember, hjoining, hwaits⟩ := henters
  rw [hentry] at hmember hjoining hwaits
  rw [hlatched, hqueue, hown, hcq, hsp, hkind] at hjoining
  rw [hlatched, hqueue] at hwaits
  refine ⟨by simp [hstanding, hsd], fun ha => ?_, fun ha hl hq => ?_, fun ha hw => ?_⟩
  · have hsettled : c.enterGroup.settle = c.enterGroup := by
      rw [enterGroup_of_present (by rwa [hentry])]
      exact settle_of_settled (settle_settled _)
    rw [hsettled]
    obtain ⟨hjoins, hsource, -, hplaced, hevent⟩ := hmember ha
    exact ⟨hjoins, hsource, hplaced, hevent⟩
  · obtain ⟨hjoins, htracked, hseq, hentries, hmem, hquery, hevent⟩ := hjoining ha hl hq
    exact ⟨by simp [hjoins], by simp [htracked], by simp [hseq], by simp [hentries], by simpa using hmem,
      by simpa using hquery, hsettle.hasEvent hevent⟩
  · obtain ⟨hsc, hcq', hbi⟩ := hwaits ha hw
    exact ⟨by simp [hsc, hst], by simp [hcq', hcq], by simp [hbi, hqueue]⟩

/-- The copy confirmed: the station enters the group, or waits in LISTEN (R7, R16, R86). -/
theorem Compared.confirms (h : Compared s v) (hh : s.sc.standing = .held) (hp : s.sc.leavePending = false)
    (hs : s.sc.station = .listen ∨ s.sc.station = .resync) :
    v.confirmCopy.settle.sc.standing = .confirmed
      ∧ (s.sc.station = .listen → (s.tb.state ≠ .locked ∨ s.sc.joinHoldoff ≠ 0) →
          v.confirmCopy.settle.sc.station = .listen)
      ∧ (((s.sc.station = .listen ∧ s.tb.state = .locked ∧ s.sc.joinHoldoff = 0) ∨ s.sc.station = .resync) →
          (s.ownEntry.state ≠ .absent → v.confirmCopy.settle.sc.station = .member
            ∧ v.confirmCopy.settle.rt.copySource = .own
            ∧ (∀ x, v.confirmCopy.settle.pu.target = some x → v.confirmCopy.settle.pu.offset = x)
            ∧ v.confirmCopy.settle.hasEvent .state = true)
          ∧ (s.ownEntry.state = .absent → s.classLatched .shed = false → s.bi.queue.length < 6 →
              v.confirmCopy.settle.sc.station = .joining
              ∧ v.confirmCopy.settle.sc.tracked = some ⟨s.ownId, s.cq.nextSeq⟩
              ∧ v.confirmCopy.settle.cq.nextSeq = s.cq.nextSeq + 1 ∧ v.confirmCopy.settle.cq.entries = s.cq.entries
              ∧ ⟨.propose s.cq.nextSeq (.admission s.sp.fingerprint s.ownKind), 0, false⟩
                  ∈ v.confirmCopy.settle.bi.queue
              ∧ (∀ y ∈ v.confirmCopy.settle.bi.queue, y.body ≠ .query)
              ∧ v.confirmCopy.settle.hasEvent .state = true)
          ∧ (s.ownEntry.state = .absent → (s.classLatched .shed = true ∨ 6 ≤ s.bi.queue.length) →
              v.confirmCopy.settle.sc.station = s.sc.station ∧ v.confirmCopy.settle.cq.nextSeq = s.cq.nextSeq
              ∧ v.confirmCopy.settle.bi.queue = s.bi.queue)) := by
  obtain ⟨hstation, hstanding, hleave, -, hholdoff⟩ := h.sc
  by_cases hready : (s.sc.station = .listen ∧ s.tb.state = .locked ∧ s.sc.joinHoldoff = 0) ∨ s.sc.station = .resync
  · obtain ⟨hconfirmed, henters⟩ := h.enters (t := v.confirmed.enterGroup.settle) hp rfl
    rw [confirmCopy_enters (hstanding.trans hh) (hleave.trans hp) (by rwa [hstation, h.tb, hholdoff])]
    refine ⟨hconfirmed, fun hl hw => ?_, fun _ => henters⟩
    obtain ⟨-, hlocked, hzero⟩ | hres := hready
    · exact absurd hw (by simp [hlocked, hzero])
    · simp [hl] at hres
  · have hl := hs.resolve_right fun hres => hready (.inr hres)
    have hwait : v.tb.state ≠ .locked ∨ v.sc.joinHoldoff ≠ 0 := by
      rw [h.tb, hholdoff]
      by_contra hboth
      push Not at hboth
      exact hready (.inl ⟨hl, hboth⟩)
    rw [confirmCopy_waits (hstanding.trans hh) (hstation.trans hl) hwait]
    exact ⟨by simp [confirmed], fun _ _ => by simp [confirmed, hstation, hl], fun h => absurd h hready⟩

/-- A BEAT that matches an armed copy (R6, R7, R16, R86). -/
theorem Compared.matches (h : Compared s v) (hf : s.isFollower = true) (hc : s.hasCopy = true) (ha : s.rt.armed = true)
    (hr : f.resync = false) (he : f.en = s.tb.en) (hd : f.digest = s.rt.epochDigest) (h0 : f.depth = 0) :
    v.compareBeat f = v.confirmCopy :=
  compareBeat_confirms (h.isFollower.trans hf) (h.hasCopy.trans hc) (h.armed.trans ha) hr (by rw [he, h.tb])
    (by rw [hd, h.digest]) h0

/-- A BEAT that does not match an armed copy (R6, R9, R87). -/
theorem Compared.misses (h : Compared s v) (hf : s.isFollower = true) (hc : s.hasCopy = true) (ha : s.rt.armed = true)
    (hr : f.resync = false)
    (hd : f.en ≠ s.tb.en ∨ (f.en = s.tb.en ∧ f.digest ≠ s.rt.epochDigest ∧ f.depth = 0)) :
    v.compareBeat f = v.missedFrame :=
  compareBeat_misses (h.isFollower.trans hf) (h.hasCopy.trans hc) (h.armed.trans ha) hr (by rwa [h.tb, h.digest])

/-- LISTEN and RESYNC without the copy that they missed a frame of (R6, R87). -/
theorem Compared.discards (h : Compared s v) (hs : s.sc.station = .listen ∨ s.sc.station = .resync) :
    v.missedFrame.settle.NoCopy ∧ v.missedFrame.settle.sc.station = s.sc.station := by
  obtain ⟨hstation, -⟩ := h.sc
  rw [missedFrame_listen (by rwa [hstation])]
  exact ⟨(noCopy_discardCopy v).settle, by simp [hstation]⟩

/-- JOINING without the copy that it missed a frame of (R9). -/
theorem Compared.joinFails (h : Compared s v) (hs : s.sc.station = .joining) (hp : s.sc.leavePending = false) :
    v.missedFrame.settle.NoCopy ∧ v.missedFrame.settle.sc.station = .listen
      ∧ v.missedFrame.settle.sc.tracked = none := by
  obtain ⟨hstation, -, hleave, -, -⟩ := h.sc
  rw [missedFrame_joining (hstation.trans hs)]
  obtain ⟨hst, hcopy, -, htracked, -⟩ := joinMissed_listen (hleave.trans hp)
  exact ⟨hcopy.settle, by simp [hst], by simp [htracked]⟩

end State

open State in
/-- Settles O42. -/
theorem beatAtTheFollower : Obligations.BeatAtTheFollower := by
  refine ⟨fun i f s hs hn hrange hr hi => ?_, fun i f s hf hn hrange hr hi hen hc ha hp he => ?_,
    fun s h => joinTest_rests h, fun s h => resyncTest_rests h, fun s t ht hst hp => ?_⟩
  · have hst : s.sc.station = .listen ∨ s.sc.station = .resync := by simpa using hs
    have hf : s.isFollower = true := by obtain h | h := hst <;> simp [isFollower, h]
    refine ⟨fun hen => ?_, fun hen hc ha hp he => ?_⟩
    · obtain ⟨h1, h2, h3, h4, h5⟩ := handleBeat_first (i := i) hst hn.1 hrange hr hen rfl
      refine ⟨_, exec_beat_follower hf hn hi, h1, h2, h3, h4, h5, fun habs => ?_⟩
      have hheard := takenIn_heard hn.1
      have hgroup := groupHeard_first (s := s.heard) (f := f) (by rwa [hheard.station]) hr (by rwa [hheard.tb])
      have hstranger : s.heard.handleBeat i f = s.heard.groupHeard f := by
        have hentry : (s.heard.groupHeard f).entry i = s.entry i := by
          obtain ⟨-, -, -, -, hrt, -⟩ := hgroup
          exact entry_congr (by rw [hrt, hheard.rt]) i
        rw [handleBeat_follower (hheard.isFollower.trans hf) hrange, isPresent_eq_false (by rwa [hentry])]
        rfl
      exact groupHeard_stranger hst hn.1 hr hen (congrArg settle hstranger)
    · obtain ⟨v, hv, heq⟩ := handleBeat_later hf hn.1 hrange hr hen hp
      have hmiss := heq.trans (hv.misses hf hc ha hr (.inl he))
      obtain ⟨hcopy, hstation⟩ := hv.discards hst
      have hsteady : Steady true v v.missedFrame.settle := steady_settle (steady_missedFrame .rfl')
      obtain ⟨hb, hk, hen', -⟩ := hsteady.counters rfl
      rw [hv.tb] at hb hk hen'
      exact ⟨_, (exec_beat_follower hf hn hi).trans (congrArg _ (congrArg settle hmiss)), hstation, hcopy,
        sameCounters_of_tb hb hk hen'⟩
  · obtain ⟨v, hv, heq⟩ := handleBeat_later hf hn.1 hrange hr hen hp
    have hsteady : Steady true v (v.compareBeat f).settle := steady_settle (steady_compareBeat .rfl')
    obtain ⟨hb, hk, hen', -⟩ := hsteady.counters rfl
    rw [hv.tb] at hb hk hen'
    have hfollows : s.sc.station = .listen ∨ s.sc.station = .joining ∨ s.sc.station = .resync := by
      simpa [isFollower, or_assoc] using hf
    refine ⟨_, (exec_beat_follower hf hn hi).trans (congrArg _ (congrArg settle heq)), sameCounters_of_tb hb hk hen',
      fun hd h0 hh hnj hlp => ?_, fun hd h0 => ⟨fun hnj => ?_, fun hj hlp => ?_⟩, fun hd h0 => ?_⟩
    · rw [hv.matches hf hc ha hr he hd h0]
      exact hv.confirms hh hlp (hfollows.imp_right fun h => h.resolve_left hnj)
    · rw [hv.misses hf hc ha hr (.inr ⟨he, hd, h0⟩)]
      exact hv.discards (hfollows.imp_right fun h => h.resolve_left hnj)
    · rw [hv.misses hf hc ha hr (.inr ⟨he, hd, h0⟩)]
      exact hv.joinFails hj hlp
    · obtain ⟨hstation, hstanding, -⟩ := hv.sc
      rw [compareBeat_rests (by rw [hv.tb, he]) (by rwa [hv.digest]) h0]
      exact ⟨by simp [hstation], by simp [hstanding], by simp [hv.copySource], by simp [hv.cq], by simp [hv.queue]⟩
  · have henter : t = s.enterGroup := by
      obtain ⟨h1, h2, h3, rfl⟩ | ⟨h1, rfl⟩ := ht
      · exact joinTest_enters h1 hst h2 h3
      · exact resyncTest_enters h1 hst
    subst henter
    exact ⟨(enterGroup_enters hp).1.member, (enterGroup_enters hp).1.joining, (enterGroup_enters hp).1.waits⟩

end Sys2Proof.Machine
end

section
/-! A PROPOSE entered (R8, R11, R94, R98, R103 to R105, R107, R167, R179): the entry, its ticket, and the objections that this
station offers at once. -/

namespace Sys2Proof.Machine

variable {s t u v w : State} {i j : StationId} {e : QueueEntry} {z : Ticket} {r : ObjectReason} {y : QueuedFrame}
  {id : ProposalId} {c : ProposalContent}

namespace State

/-! ### What offers nothing but objections -/

/-- Only the transmit queue of the Bus Interface changes, and it gains objections alone. -/
structure OffersObjections (s t : State) : Prop where
  bus : s.SameBus t
  others : (t.bi.queue.filter fun y => y.body.cls ≠ 2) = s.bi.queue.filter fun y => y.body.cls ≠ 2
  kept : ∀ y ∈ s.bi.queue, y ∈ t.bi.queue
  flight : ∀ y ∈ t.bi.queue, y ∈ s.bi.queue ∨ y.inFlight = false

theorem OffersObjections.of_bi (h : t.bi = s.bi) : s.OffersObjections t :=
  ⟨.of_bi h, by rw [h], fun y hy => by rwa [h], fun y hy => .inl (by rwa [← h])⟩

theorem OffersObjections.refl (s : State) : s.OffersObjections s := .of_bi rfl

theorem OffersObjections.trans (h : s.OffersObjections t) (k : t.OffersObjections u) : s.OffersObjections u where
  bus := h.bus.trans k.bus
  others := k.others.trans h.others
  kept y hy := k.kept y (h.kept y hy)
  flight y hy := (k.flight y hy).elim (h.flight y) .inr

theorem OffersObjections.doIf {q : Bool} {f : State → State} (h : s.OffersObjections (f s)) :
    s.OffersObjections (s.doIf q f) := by
  cases q
  · exact .refl s
  · exact h

theorem filter_insertFrame {q : List QueuedFrame} {x : QueuedFrame} {test : QueuedFrame → Bool} (h : test x = false) :
    (insertFrame x q).filter test = q.filter test := by
  obtain ⟨before, after, rfl, heq, -, -⟩ := insertFrame_eq_append x q
  rw [heq]
  simp [h]

theorem offersObjections_offered (id : ProposalId) (r : ObjectReason) (s : State) :
    s.OffersObjections (s.offered (.object id r)) where
  bus := sameBus_offered _ s
  others := by
    simp only [offered_kept]
    exact filter_insertFrame rfl
  kept y hy := by simp [hy]
  flight y hy := by
    simp only [offered_kept, mem_insertFrame] at hy
    exact hy.elim (fun h => .inr (by rw [h])) .inl

theorem decideObjection_room (hq : s.bi.queue.length < 6) : s.decideObjection id r = s.offered (.object id r) := by
  rw [decideObjection, offer_of_room _ hq]
  rfl

theorem decideObjection_full (hq : 6 ≤ s.bi.queue.length) : s.decideObjection id r
    = s.modCq fun cq => { cq with pendingObjections := cq.pendingObjections ++ [(id, r)] } := by
  rw [decideObjection, offer_of_full _ hq]
  rfl

theorem offersObjections_decideObjection (id : ProposalId) (r : ObjectReason) (s : State) :
    s.OffersObjections (s.decideObjection id r) := by
  obtain hq | hq := Nat.lt_or_ge s.bi.queue.length 6
  · rw [decideObjection_room hq]
    exact offersObjections_offered id r s
  · rw [decideObjection_full hq]
    exact .of_bi rfl

theorem offersObjections_offerOwedWithdrawal (s : State) : s.OffersObjections s.offerOwedWithdrawal := by
  cases h : s.ownAdmit with
  | none =>
    rw [offerOwedWithdrawal_of_none h]
    exact .of_bi rfl
  | some e =>
    rw [offerOwedWithdrawal_of_some h]
    obtain hq | hq := Nat.lt_or_ge s.bi.queue.length 6
    · rw [offer_of_room _ hq]
      split
      · exact (offersObjections_offered e.id .withdrawn s).trans (.of_bi rfl)
      · exact .of_bi rfl
    · rw [offer_of_full _ hq]
      split
      · exact .refl s
      · exact .of_bi rfl

theorem offersObjections_offerWithdrawal (e : QueueEntry) (s : State) : s.OffersObjections (s.offerWithdrawal e) := by
  by_cases ha : s.WithdrawAsked e
  · rw [offerWithdrawal_of_asked ha]
    obtain hq | hq := Nat.lt_or_ge s.bi.queue.length 6
    · rw [offer_of_room _ hq]
      exact (offersObjections_offered e.id .withdrawn s).trans (.of_bi (by simp))
    · rw [offer_of_full _ hq]
      exact .refl s
  · rw [offerWithdrawal_of_not_asked ha]
    exact .refl s

theorem offersObjections_withdrawalTest (s : State) : s.OffersObjections s.withdrawalTest := by
  obtain h | ⟨id, h⟩ := withdrawalTest_cases s
  · rw [h]
    exact .refl s
  · rw [h]
    exact offersObjections_offered id .withdrawn s

/-! ### The parts of an entry (R94, R98, R107) -/

/-- The entry in its place and its ticket OPEN. -/
def entryTaken (e : QueueEntry) (s : State) : State :=
  (s.modCq fun cq => { cq with entries := insertEntry s.tb.en e cq.entries }).doIf e.isLocal
    (reportTicket e.id.seq e.content fun t => { t with state := .openState, f := some e.f })

/-- The own objection decided. -/
def entryAnswered (e : QueueEntry) (s : State) : State :=
  (s.ownObjection e.content).elim (s.entryTaken e) fun r => (s.entryTaken e).decideObjection e.id r

/-- The withdrawal owed by a STOP is queued, or owed on. -/
def owingWithdrawal (s : State) : State := (s.modSc fun sc => { sc with withdrawOwed := true }).offerOwedWithdrawal

/-- Whether an entry is the own ADMIT. -/
def ownsAdmission (e : QueueEntry) : Bool := e.isLocal && match e.content with
  | .admission _ _ => true
  | _ => false

theorem enterProposal_eq (id : ProposalId) (c : ProposalContent) (f : Word) (s : State) :
    s.enterProposal id c f
      = ((((s.entryAnswered ⟨id, c, f, .openPhase, id.origin = s.ownId⟩).doIf
          (s.sc.station = .joining && s.tracks id && s.sc.leavePending) owingWithdrawal).offerWithdrawal
            ⟨id, c, f, .openPhase, id.origin = s.ownId⟩).doIf
          (ownsAdmission ⟨id, c, f, .openPhase, id.origin = s.ownId⟩) withdrawalTest) := rfl

@[simp] theorem entryTaken_kept (e : QueueEntry) (s : State) : (s.entryTaken e).sc = s.sc ∧ (s.entryTaken e).tb = s.tb
    ∧ (s.entryTaken e).bi = s.bi ∧ (s.entryTaken e).rt = s.rt ∧ (s.entryTaken e).pu = s.pu
    ∧ (s.entryTaken e).os = s.os ∧ (s.entryTaken e).fu = s.fu ∧ (s.entryTaken e).sp.record = s.sp.record
    ∧ (s.entryTaken e).cq = { s.cq with entries := insertEntry s.tb.en e s.cq.entries } := by
  simp [entryTaken]

theorem entryAnswered_cases (e : QueueEntry) (s : State) : s.entryAnswered e = s.entryTaken e
    ∨ ∃ r, s.ownObjection e.content = some r ∧ s.entryAnswered e = (s.entryTaken e).decideObjection e.id r := by
  cases h : s.ownObjection e.content with
  | none => exact .inl (by rw [entryAnswered, h]; rfl)
  | some r => exact .inr ⟨r, rfl, by rw [entryAnswered, h]; rfl⟩

@[simp] theorem decideObjection_kept (id : ProposalId) (r : ObjectReason) (s : State) :
    (s.decideObjection id r).sc = s.sc ∧ (s.decideObjection id r).tb = s.tb ∧ (s.decideObjection id r).rt = s.rt
      ∧ (s.decideObjection id r).pu = s.pu ∧ (s.decideObjection id r).os = s.os ∧ (s.decideObjection id r).sp = s.sp
      ∧ (s.decideObjection id r).fu.tripSet = s.fu.tripSet ∧ (s.decideObjection id r).cq.entries = s.cq.entries
      ∧ (s.decideObjection id r).cq.duty = s.cq.duty := by
  obtain hq | hq := Nat.lt_or_ge s.bi.queue.length 6
  · rw [decideObjection_room hq]
    simp
  · rw [decideObjection_full hq]
    simp

@[simp] theorem entryAnswered_kept (e : QueueEntry) (s : State) : (s.entryAnswered e).sc = s.sc
    ∧ (s.entryAnswered e).tb = s.tb ∧ (s.entryAnswered e).rt = s.rt ∧ (s.entryAnswered e).pu = s.pu
    ∧ (s.entryAnswered e).os = s.os ∧ (s.entryAnswered e).sp = (s.entryTaken e).sp
    ∧ (s.entryAnswered e).fu.tripSet = s.fu.tripSet
    ∧ (s.entryAnswered e).cq.entries = insertEntry s.tb.en e s.cq.entries
    ∧ (s.entryAnswered e).cq.duty = s.cq.duty := by
  obtain h | ⟨r, -, h⟩ := entryAnswered_cases e s
  · rw [h]
    simp
  · rw [h]
    simp

@[simp] theorem owingWithdrawal_kept (s : State) : s.owingWithdrawal.sc.station = s.sc.station
    ∧ s.owingWithdrawal.sc.tracked = s.sc.tracked ∧ s.owingWithdrawal.tb = s.tb ∧ s.owingWithdrawal.rt = s.rt
    ∧ s.owingWithdrawal.cq = s.cq ∧ s.owingWithdrawal.pu = s.pu ∧ s.owingWithdrawal.os = s.os
    ∧ s.owingWithdrawal.sp = s.sp ∧ s.owingWithdrawal.fu.tripSet = s.fu.tripSet := by
  simp [owingWithdrawal]

theorem offersObjections_entryAnswered (e : QueueEntry) (s : State) : s.OffersObjections (s.entryAnswered e) := by
  have htaken : s.OffersObjections (s.entryTaken e) := .of_bi (by simp)
  obtain h | ⟨r, -, h⟩ := entryAnswered_cases e s
  · rwa [h]
  · rw [h]
    exact htaken.trans (offersObjections_decideObjection e.id r _)

theorem offersObjections_owingWithdrawal (s : State) : s.OffersObjections s.owingWithdrawal := by
  have howed : s.OffersObjections (s.modSc fun sc => { sc with withdrawOwed := true }) := .of_bi rfl
  rw [owingWithdrawal]
  exact howed.trans (offersObjections_offerOwedWithdrawal _)

/-- What follows the own objection gains objections alone. -/
theorem offersObjections_after (id : ProposalId) (c : ProposalContent) (f : Word) (s : State) :
    (s.entryAnswered ⟨id, c, f, .openPhase, id.origin = s.ownId⟩).OffersObjections (s.enterProposal id c f) := by
  rw [enterProposal_eq]
  exact ((OffersObjections.doIf (offersObjections_owingWithdrawal _)).trans
    (offersObjections_offerWithdrawal _ _)).trans (.doIf (offersObjections_withdrawalTest _))

theorem offersObjections_enterProposal (id : ProposalId) (c : ProposalContent) (f : Word) (s : State) :
    s.OffersObjections (s.enterProposal id c f) :=
  (offersObjections_entryAnswered _ s).trans (offersObjections_after id c f s)

/-- What an entry leaves of the other blocks (R98). -/
theorem enterProposal_kept (id : ProposalId) (c : ProposalContent) (f : Word) (s : State) :
    (s.enterProposal id c f).rt = s.rt ∧ (s.enterProposal id c f).tb = s.tb
      ∧ (s.enterProposal id c f).cq.duty = s.cq.duty ∧ (s.enterProposal id c f).fu.tripSet = s.fu.tripSet
      ∧ (s.enterProposal id c f).cq.entries
          = insertEntry s.tb.en ⟨id, c, f, .openPhase, id.origin = s.ownId⟩ s.cq.entries
      ∧ (s.enterProposal id c f).sc.station = s.sc.station ∧ (s.enterProposal id c f).sc.tracked = s.sc.tracked
      ∧ (s.sc.station ≠ .joining → (s.enterProposal id c f).sc = s.sc) := by
  rw [enterProposal_eq]
  have howed : s.sc.station ≠ .joining → (decide (s.sc.station = .joining) && s.tracks id && s.sc.leavePending) = false :=
    fun h => by simp [h]
  generalize (decide (s.sc.station = .joining) && s.tracks id && s.sc.leavePending) = owes at howed
  generalize hadmits : ownsAdmission _ = admits
  refine ⟨?_, ?_, ?_, ?_, ?_, ?_, ?_, fun h => ?_⟩
  case refine_8 =>
    rw [howed h]
    cases admits <;> simp
  all_goals cases owes <;> cases admits <;> simp

end State
end Sys2Proof.Machine
end

section
/-! What an entry, and a refusal, are to the ticket, to the transmit queue and to the station (R8, R11, R13, R98, R99, R103 to
R105, R179). -/

namespace Sys2Proof.Machine

variable {s t u v w : State} {i j : StationId} {e : QueueEntry} {z : Ticket} {r : ObjectReason} {y : QueuedFrame}
  {id : ProposalId} {c : ProposalContent} {f : Word} {p : ProposeFields} {why : ArrivalRefusal}

/-- A ticket that reports a proposal as OPEN under a number. -/
def Ticket.OpenAs (n : Byte) (kind : TicketKind) (f : Word) (z : Ticket) : Prop :=
  z.number = n ∧ z.kind = kind ∧ z.state = .openState ∧ z.f = some f

/-- The ticket as a refusal leaves it. -/
def Ticket.refusedBy (why : ArrivalRefusal) (f : Word) (z : Ticket) : Ticket :=
  { z with state := .refused why, f := some f, withdrawRequest := false, withdrawQueued := false }

namespace State

/-! ### The place of an entry (R94) -/

theorem insertEntry_eq_append (en : Word) (e : QueueEntry) (es : List QueueEntry) : ∃ before after, es = before ++ after
    ∧ insertEntry en e es = before ++ e :: after ∧ (∀ x ∈ before, (x.f - en).toNat ≤ (e.f - en).toNat)
    ∧ ∀ x, after.head? = some x → (e.f - en).toNat < (x.f - en).toNat := by
  refine ⟨_, _, (List.takeWhile_append_dropWhile (p := fun x => decide (epochsAhead x.f en ≤ epochsAhead e.f en))).symm,
    rfl, fun x hx => ?_, fun x hx => ?_⟩
  · have hle := List.mem_takeWhile_imp (p := fun x : QueueEntry => decide (epochsAhead x.f en ≤ epochsAhead e.f en)) hx
    exact of_decide_eq_true hle
  · have hnot := List.head?_dropWhile_not (fun x => decide (epochsAhead x.f en ≤ epochsAhead e.f en)) es
    rw [hx] at hnot
    have hgt : decide (epochsAhead x.f en ≤ epochsAhead e.f en) = false := hnot
    exact Nat.lt_of_not_le (of_decide_eq_false hgt)

/-! ### The ticket of an entry (R98, R179) -/

theorem openAs_offerWithdrawal {n : Byte} {kind : TicketKind} (h : ∃ x ∈ s.sp.tickets, x.OpenAs n kind f) (e : QueueEntry) :
    ∃ x ∈ (s.offerWithdrawal e).sp.tickets, x.OpenAs n kind f := by
  obtain ⟨x, hx, hopen⟩ := h
  by_cases ha : s.WithdrawAsked e
  · rw [offerWithdrawal_of_asked ha]
    obtain hq | hq := Nat.lt_or_ge s.bi.queue.length 6
    · rw [offer_of_room _ hq]
      simp only [reportTicket, updateTickets_kept, offered_kept]
      refine ⟨_, List.mem_map.mpr ⟨x, hx, rfl⟩, ?_⟩
      split
      · exact hopen
      · exact hopen
    · rw [offer_of_full _ hq]
      exact ⟨x, hx, hopen⟩
  · rw [offerWithdrawal_of_not_asked ha]
    exact ⟨x, hx, hopen⟩

theorem ticket_enterProposal (hown : id.origin = s.ownId) (hz : z ∈ s.sp.tickets) (hu : z.unfinished = true)
    (hn : z.number = id.seq) (hk : z.kind.fits c = true) (hr : z.reserved = false) :
    ∃ x ∈ (s.enterProposal id c f).sp.tickets, x.OpenAs id.seq z.kind f := by
  rw [enterProposal_eq, hown]
  have hmem := mem_tickets_reportTicket (s := s.modCq fun cq =>
    { cq with entries := insertEntry s.tb.en ⟨id, c, f, .openPhase, true⟩ cq.entries })
    (fun t => { t with state := .openState, f := some f }) hz hu hk hr
  rw [hn] at hmem
  have htaken : ∃ x ∈ (s.entryAnswered ⟨id, c, f, .openPhase, true⟩).sp.tickets, x.OpenAs id.seq z.kind f := by
    rw [(entryAnswered_kept _ s).2.2.2.2.2.1]
    exact ⟨_, hmem, rfl, rfl, rfl, rfl⟩
  simp only [decide_true]
  generalize s.entryAnswered ⟨id, c, f, .openPhase, true⟩ = u at htaken
  generalize (decide (s.sc.station = .joining) && s.tracks id && s.sc.leavePending) = owes
  have howed : ∃ x ∈ (u.doIf owes owingWithdrawal).sp.tickets, x.OpenAs id.seq z.kind f := by
    cases owes <;> simpa using htaken
  have hoffered := openAs_offerWithdrawal howed ⟨id, c, f, .openPhase, true⟩
  generalize ownsAdmission _ = admits
  cases admits <;> simpa using hoffered

/-! ### The objections of this station to an entry (R11, R103 to R105, R107) -/

/-- The own objection is queued at once where there is room. -/
theorem objection_enterProposal (hr : s.ownObjection c = some r) (hq : s.bi.queue.length < 6) :
    ⟨.object id r, 0, false⟩ ∈ (s.enterProposal id c f).bi.queue := by
  refine (offersObjections_after id c f s).kept _ ?_
  have hanswer : s.entryAnswered ⟨id, c, f, .openPhase, id.origin = s.ownId⟩
      = (s.entryTaken ⟨id, c, f, .openPhase, id.origin = s.ownId⟩).decideObjection id r := by
    rw [entryAnswered, hr]
    rfl
  rw [hanswer, decideObjection_room (by simpa using hq)]
  simp

theorem ownObjection_duty {d : Word} (hm : s.isMember = true) (hd : s.dutyMax < d) (hs : s.ownEntry.holdsSlot = true) :
    s.ownObjection (.demand d) = some .dutyLimit := by
  simp [ownObjection, hm, hd, hs]

theorem ownObjection_active (hm : s.isMember = true) (hl : s.classLatched .trip = true) :
    s.ownObjection (.clearTrip s.ownId) = some .stillActive := by
  simp [ownObjection, hm, hl]

theorem ownObjection_present (hm : s.isMember = true) : s.ownObjection (.remove s.ownId .lost) = some .present := by
  simp [ownObjection, hm]

/-- The entry of an own ADMIT is the own ADMIT of the copy: none else passed the check of duplicates (R97, R116). -/
theorem ownAdmit_entryTaken {es : List QueueEntry} {kind : StationKind} {fp : Word} (he : e.content = .admission fp kind) (ho : e.id.origin = s.ownId)
    (hs : s.cq.entries = insertEntry s.tb.en e es)
    (hnone : ∀ x ∈ es, x.id.origin = s.ownId → ∀ fp kind, x.content ≠ .admission fp kind) : s.ownAdmit = some e := by
  obtain ⟨before, after, rfl, hsplit, -, -⟩ := insertEntry_eq_append s.tb.en e es
  rw [ownAdmit, hs, hsplit, List.find?_append, List.find?_eq_none.mpr]
  · simp [he, ho]
  · intro x hx
    simp only [Bool.and_eq_true, decide_eq_true_iff]
    rintro ⟨hxo, hxc⟩
    split at hxc
    next fp kind hc => exact hnone x (by simp [hx]) hxo fp kind hc
    next => exact absurd hxc (by simp)

theorem ownObjection_of_not_member (hm : s.isMember = false) : s.ownObjection c = none := by simp [ownObjection, hm]

/-- A STOP taken while the ADMIT was in flight withdraws it at its entry (R11). -/
theorem withdrawal_enterProposal {fp : Word} {kind : StationKind} (hs : s.sc.station = .joining) (ht : s.sc.tracked = some id)
    (hp : s.sc.leavePending = true) (ho : id.origin = s.ownId)
    (hnone : ∀ x ∈ s.cq.entries, x.id.origin = s.ownId → ∀ fp kind, x.content ≠ .admission fp kind)
    (hw : s.withdrawalQueued id = false) (hq : s.bi.queue.length < 6) :
    ⟨.object id .withdrawn, 0, false⟩ ∈ (s.enterProposal id (.admission fp kind) f).bi.queue := by
  obtain ⟨e, he⟩ : ∃ e, e = (⟨id, .admission fp kind, f, .openPhase, id.origin = s.ownId⟩ : QueueEntry) := ⟨_, rfl⟩
  have hanswer : s.entryAnswered e = s.entryTaken e := by
    rw [entryAnswered, ownObjection_of_not_member (by simp [isMember, hs])]
    rfl
  obtain ⟨u, hu⟩ : ∃ u, u = (s.entryTaken e).modSc fun sc => { sc with withdrawOwed := true } := ⟨_, rfl⟩
  have hadmit : u.ownAdmit = some e := by
    have hown : u.ownId = s.ownId := ownId_congr (by simp [hu])
    exact ownAdmit_entryTaken (es := s.cq.entries) (kind := kind) (fp := fp) (by rw [he]) (by rw [he, hown]; exact ho)
      (by simp [hu]) fun x hx hxo => hnone x hx (hxo.trans hown)
  have hqueue : u.bi.queue = s.bi.queue := by simp [hu]
  have hfree : u.withdrawalQueued e.id = false := by
    rw [he]
    exact (congrArg (List.any · _) hqueue).trans hw
  have howing : ⟨.object id .withdrawn, 0, false⟩ ∈ (s.entryAnswered e).owingWithdrawal.bi.queue := by
    rw [hanswer, owingWithdrawal, ← hu, offerOwedWithdrawal_of_some hadmit, offer_of_room _ (by rwa [hqueue]),
      if_pos (by rw [hfree]; simp [hu, he])]
    simp [withdrawalPaid, he]
  rw [enterProposal_eq, ← he, hs, tracks, ht, hp]
  simp only [decide_true, Bool.and_true, doIf_true]
  exact ((offersObjections_offerWithdrawal e _).trans (.doIf (offersObjections_withdrawalTest _))).kept _ howing

/-! ### A refusal (R8, R13, R99) -/

/-- The ticket of a refused proposal of the own is REFUSED. -/
def refused (id : ProposalId) (p : ProposeFields) (why : ArrivalRefusal) (s : State) : State :=
  s.doIf (id.origin = s.ownId) fun s => match contentOf p with
    | some c => s.reportTicket id.seq c fun t => { t.finish (.refused why) with f := some p.f }
    | none => s

@[simp] theorem refused_kept (id : ProposalId) (p : ProposeFields) (why : ArrivalRefusal) (s : State) :
    (s.refused id p why).sc = s.sc ∧ (s.refused id p why).tb = s.tb ∧ (s.refused id p why).bi = s.bi
      ∧ (s.refused id p why).rt = s.rt ∧ (s.refused id p why).cq = s.cq ∧ (s.refused id p why).pu = s.pu
      ∧ (s.refused id p why).os = s.os ∧ (s.refused id p why).fu = s.fu
      ∧ (s.refused id p why).sp.record = s.sp.record := by
  unfold refused
  cases decide (id.origin = s.ownId)
  · simp
  · cases contentOf p <;> simp

theorem refuseProposal_eq (id : ProposalId) (p : ProposeFields) (why : ArrivalRefusal) (s : State) :
    s.refuseProposal id p why = (s.refused id p why).doIf (s.tracks id) (trackedRefused why) := rfl

theorem refuseProposal_untracked (h : s.sc.tracked ≠ some id) : s.refuseProposal id p why = s.refused id p why := by
  rw [refuseProposal_eq, tracks, decide_eq_false (by simpa using h), doIf_false]

theorem refuseProposal_tracked (h : s.sc.tracked = some id) :
    s.refuseProposal id p why = (s.refused id p why).trackedRefused why := by
  rw [refuseProposal_eq, tracks, decide_eq_true (by simpa using h), doIf_true]

theorem ticket_refused (ho : id.origin = s.ownId) (hc : contentOf p = some c) (hz : z ∈ s.sp.tickets)
    (hu : z.unfinished = true) (hn : z.number = id.seq) (hk : z.kind.fits c = true) (hr : z.reserved = false) :
    z.refusedBy why p.f ∈ (s.refused id p why).sp.tickets ∧ (s.refused id p why).hasEvent .ticket = true := by
  have hmem := mem_tickets_reportTicket (fun t => { t.finish (.refused why) with f := some p.f }) hz hu hk hr
  have hevent := hasEvent_reportTicket (f := fun t => { t.finish (.refused why) with f := some p.f }) hz hu hk hr rfl
  rw [hn] at hmem hevent
  rw [refused, decide_eq_true ho, doIf_true, hc]
  exact ⟨by simpa [Ticket.refusedBy, Ticket.finish, hr] using hmem, hevent⟩

theorem trackedRefused_member (h : s.sc.station ≠ .joining ∧ s.sc.station ≠ .leaving) : s.trackedRefused why = s := by
  unfold trackedRefused
  split
  next hs => exact absurd hs h.1
  next hs _ => exact absurd hs h.1
  next hs => exact absurd hs h.2
  next => rfl

theorem trackedRefused_leaving (h : s.sc.station = .leaving) : s.trackedRefused why = s.returnToMember := by
  unfold trackedRefused
  split
  next hs => exact nomatch h.symm.trans hs
  next hs _ => exact nomatch h.symm.trans hs
  next => rfl
  next hnot _ => exact absurd h hnot

theorem trackedRefused_fingerprint (h : s.sc.station = .joining) :
    s.trackedRefused .fingerprint = s.enterHalted .fingerprint := by
  unfold trackedRefused
  rw [h]

theorem trackedRefused_joining (h : s.sc.station = .joining) (hw : why ≠ .fingerprint) :
    s.trackedRefused why = s.joinFailed := by
  unfold trackedRefused
  split
  next => exact absurd rfl hw
  next => rfl
  next hs => exact nomatch h.symm.trans hs
  next hnot _ _ => exact absurd h hnot

end State
end Sys2Proof.Machine
end

section
/-! The acceptance of a PROPOSE (R8, R11, R13, R59, R61, R63, R94, R96 to R99, R103 to R105). -/

namespace Sys2Proof.Machine

variable {s t u v w : State} {i j : StationId} {e : QueueEntry} {z : Ticket} {r : ObjectReason} {y : QueuedFrame}
  {id : ProposalId} {c : ProposalContent} {f : Word} {p : ProposeFields} {why : ArrivalRefusal}

namespace State

/-! ### The checks read what an acceptance leaves (R97) -/

theorem TakenIn.inputRecord (h : TakenIn s u) (n : InputNo) : u.inputRecord n = s.inputRecord n := by
  cases n
  · exact h.flt0
  · exact h.flt1
  · exact h.flt2

theorem TakenIn.arrivalRefusal (h : TakenIn s u) (i : StationId) (p : ProposeFields) :
    u.arrivalRefusal i p = s.arrivalRefusal i p := by
  have hprint : u.referenceFingerprint = s.referenceFingerprint := by
    simp only [referenceFingerprint, h.isMember, h.sp, h.rt]
  have hkind : u.kindCheck i (contentOf p) = s.kindCheck i (contentOf p) := by
    unfold kindCheck
    simp only [h.entry, h.tripSet, hprint]
  simp only [State.arrivalRefusal, hkind, lateCheck, memberCheck, duplicateCheck, fullCheck, h.entry, h.tb, h.cq]

/-- A PROPOSE that passes the checks has a defined content (R97, R194). -/
theorem content_of_arrival (h : s.arrivalRefusal i p = none) : ∃ c, contentOf p = some c := by
  rw [← Option.ne_none_iff_exists']
  intro hc
  simp [State.arrivalRefusal, hc, kindCheck] at h

theorem duplicateCheck_of_arrival (h : s.arrivalRefusal i p = none) (hc : contentOf p = some c) :
    s.duplicateCheck ⟨i, p.seq⟩ (some c) = none := by
  simp only [State.arrivalRefusal, hc, Option.or_eq_none_iff] at h
  exact h.2.2.2.1

/-- An ADMIT that passes the checks is the only one of its origin (R97). -/
theorem no_admission_of_arrival {fp : Word} {kind : StationKind} (h : s.arrivalRefusal i p = none)
    (hc : contentOf p = some (.admission fp kind)) :
    ∀ x ∈ s.cq.entries, x.id.origin = i → ∀ fp kind, x.content ≠ .admission fp kind := by
  intro x hx ho fp' kind' hxc
  have hdup := duplicateCheck_of_arrival h hc
  have htarget : x.target = i := by
    rw [QueueEntry.target, hxc]
    exact ho
  rw [duplicateCheck_some, if_pos ⟨x, hx, .inr ⟨by rw [hxc]; rfl, htarget⟩⟩] at hdup
  exact nomatch hdup

/-! ### The frames that a PROPOSE makes redundant (R59) -/

/-- Whether a PROPOSE makes a queued frame redundant. -/
def redundant (own : Bool) (p : ProposeFields) (b : QueuedBody) : Bool :=
  (decide (p.kindCode = 1) && own && b.isAdmit) || (decide (p.kindCode = 2) && b.isLossOf (stationOfNibble p.target))

theorem withdrawForPropose_admit (h : p.kindCode = 1) :
    s.withdrawForPropose i p = s.doIf (i = s.ownId) (dropBodies (·.isAdmit)) := by
  simp [withdrawForPropose, h]

theorem withdrawForPropose_remove (h : p.kindCode = 2) :
    s.withdrawForPropose i p = s.dropBodies (·.isLossOf (stationOfNibble p.target)) := by
  simp [withdrawForPropose, h]

theorem withdrawForPropose_other (h1 : p.kindCode ≠ 1) (h2 : p.kindCode ≠ 2) : s.withdrawForPropose i p = s := by
  unfold withdrawForPropose
  split
  next h => exact absurd (BitVec.eq_of_toNat_eq h) h1
  next h => exact absurd (BitVec.eq_of_toNat_eq h) h2
  next => rfl

theorem TakenIn.withdrawForPropose (h : TakenIn s u) (i : StationId) (p : ProposeFields) :
    TakenIn s (u.withdrawForPropose i p) ∧ (u.withdrawForPropose i p).bi
      = { u.bi with queue := u.bi.queue.filter fun y => !redundant (decide (i = s.ownId)) p y.body } := by
  by_cases h1 : p.kindCode = 1
  · rw [withdrawForPropose_admit h1, h.ownId]
    by_cases hi : i = s.ownId
    · rw [decide_eq_true hi, doIf_true]
      refine ⟨h.dropBodies _, ?_⟩
      rw [dropBodies_bi_of_idle h.idle.attempt h.idle.rx]
      simp [redundant, h1]
    · rw [decide_eq_false hi, doIf_false]
      exact ⟨h, by simp [redundant, h1]⟩
  · by_cases h2 : p.kindCode = 2
    · rw [withdrawForPropose_remove h2]
      refine ⟨h.dropBodies _, ?_⟩
      rw [dropBodies_bi_of_idle h.idle.attempt h.idle.rx]
      simp [redundant, h2]
    · rw [withdrawForPropose_other h1 h2]
      have hnot (b : QueuedBody) : redundant (decide (i = s.ownId)) p b = false := by
        rw [redundant, decide_eq_false h1, decide_eq_false h2]
        rfl
      exact ⟨h, by simp [hnot]⟩

/-! ### The block's work at a PROPOSE (R96 to R99) -/

theorem processPropose_enters (hr : s.arrivalRefusal i p = none) (hc : contentOf p = some c) :
    s.processPropose i p = s.enterProposal ⟨i, p.seq⟩ c p.f := by
  simp only [processPropose, hr, hc]

theorem processPropose_refuses (hr : s.arrivalRefusal i p = some why) :
    s.processPropose i p = s.refuseProposal ⟨i, p.seq⟩ p why := by
  simp only [processPropose, hr]

theorem leaves_enterHalted (why : Reason) (s : State) : s.Leaves (s.enterHalted why) where
  shared := sameShared_enterHalted why s
  pending := by
    have hcq : (s.enterHalted why).cq.pendingObjections = [] := by simp [enterHalted_eq, haltedForgotten]
    simp [hcq]
  abandonCount := .inr (by simp [enterHalted_eq, haltedForgotten])
  queue := by simp

theorem leaves_trackedRefused (why : ArrivalRefusal) (s : State) : s.Leaves (s.trackedRefused why) := by
  unfold trackedRefused
  split
  · exact leaves_enterHalted _ s
  · exact leaves_joinFailed s
  · exact leaves_returnToMember s
  · exact .refl s

theorem attempt_trackedRefused (h : s.Idle) : (s.trackedRefused why).bi.attempt = none := by
  unfold trackedRefused
  split
  next => simp
  next => exact attempt_joinFailed h.attempt
  next hs => exact (landed_returnToMember (isMember_of_leaving hs) h.attempt).attempt
  next => exact h.attempt

/-- What the processing of a PROPOSE leaves, entered or refused. -/
structure Processed (s t : State) : Prop where
  entries : t.rt.entries = s.rt.entries
  duty : t.cq.duty = s.cq.duty
  tripSet : t.fu.tripSet = s.fu.tripSet
  attempt : t.bi.attempt = none
  abandonCount : t.bi.abandonCount = s.bi.abandonCount ∨ t.bi.abandonCount = 0
  flight : ∀ y ∈ t.bi.queue, y ∈ s.bi.queue ∨ y.inFlight = false

theorem processed_refuseProposal (h : s.Idle) : Processed s (s.refuseProposal id p why) := by
  have hleaves : s.Leaves (s.refuseProposal id p why) := by
    rw [refuseProposal_eq]
    exact (Leaves.of_kept (by simp) (by simp) (by simp) (by simp)).trans (leaves_doIf (leaves_trackedRefused why _))
  have hidle : (s.refused id p why).Idle := h.of_bi (by simp)
  refine ⟨hleaves.shared.entries.symm, hleaves.shared.duty.symm, hleaves.shared.tripSet.symm, ?_, hleaves.abandonCount,
    fun y hy => (hleaves.queue y hy).imp_right fun ⟨seq, c, hy⟩ => by rw [hy]⟩
  rw [refuseProposal_eq]
  exact (doIf_keeps (P := fun v => v.bi.attempt)
    ((attempt_trackedRefused hidle).trans hidle.attempt.symm)).trans hidle.attempt

theorem processed_enterProposal (h : s.Idle) : Processed s (s.enterProposal id c f) := by
  obtain ⟨hrt, -, hduty, htrip, -⟩ := enterProposal_kept id c f s
  have hoffers := offersObjections_enterProposal id c f s
  obtain ⟨q, hq⟩ := hoffers.bus
  exact ⟨by rw [hrt], hduty, htrip, (hoffers.bus.idle h).attempt, .inl (by rw [hq]), hoffers.flight⟩

theorem processed_processPropose (h : s.Idle) (i : StationId) (p : ProposeFields) :
    Processed s (s.processPropose i p) := by
  cases hr : s.arrivalRefusal i p with
  | none =>
    obtain ⟨c, hc⟩ := content_of_arrival hr
    rw [processPropose_enters hr hc]
    exact processed_enterProposal h
  | some why =>
    rw [processPropose_refuses hr]
    exact processed_refuseProposal h

/-- The state in which the block takes a PROPOSE, the frames that it makes redundant dropped. -/
theorem exec_proposeAccepted_taken (hts : s.Takes)
    (h : (s.NotSending ∧ (i ≠ s.ownId ∨ s.isMember = true)) ∨ s.InFlight i (.proposeAccepted i p)) :
    ∃ w, TakenIn s w
      ∧ exec (.proposeAccepted i p) s = .next ((w.doIf s.processesShared (processPropose i p)).settle)
      ∧ (s.NotSending → w.bi = { s.afterFrame.bi with
          queue := s.bi.queue.filter fun y => !redundant (decide (i = s.ownId)) p y.body })
      ∧ (s.InFlight i (.proposeAccepted i p) → w.bi = { s.busAfterOwn with
          queue := s.busAfterOwn.queue.filter fun y => !redundant (decide (i = s.ownId)) p y.body }) := by
  obtain ⟨u, hu, heq, hother, hown⟩ := acceptFrame_takenIn hts
    (h.imp_left fun h => ⟨h.1, h.2.imp_right .inl⟩) (State.handlePropose i p)
  obtain ⟨hw, hbi⟩ := hu.withdrawForPropose i p
  refine ⟨_, hw, (exec_proposeAccepted i p s).trans (congrArg _ (heq.trans ?_)), fun hn => ?_, fun hf => ?_⟩
  · rw [handlePropose, hu.processesShared]
  · rw [hbi, hother hn]
    rfl
  · rw [hbi, hown hf]

end State
end Sys2Proof.Machine
end

section
/-! PROPOSE at a member, at a follower and at a joiner (R8, R11, R13, R59, R61, R63, R94, R96 to R99, R103 to R105). -/

namespace Sys2Proof.Machine

variable {s t u v w : State} {i j : StationId} {e : QueueEntry} {z : Ticket} {r : ObjectReason} {y : QueuedFrame}
  {id : ProposalId} {c : ProposalContent} {f : Word} {p : ProposeFields} {why : ArrivalRefusal}

namespace State

/-! ### At a member (R13, R98, R99, R103 to R105) -/

/-- A member stays one, and only its transmit queue changes. -/
theorem member_processPropose (hm : s.isMember = true) (hi : s.Idle) (i : StationId) (p : ProposeFields) :
    (s.processPropose i p).isMember = true ∧ s.SameBus (s.processPropose i p) := by
  cases hr : s.arrivalRefusal i p with
  | none =>
    obtain ⟨c, hc⟩ := content_of_arrival hr
    rw [processPropose_enters hr hc]
    obtain ⟨-, -, -, -, -, hstation, -⟩ := enterProposal_kept ⟨i, p.seq⟩ c p.f s
    exact ⟨(isMember_congr hstation).trans hm, (offersObjections_enterProposal _ c p.f s).bus⟩
  | some why =>
    rw [processPropose_refuses hr, refuseProposal_eq]
    have hm' : (s.refused ⟨i, p.seq⟩ p why).isMember = true := (isMember_congr (by simp)).trans hm
    have hi' : (s.refused ⟨i, p.seq⟩ p why).Idle := hi.of_bi (by simp)
    have hbus : s.SameBus (s.refused ⟨i, p.seq⟩ p why) := .of_bi (by simp)
    generalize s.refused ⟨i, p.seq⟩ p why = u at hm' hi' hbus
    have hrefused : (u.trackedRefused why).isMember = true ∧ u.SameBus (u.trackedRefused why) := by
      obtain hs | hs := isMember_iff.mp hm'
      · rw [trackedRefused_member (by simp [hs])]
        exact ⟨hm', .refl u⟩
      · rw [trackedRefused_leaving hs]
        exact ⟨isMember_returnToMember u, sameBus_returnToMember hi' hm'⟩
    refine ⟨?_, hbus.trans (sameBus_doIf hrefused.2)⟩
    exact (doIf_keeps (P := State.isMember) (hrefused.1.trans hm'.symm)).trans hm'

/-- Where the proposal is not the tracked one, nothing but objections comes to the transmit queue. -/
theorem others_processPropose (ht : s.sc.tracked ≠ some ⟨i, p.seq⟩) :
    ((s.processPropose i p).bi.queue.filter fun y => y.body.cls ≠ 2) = s.bi.queue.filter fun y => y.body.cls ≠ 2 := by
  cases hr : s.arrivalRefusal i p with
  | none =>
    obtain ⟨c, hc⟩ := content_of_arrival hr
    rw [processPropose_enters hr hc]
    exact (offersObjections_enterProposal _ c p.f s).others
  | some why =>
    rw [processPropose_refuses hr, refuseProposal_untracked ht]
    simp

/-- The ticket of a refused own proposal, at a member (R99). -/
theorem ticket_processPropose_refused (hm : s.isMember = true) (hr : s.arrivalRefusal i p = some why)
    (hc : contentOf p = some c) (ho : i = s.ownId) (hp : s.sc.leavePending = false) (hz : z ∈ s.sp.tickets)
    (hu : z.unfinished = true) (hn : z.number = p.seq) (hk : z.kind.fits c = true) (hres : z.reserved = false) :
    z.refusedBy why p.f ∈ (s.processPropose i p).sp.tickets ∧ (s.processPropose i p).hasEvent .ticket = true := by
  obtain ⟨hmem, hevent⟩ := ticket_refused (id := ⟨i, p.seq⟩) (why := why) ho hc hz hu hn hk hres
  rw [processPropose_refuses hr]
  by_cases ht : s.sc.tracked = some ⟨i, p.seq⟩
  · rw [refuseProposal_tracked ht]
    refine ⟨?_, (steady_trackedRefused (Steady.rfl' (w := true))).hasEvent hevent⟩
    have hst : (s.refused ⟨i, p.seq⟩ p why).sc = s.sc := by simp
    generalize s.refused ⟨i, p.seq⟩ p why = u at hmem hst
    obtain hs | hs := isMember_iff.mp hm
    · rwa [trackedRefused_member (by simp [hst, hs])]
    · rw [trackedRefused_leaving (by rw [hst, hs])]
      obtain ⟨-, -, -, -, -, -, htickets, -⟩ := returnToMember_kept (s := u) (by rw [hst, hp])
      rwa [htickets]
  · rw [refuseProposal_untracked ht]
    exact ⟨hmem, hevent⟩

/-- A station LEAVING by the refused REMOVE is MEMBER again (R13). -/
theorem processPropose_returns (hr : s.arrivalRefusal i p = some why) (hs : s.sc.station = .leaving)
    (ht : s.sc.tracked = some ⟨i, p.seq⟩) (hp : s.sc.leavePending = false) :
    (s.processPropose i p).sc.station = .member ∧ (s.processPropose i p).sc.tracked = none
      ∧ (s.processPropose i p).hasEvent .state = true := by
  have hst : (s.refused ⟨i, p.seq⟩ p why).sc = s.sc := by simp
  rw [processPropose_refuses hr, refuseProposal_tracked ht, trackedRefused_leaving (by rw [hst, hs]),
    returnToMember_sc (by rw [hst, hp])]
  exact ⟨rfl, rfl, hasEvent_state_returnToMember (by rw [hst, hp])⟩

/-- A refusal leaves the Commit Queue, and no other station state where the proposal is not the tracked one (R99). -/
theorem processPropose_refused (hr : s.arrivalRefusal i p ≠ none) :
    (s.processPropose i p).cq.entries = s.cq.entries
      ∧ (s.sc.tracked ≠ some ⟨i, p.seq⟩ → (s.processPropose i p).sc = s.sc) := by
  obtain ⟨why, hwhy⟩ := Option.ne_none_iff_exists'.mp hr
  rw [processPropose_refuses hwhy]
  refine ⟨?_, fun ht => ?_⟩
  · rw [refuseProposal_eq]
    exact (((Leaves.of_kept (by simp) (by simp) (by simp) (by simp)).trans
      (leaves_doIf (leaves_trackedRefused why _))).shared.queue).symm
  · rw [refuseProposal_untracked ht]
    simp

theorem TakenIn.ownEntry (h : TakenIn s u) : u.ownEntry = s.ownEntry := by rw [State.ownEntry, h.entry, h.ownId]; rfl

theorem TakenIn.dutyMax (h : TakenIn s u) : u.dutyMax = s.dutyMax := by simp only [State.dutyMax, h.sp]

theorem TakenIn.classLatched (h : TakenIn s u) (k : InputClass) : u.classLatched k = s.classLatched k :=
  classLatched_congr h.inputRecord (by rw [h.sp])

/-- An own objection to an entered proposal is queued where there is room (R103 to R105, R107). -/
theorem objection_processPropose (hr : s.arrivalRefusal i p = none) (hc : contentOf p = some c)
    (ho : s.ownObjection c = some r) (hq : s.bi.queue.length < 6) :
    ⟨.object ⟨i, p.seq⟩ r, 0, false⟩ ∈ (s.processPropose i p).settle.bi.queue := by
  rw [settle_bi, processPropose_enters hr hc]
  exact objection_enterProposal ho hq

end State
end Sys2Proof.Machine
end

section
/-! The acceptance of a PROPOSE, whoever takes it (R8, R11, R13, R59, R61, R63, R94, R96 to R99, R103 to R105). -/

namespace Sys2Proof.Machine

variable {s t u v w : State} {i j : StationId} {e : QueueEntry} {z : Ticket} {r : ObjectReason} {y : QueuedFrame}
  {id : ProposalId} {c : ProposalContent} {f : Word} {p : ProposeFields} {why : ArrivalRefusal}

namespace State

/-- What a settled state says of the state that is settled. -/
theorem hasEvent_settle {k : Event} (h : s.hasEvent k = true) : s.settle.hasEvent k = true :=
  (steady_settle (Steady.rfl' (w := true))).hasEvent h

theorem sameCounters_settle_processPropose (h : TakenIn s w) (c : Bool) :
    (w.doIf c (processPropose i p)).settle.SameCounters s := by
  have hsteady : Steady true w (w.doIf c (processPropose i p)).settle :=
    steady_settle (steady_doIf .rfl' (steady_processPropose .rfl'))
  obtain ⟨hb, hk, hen, -⟩ := hsteady.counters rfl
  rw [h.tb] at hb hk hen
  exact sameCounters_of_tb hb hk hen

/-- A frame of the queue before the acceptance is none of those in flight after an own one (R61). -/
theorem not_inFlight_of_processed {test : QueuedFrame → Bool} (hw : w.bi.queue = s.busAfterOwn.queue.filter test)
    (h : Processed w t) (hy : y ∈ t.bi.queue) : y.inFlight = false := by
  obtain hy | hy := h.flight y hy
  · rw [hw] at hy
    exact not_inFlight_busAfterOwn (List.mem_of_mem_filter hy)
  · exact hy

theorem Processed.doIf {q : Bool} {g : State → State} (hi : s.Idle) (h : Processed s (g s)) : Processed s (s.doIf q g) := by
  cases q
  · exact ⟨rfl, rfl, rfl, hi.attempt, .inl rfl, fun y => .inl⟩
  · exact h

theorem Processed.settle (h : Processed s t) : Processed s t.settle :=
  ⟨by simp [h.entries], by simp [h.duty], by simp [h.tripSet], by simp [h.attempt], by simpa using h.abandonCount,
    by simpa using h.flight⟩

/-- The frames that an own acceptance leaves were queued before (R61). -/
theorem body_busAfterOwn (hy : y ∈ s.busAfterOwn.queue) : ∃ x ∈ s.bi.queue, x.body = y.body := by
  rw [busAfterOwn] at hy
  dsimp only at hy
  split at hy
  · obtain ⟨x, hx, rfl⟩ := List.mem_map.mp hy
    refine ⟨x, hx, ?_⟩
    split <;> rfl
  · exact ⟨y, List.mem_of_mem_filter hy, rfl⟩

/-- The frames that stay after an own PROPOSE, but for its objections (R59, R61). -/
theorem filter_redundant {q : List QueuedFrame} :
    ((q.filter fun y => !redundant true p y.body).filter fun y => y.body.cls ≠ 2)
      = q.filter fun y => y.body.cls ≠ 2 && !(p.kindCode = 1 && y.body.isAdmit)
          && !(p.kindCode = 2 && y.body.isLossOf (stationOfNibble p.target)) := by
  rw [List.filter_filter]
  refine List.filter_congr fun y _ => ?_
  simp [redundant, Bool.and_assoc]

/-- The Bus Interface of a member after its own PROPOSE (R59, R61, R63). -/
theorem member_bus_after_own (hw : w.bi = { s.busAfterOwn with
      queue := s.busAfterOwn.queue.filter fun y => !redundant true p y.body }) (hi : w.Idle) (hm : w.isMember = true) :
    (w.processPropose i p).settle.bi.attempt = none ∧ (w.processPropose i p).settle.bi.rx = none
      ∧ (w.processPropose i p).settle.bi.abandonCount = 0 ∧ (w.processPropose i p).settle.bi.rejectCount = 0
      ∧ (w.processPropose i p).settle.bi.tripSlot = s.busAfterOwn.tripSlot
      ∧ (∀ y ∈ (w.processPropose i p).settle.bi.queue, y.inFlight = false)
      ∧ (w.sc.tracked ≠ some ⟨i, p.seq⟩ → (w.processPropose i p).settle.bi.queue.filter (fun y => y.body.cls ≠ 2)
          = s.busAfterOwn.queue.filter (fun y => y.body.cls ≠ 2 && !(p.kindCode = 1 && y.body.isAdmit)
              && !(p.kindCode = 2 && y.body.isLossOf (stationOfNibble p.target)))) := by
  obtain ⟨-, q, hq⟩ := member_processPropose hm hi i p
  rw [settle_bi]
  refine ⟨by rw [hq, hw]; rfl, by rw [hq, hw]; rfl, by rw [hq, hw]; rfl, by rw [hq, hw]; rfl, by rw [hq, hw],
    fun y hy => not_inFlight_of_processed (by rw [hw]) (processed_processPropose hi i p) hy, fun ht => ?_⟩
  rw [others_processPropose ht, hw]
  exact filter_redundant

/-- The ticket of an entered own proposal (R98). -/
theorem ticket_processPropose (hr : s.arrivalRefusal i p = none) (hc : contentOf p = some c) (ho : i = s.ownId)
    (hz : z ∈ s.sp.tickets) (hu : z.unfinished = true) (hn : z.number = p.seq) (hk : z.kind.fits c = true)
    (hres : z.reserved = false) : ∃ y ∈ (s.processPropose i p).settle.sp.tickets, y.number = p.seq ∧ y.kind = z.kind
      ∧ y.state = .openState ∧ y.f = some p.f := by
  rw [processPropose_enters hr hc, (settle_kept _).2.2.2.2.2.2.2.2.2.1]
  exact ticket_enterProposal (id := ⟨i, p.seq⟩) ho hz hu hn hk hres

/-- An entered proposal and the station (R98). -/
theorem processPropose_entered (hr : s.arrivalRefusal i p = none) (hc : contentOf p = some c) :
    (s.processPropose i p).cq.entries
        = insertEntry s.tb.en ⟨⟨i, p.seq⟩, c, p.f, .openPhase, decide (i = s.ownId)⟩ s.cq.entries
      ∧ (s.processPropose i p).sc.station = s.sc.station ∧ (s.processPropose i p).sc.tracked = s.sc.tracked
      ∧ (s.sc.station ≠ .joining → (s.processPropose i p).sc = s.sc) := by
  rw [processPropose_enters hr hc]
  obtain ⟨-, -, -, -, hentries, hstation, htracked, hsc⟩ := enterProposal_kept ⟨i, p.seq⟩ c p.f s
  exact ⟨hentries, hstation, htracked, hsc⟩

/-! ### At a joiner whose ADMIT is refused (R8, R19) -/

theorem joiner_refused (hs : s.sc.station = .joining) (ht : s.sc.tracked = some ⟨i, p.seq⟩)
    (hr : s.arrivalRefusal i p = some why) (hv : v = (s.processPropose i p).settle) :
    v.SameShared s ∧ v.sc.tracked = none ∧ v.isMember = false ∧ v.hasEvent .state = true
      ∧ (why = .fingerprint → v.sc.station = .halted ∧ v.sc.reason = .fingerprint ∧ v.bi.queue = [])
      ∧ (why ≠ .fingerprint → s.sc.leavePending = false → v.sc.station = .listen ∧ v.sc.standing = s.sc.standing
          ∧ v.sc.joinHoldoff = s.listenEpochs ∧ v.rt.copySource = s.rt.copySource)
      ∧ (why ≠ .fingerprint → s.sc.leavePending = true → v.sc.station = .dormant ∧ v.bi.queue = []) := by
  obtain ⟨u, hu⟩ : ∃ u, u = s.refused ⟨i, p.seq⟩ p why := ⟨_, rfl⟩
  have hsc : u.sc = s.sc := by simp [hu]
  have hrt : u.rt = s.rt := by simp [hu]
  have hepochs : u.listenEpochs = s.listenEpochs := by simp [hu, listenEpochs]
  have hshared : (u.trackedRefused why).settle.SameShared s := by
    have hleaves : s.Leaves (u.trackedRefused why).settle :=
      ((Leaves.of_kept (by simp [hu]) (by simp [hu]) (by simp [hu]) (by simp [hu])).trans
        (leaves_trackedRefused why u)).trans (leaves_settle _)
    exact hleaves.shared
  rw [processPropose_refuses hr, refuseProposal_tracked ht, ← hu] at hv
  subst hv
  refine ⟨hshared, ?_⟩
  by_cases hw : why = .fingerprint
  · subst hw
    rw [trackedRefused_fingerprint (by rw [hsc, hs])]
    exact ⟨by simp, by simp [isMember], hasEvent_settle (hasEvent_enterHalted _ _), fun _ => ⟨by simp, by simp, by simp⟩,
      fun h => absurd rfl h, fun h => absurd rfl h⟩
  · rw [trackedRefused_joining (by rw [hsc, hs]) hw]
    cases hp : s.sc.leavePending with
    | false =>
      rw [joinFailed_listens (by rw [hsc, hp])]
      obtain ⟨-, -, hsource⟩ := listenWithCopy_bi u
      have hlisten := listenWithCopy_sc u
      exact ⟨by simp [hlisten], by simp [isMember, hlisten], hasEvent_settle (hasEvent_listenWithCopy _), fun h => absurd h hw,
        fun _ _ => ⟨by simp [hlisten], by simp [hlisten, hsc], by simp [hlisten, hepochs], by simp [hsource, hrt]⟩,
        fun _ h => absurd h (by simp)⟩
    | true =>
      rw [joinFailed_leaves (by rw [hsc, hp])]
      exact ⟨by simp, by simp [isMember], hasEvent_settle (hasEvent_enterDormant _), fun h => absurd h hw, fun _ h => absurd h (by simp),
        fun _ _ => ⟨by simp, by simp⟩⟩

/-- A PROPOSE at a member, taken in the state `w`. -/
structure TakenAtMember (i : StationId) (p : ProposeFields) (s w : State) : Prop where
  taken : TakenIn s w
  sc : w.sc = s.sc
  member : w.isMember = true
  exec : exec (.proposeAccepted i p) s = .next (w.processPropose i p).settle
  room : s.NotSending → s.bi.queue.length < 6 → w.bi.queue.length < 6
  own : s.InFlight i (.proposeAccepted i p) → w.bi = { s.busAfterOwn with
    queue := s.busAfterOwn.queue.filter fun y => !redundant true p y.body }

theorem takenAtMember (hm : s.isMember = true) (h : s.NotSending ∨ s.InFlight i (.proposeAccepted i p)) :
    ∃ w, TakenAtMember i p s w := by
  obtain ⟨w, hw, hexec, hother, hown⟩ := exec_proposeAccepted_taken (takes_of_member hm) (h.imp_left fun hn => ⟨hn, .inr hm⟩)
  have hne : s.sc.station ≠ .listen := by obtain h | h := isMember_iff.mp hm <;> simp [h]
  rw [processesShared_iff.mpr (.inl hm), doIf_true] at hexec
  refine ⟨w, hw, hw.sc hne, hw.isMember.trans hm, hexec, fun hn hq => ?_, fun hf => ?_⟩
  · rw [hother hn]
    exact (List.length_filter_le ..).trans_lt hq
  · rw [hown hf, decide_eq_true hf.1]

theorem TakenAtMember.objects (h : TakenAtMember i p s w) (hr : s.arrivalRefusal i p = none) (hc : contentOf p = some c)
    (ho : w.ownObjection c = some r) (hq : w.bi.queue.length < 6) :
    ⟨.object ⟨i, p.seq⟩ r, 0, false⟩ ∈ (w.processPropose i p).settle.bi.queue :=
  objection_processPropose (by rwa [h.taken.arrivalRefusal]) hc ho hq

/-- A frame that is not this station's own finds it sending nothing. -/
theorem notSending_of_other (h : s.NotSending ∨ s.InFlight i (.proposeAccepted i p)) (hi : i ≠ s.ownId ∨ s.NotSending) :
    s.NotSending :=
  h.elim id fun hf => hi.resolve_left fun hne => hne hf.1

theorem TakenAtMember.duty {d : Word} (h : TakenAtMember i p s w) (hd : s.dutyMax < d)
    (hs : s.ownEntry.holdsSlot = true) : w.ownObjection (.demand d) = some .dutyLimit :=
  ownObjection_duty h.member (by rwa [h.taken.dutyMax]) (by rwa [h.taken.ownEntry])

theorem TakenAtMember.active (h : TakenAtMember i p s w) (hl : s.classLatched .trip = true) :
    w.ownObjection (.clearTrip s.ownId) = some .stillActive := by
  rw [← h.taken.ownId]
  exact ownObjection_active h.member (by rwa [h.taken.classLatched])

theorem TakenAtMember.present (h : TakenAtMember i p s w) : w.ownObjection (.remove s.ownId .lost) = some .present := by
  rw [← h.taken.ownId]
  exact ownObjection_present h.member

end State

open State in
/-- Settles O44. -/
theorem proposeAccepted : Obligations.ProposeAccepted := by
  refine ⟨fun i p s hm h => ?_, fun i p s hf h => ?_, fun p q a r s hs hc ha hframe ht hr => ?_, insertEntry_eq_append⟩
  · obtain ⟨w, hw⟩ := takenAtMember hm h
    have htaken := hw.taken
    have hprocessed := processed_processPropose htaken.idle i p
    have hcounters := sameCounters_settle_processPropose (i := i) (p := p) htaken true
    have hmember := (member_processPropose hw.member htaken.idle i p).1
    have hrefusal := htaken.arrivalRefusal i p
    refine ⟨_, hw.exec, by simp [hprocessed.entries, htaken.rt], by simp [hprocessed.duty, htaken.cq],
      by simp [hprocessed.tripSet, htaken.tripSet], (isMember_congr (by simp)).trans hmember, hcounters, fun hfl => ?_,
      fun c hr hc => ?_, fun hr => ?_, fun c r hr hc ho hp z hz hu hn hk hres => ?_, fun hr ht => ?_, fun hr hs ht hp => ?_,
      fun d hr hc hd hslot hq hi => ?_, fun hr hc hl hq hi => ?_, fun hr hc hq hi => ?_, fun d hfl hr hc hd hslot hq => ?_⟩
    · have hbus := member_bus_after_own (i := i) (hw.own hfl) htaken.idle hw.member
      rwa [hw.sc] at hbus
    · obtain ⟨hentries, -, -, hsc⟩ := processPropose_entered (hrefusal.trans hr) hc
      refine ⟨by simp [hentries, htaken.tb, htaken.cq, htaken.ownId], ?_, fun ho z hz hu hn hk hres => ?_⟩
      · rw [(settle_kept _).1, hsc (by obtain h | h := isMember_iff.mp hw.member <;> simp [h]), hw.sc]
      · exact ticket_processPropose (hrefusal.trans hr) hc (ho.trans htaken.ownId.symm) (by rwa [htaken.sp]) hu hn hk hres
    · rw [(settle_kept _).2.2.2.2.1, (processPropose_refused (by rwa [hrefusal])).1, htaken.cq]
    · obtain ⟨hmem, hevent⟩ := ticket_processPropose_refused (z := z) hw.member (hrefusal.trans hr) hc (ho.trans htaken.ownId.symm)
        (by rwa [hw.sc]) (by rwa [htaken.sp]) hu hn hk hres
      exact ⟨by rw [(settle_kept _).2.2.2.2.2.2.2.2.2.1]; exact hmem, hasEvent_settle hevent⟩
    · rw [(settle_kept _).1, (processPropose_refused (by rwa [hrefusal])).2 (by rwa [hw.sc]), hw.sc]
    · obtain ⟨why, hwhy⟩ := Option.ne_none_iff_exists'.mp hr
      obtain ⟨hstation, htracked, hevent⟩ := processPropose_returns (hrefusal.trans hwhy) (by rwa [hw.sc]) (by rwa [hw.sc])
        (by rwa [hw.sc])
      exact ⟨by simp [hstation], by simp [htracked], hasEvent_settle hevent⟩
    · exact hw.objects hr hc (hw.duty hd hslot) (hw.room (notSending_of_other h hi) hq)
    · exact hw.objects hr hc (hw.active hl) (hw.room (notSending_of_other h hi) hq)
    · exact hw.objects hr hc hw.present (hw.room (notSending_of_other h (.inl hi)) hq)
    · refine hw.objects hr hc (hw.duty hd hslot) ?_
      rw [hw.own hfl]
      exact (List.length_filter_le ..).trans_lt hq
  · obtain ⟨w, hw, hexec, -, hown⟩ := exec_proposeAccepted_taken (takes_of_follower hf)
      (h.imp_left fun ⟨hn, hi⟩ => ⟨hn, .inl hi⟩)
    have hprocessed : Processed w (w.doIf s.processesShared (processPropose i p)).settle :=
      (Processed.doIf hw.idle (processed_processPropose hw.idle i p)).settle
    have hshared : s.processesShared = s.hasCopy := by
      rw [processesShared, hf, isMember_of_follower hf, Bool.true_and, Bool.false_or]
    have hrefusal := hw.arrivalRefusal i p
    have hcounters := sameCounters_settle_processPropose (i := i) (p := p) hw s.processesShared
    refine ⟨_, hexec, hprocessed.entries.trans (by rw [hw.rt]), hprocessed.duty.trans (by rw [hw.cq]),
      hprocessed.tripSet.trans hw.tripSet, hcounters, fun c hc hr hcon => ?_, fun hno => ?_, fun hfl => ⟨hprocessed.attempt, ?_, fun y hy => ?_⟩,
      fun fp kind hfl hc hr hcon hs ht hp hwq hq => ?_⟩
    · obtain ⟨hentries, hstation, htracked, -⟩ := processPropose_entered (hrefusal.trans hr) hcon
      rw [hshared, hc, doIf_true]
      exact ⟨by simp [hentries, hw.tb, hw.cq, hw.ownId], by simp [hstation, hw.station], by simp [htracked, hw.tracked]⟩
    · rw [(settle_kept _).2.2.2.2.1, hshared, ← hw.cq]
      cases hc : s.hasCopy with
      | false => rfl
      | true =>
        rw [doIf_true]
        exact (processPropose_refused (hrefusal ▸ hno.resolve_left (by simp [hc]))).1
    · have habandon := hprocessed.abandonCount
      rw [hown hfl] at habandon
      exact habandon.elim (fun h => h) fun h => h
    · exact not_inFlight_of_processed (by rw [hown hfl]) hprocessed hy
    · rw [settle_bi, hshared, hc, doIf_true, processPropose_enters (hrefusal.trans hr) hcon]
      have hno := no_admission_of_arrival (hrefusal.trans hr) hcon
      refine withdrawal_enterProposal (hw.station.trans hs) (hw.tracked.trans ht) (hw.leavePending.trans hp)
        (hfl.1.trans hw.ownId.symm) (fun x hx hxo => hno x hx (hxo.trans (hw.ownId.trans hfl.1.symm))) ?_ ?_
      · refine hasQueued_eq_false_iff.mpr fun y hy => ?_
        rw [hown hfl] at hy
        obtain ⟨x, hx, hbody⟩ := body_busAfterOwn (List.mem_of_mem_filter hy)
        rw [← hbody]
        exact hasQueued_eq_false_iff.mp hwq x hx
      · rw [hown hfl]
        exact (List.length_filter_le ..).trans_lt hq
  · have hfl : s.InFlight s.ownId (.proposeAccepted s.ownId p) := ⟨rfl, a, ha, by rw [hframe]; rfl⟩
    have hf : s.isFollower = true := by simp [isFollower, hs]
    obtain ⟨w, hw, hexec, -, -⟩ := exec_proposeAccepted_taken (takes_of_follower hf) (.inr hfl)
    rw [processesShared_iff.mpr (.inr ⟨hf, hc⟩), doIf_true] at hexec
    have hcounters := sameCounters_settle_processPropose (i := s.ownId) (p := p) hw true
    have hsteady : Steady true w (w.processPropose s.ownId p).settle := steady_settle (steady_processPropose .rfl')
    obtain ⟨hshared, htracked, hm, hevent, hhalted, hlisten, hdormant⟩ := joiner_refused (hw.station.trans hs)
      (hw.tracked.trans ht) ((hw.arrivalRefusal _ _).trans hr) rfl
    have hepochs : w.listenEpochs = s.listenEpochs := by simp only [listenEpochs, hw.sp]
    rw [hw.leavePending, hw.standing, hepochs, hw.rt] at hlisten
    rw [hw.leavePending] at hdormant
    exact ⟨_, hexec, hw.sameShared.trans' hshared, hcounters,
      fun hg => outputsOff_of_settled (settle_settled _) hm (hsteady.gates (by rwa [hw.os])), htracked, hevent, hhalted, hlisten,
      hdormant⟩

end Sys2Proof.Machine
end

section
/-! TIME_STEP is set by a time step alone (R33, R34): no alignment and no work of a boundary sets it. -/

namespace Sys2Proof.Machine

variable {s t u : State}

namespace State

/-- Whether a time step has been reported. -/
def stepped (s : State) : Bool := s.hasEvent .timeStep

theorem stepped_congr (h : t.sp = s.sp) : t.stepped = s.stepped := by rw [stepped, hasEvent, h]; rfl

/-! ### The state's operations -/

@[simp] theorem stepped_raise {e : Event} (h : e ≠ .timeStep) (s : State) : (s.raise e).stepped = s.stepped :=
  hasEvent_raise_of_ne h.symm s

@[simp] theorem stepped_modTb (f : TimeBase → TimeBase) (s : State) : (s.modTb f).stepped = s.stepped := rfl
@[simp] theorem stepped_modSc (f : StationController → StationController) (s : State) :
    (s.modSc f).stepped = s.stepped := rfl
@[simp] theorem stepped_modBi (f : BusInterface → BusInterface) (s : State) : (s.modBi f).stepped = s.stepped := rfl
@[simp] theorem stepped_modRt (f : RosterTable → RosterTable) (s : State) : (s.modRt f).stepped = s.stepped := rfl
@[simp] theorem stepped_modCq (f : CommitQueue → CommitQueue) (s : State) : (s.modCq f).stepped = s.stepped := rfl
@[simp] theorem stepped_modPu (f : PlacementUnit → PlacementUnit) (s : State) : (s.modPu f).stepped = s.stepped := rfl
@[simp] theorem stepped_modOs (f : OutputStage → OutputStage) (s : State) : (s.modOs f).stepped = s.stepped := rfl
@[simp] theorem stepped_modFu (f : FaultUnit → FaultUnit) (s : State) : (s.modFu f).stepped = s.stepped := rfl

@[simp] theorem stepped_doIf (c : Bool) (f : State → State) (s : State) :
    (s.doIf c f).stepped = if c then (f s).stepped else s.stepped := by cases c <;> rfl

theorem stepped_ite (c : Prop) [Decidable c] (s t : State) :
    (if c then s else t).stepped = if c then s.stepped else t.stepped := by split <;> rfl

@[simp] theorem stepped_updateTickets (hit : Ticket → Bool) (f : Ticket → Ticket) (s : State) :
    (s.updateTickets hit f).stepped = s.stepped := by simp [updateTickets]; rfl

@[simp] theorem stepped_reportTicket (n : Byte) (d : ProposalContent) (f : Ticket → Ticket) (s : State) :
    (s.reportTicket n d f).stepped = s.stepped := stepped_updateTickets _ f s

@[simp] theorem stepped_voidTickets (r : VoidReason) (s : State) : (s.voidTickets r).stepped = s.stepped :=
  stepped_updateTickets _ _ s

@[simp] theorem stepped_abandonReserved (s : State) : s.abandonReserved.stepped = s.stepped := stepped_updateTickets _ _ s

@[simp] theorem stepped_issueTicket (n : Byte) (kind : TicketKind) (c : Bool) (s : State) :
    (s.issueTicket n kind c).stepped = s.stepped := rfl

@[simp] theorem stepped_setRoster (l : List RosterEntry) (s : State) : (s.setRoster l).stepped = s.stepped := by
  simp [setRoster]

@[simp] theorem stepped_clearRoster (s : State) : s.clearRoster.stepped = s.stepped := stepped_setRoster _ s

@[simp] theorem stepped_setEntry (i : StationId) (e : RosterEntry) (s : State) : (s.setEntry i e).stepped = s.stepped :=
  stepped_setRoster _ s

@[simp] theorem stepped_setTripSet (m : StationMask) (s : State) : (s.setTripSet m).stepped = s.stepped := by
  simp [setTripSet]

@[simp] theorem stepped_setQueue (q : List QueuedFrame) (s : State) : (s.setQueue q).stepped = s.stepped := rfl

@[simp] theorem stepped_dropFrames (test : QueuedFrame → Bool) (s : State) : (s.dropFrames test).stepped = s.stepped :=
  stepped_congr (by simp)

@[simp] theorem stepped_dropBodies (test : QueuedBody → Bool) (s : State) : (s.dropBodies test).stepped = s.stepped :=
  stepped_congr (by simp)

@[simp] theorem stepped_offered (b : QueuedBody) (s : State) : (s.offered b).stepped = s.stepped := rfl

@[simp] theorem stepped_proposed (c : ProposalContent) (s : State) : (s.proposed c).stepped = s.stepped := rfl

@[simp] theorem stepped_emptyQueue (r : VoidReason) (s : State) : (s.emptyQueue r).stepped = s.stepped := by
  rw [emptyQueue, stepped_modCq]
  exact foldl_keeps (P := stepped) (fun s e => stepped_reportTicket ..) _ s

@[simp] theorem stepped_abandonTicketsOf (test : QueuedFrame → Bool) (s : State) :
    (s.abandonTicketsOf test).stepped = s.stepped := by
  refine foldl_keeps (P := stepped) (fun s x => ?_) _ s
  split
  · exact stepped_reportTicket ..
  · rfl

@[simp] theorem stepped_dropGroupFrames (kept : QueuedBody → Bool) (s : State) :
    (s.dropGroupFrames kept).stepped = s.stepped := by simp [dropGroupFrames]

@[simp] theorem stepped_emptyTripSlot (s : State) : s.emptyTripSlot.stepped = s.stepped := rfl

@[simp] theorem stepped_dropMemberWork (s : State) : s.dropMemberWork.stepped = s.stepped := rfl

@[simp] theorem stepped_stopDrive (s : State) : s.stopDrive.stepped = s.stepped := rfl

@[simp] theorem stepped_moveTo (new : StationState) (s : State) : (s.moveTo new).stepped = s.stepped := by
  simp [moveTo]

/-! ### The local cycle and the output -/

@[simp] theorem stepped_regate (s : State) : s.regate.stepped = s.stepped := rfl

@[simp] theorem stepped_remode (s : State) : s.remode.stepped = s.stepped := stepped_congr (by simp)

@[simp] theorem stepped_reachTest (s : State) : s.reachTest.stepped = s.stepped := by
  unfold reachTest
  split
  · rfl
  · split <;> simp

@[simp] theorem stepped_reanchor (s : State) : s.reanchor.stepped = s.stepped := by
  simp [reanchor]

@[simp] theorem stepped_jumpTo (n : Nat) (s : State) : (s.jumpTo n).stepped = s.stepped := by simp [jumpTo]

@[simp] theorem stepped_retargetTo (n : Nat) (s : State) : (s.retargetTo n).stepped = s.stepped := by
  unfold retargetTo
  split <;> simp

@[simp] theorem stepped_recomputeTarget (s : State) : s.recomputeTarget.stepped = s.stepped := by
  unfold recomputeTarget
  split
  · rfl
  · split
    · rfl
    · split <;> simp

@[simp] theorem stepped_jumpToTarget (s : State) : s.jumpToTarget.stepped = s.stepped := by
  unfold jumpToTarget
  split
  · simp
  · split <;> simp

@[simp] theorem stepped_settle (s : State) : s.settle.stepped = s.stepped := by simp [settle]

@[simp] theorem stepped_clampEvent (s : State) : s.clampEvent.stepped = s.stepped := by
  unfold clampEvent
  split
  · rfl
  · split
    · rfl
    · split <;> simp

@[simp] theorem stepped_enterRun (s : State) : s.enterRun.stepped = s.stepped := by
  unfold enterRun
  split <;> rfl

@[simp] theorem stepped_placeCycle (s : State) : s.placeCycle.stepped = s.stepped := by
  simp [placeCycle]

@[simp] theorem stepped_cycleStart (c : Bool) (s : State) : (s.cycleStart c).stepped = s.stepped := by
  simp [cycleStart, latchCompare]

@[simp] theorem stepped_shedTest (s : State) : s.shedTest.stepped = s.stepped := stepped_congr (by simp)

@[simp] theorem stepped_readmissionTest (s : State) : s.readmissionTest.stepped = s.stepped := stepped_congr (by simp)

@[simp] theorem stepped_withdrawalTest (s : State) : s.withdrawalTest.stepped = s.stepped := stepped_congr (by simp)

@[simp] theorem stepped_memberTests (s : State) : s.memberTests.stepped = s.stepped := stepped_congr (by simp)

theorem stepped_modInput (i : InputNo) (f : InputRecord → InputRecord) (s : State) : (s.modInput i f).stepped = s.stepped :=
  stepped_congr (by simp)

@[simp] theorem stepped_halfPoint (s : State) : s.halfPoint.stepped = s.stepped := by
  rw [halfPoint, stepped_settle]
  refine foldl_keeps (P := stepped) (fun s i => ?_) _ s
  unfold pointForInput
  split
  · simp [stepped_modInput]
  · rfl

@[simp] theorem stepped_crossStart (c : Bool) (s : State) : (s.crossStart c).2.stepped = s.stepped := by
  have hnext : s.nextFree.stepped = s.stepped := rfl
  simp only [crossStart]
  split
  · simp
  · split <;> simp [hnext]

@[simp] theorem stepped_passTo (p : Nat) (s : State) : (s.passTo p).stepped = s.stepped := by
  simp [passTo, pointIfPassed]

@[simp] theorem stepped_releaseIf (c : Bool) (s : State) : (s.releaseIf c).stepped = s.stepped := by
  simp [releaseIf]

theorem stepped_alignCycle (j : Nat) (c : Bool) (s : State) : (s.alignCycle j c).stepped = s.stepped := by
  unfold alignCycle
  split
  · simp [jumpWithin]
  · split
    · simp [jumpAcrossEnd]
    · simp

/-! ### The changes of station state -/

@[simp] theorem stepped_enterListen (standing : FollowStanding) (n : Nat) (s : State) :
    (s.enterListen standing n).stepped = s.stepped := by simp [enterListen]

@[simp] theorem stepped_discardCopy (s : State) : s.discardCopy.stepped = s.stepped := by simp [discardCopy]

@[simp] theorem stepped_clearBus (s : State) : s.clearBus.stepped = s.stepped := rfl

@[simp] theorem stepped_clearBlanking (s : State) : s.clearBlanking.stepped = s.stepped := rfl

@[simp] theorem stepped_enterDormant (s : State) : s.enterDormant.stepped = s.stepped := by simp [enterDormant]

@[simp] theorem stepped_enterHoldover (s : State) : s.enterHoldover.stepped = s.stepped := by
  unfold enterHoldover
  split <;> simp

@[simp] theorem stepped_freeTimeBase (s : State) : s.freeTimeBase.stepped = s.stepped := by
  simp only [freeTimeBase]
  split <;> simp

@[simp] theorem stepped_enterLocked (s : State) : s.enterLocked.stepped = s.stepped := by simp [enterLocked]

@[simp] theorem stepped_leaveHoldover (s : State) : s.leaveHoldover.stepped = s.stepped := by
  simp only [leaveHoldover]
  split <;> simp

@[simp] theorem stepped_enterIsolated (r : Reason) (s : State) : (s.enterIsolated r).stepped = s.stepped := by
  simp [enterIsolated, clearFaults, forgetQueue, forgetRoster]

@[simp] theorem stepped_isolate (r : Reason) (s : State) : (s.isolate r).stepped = s.stepped := by simp [isolate]

@[simp] theorem stepped_enterResync (key : Option Nat) (s : State) : (s.enterResync key).stepped = s.stepped := by
  simp [enterResync]

@[simp] theorem stepped_becomeLeaving (n : Byte) (s : State) : (s.becomeLeaving n).stepped = s.stepped := by
  simp [becomeLeaving]

@[simp] theorem stepped_proposeLeave (s : State) : s.proposeLeave.stepped = s.stepped := by
  obtain hq | hq := Nat.lt_or_ge s.bi.queue.length 6
  · cases hr : s.reservedTicket with
    | none =>
      rw [proposeLeave_fresh hr hq]
      simp
    | some r =>
      rw [proposeLeave_reserved hr hq]
      simp
  · rw [proposeLeave_of_full hq]

@[simp] theorem stepped_leaveIfPending (s : State) : s.leaveIfPending.stepped = s.stepped := by simp [leaveIfPending]

@[simp] theorem stepped_becomeMember (s : State) : s.becomeMember.stepped = s.stepped := by simp [becomeMember]

@[simp] theorem stepped_enterGroup (s : State) : s.enterGroup.stepped = s.stepped := by
  unfold enterGroup
  split
  · simp [enterMember]
  · split
    · rfl
    · obtain hq | hq := Nat.lt_or_ge s.bi.queue.length 6
      · rw [proposeAdmission_of_room hq]
        simp
      · rw [proposeAdmission_of_full hq]
        simp

@[simp] theorem stepped_listenRemoved (s : State) : s.listenRemoved.stepped = s.stepped := by simp [listenRemoved]

@[simp] theorem stepped_listenUnheard (s : State) : s.listenUnheard.stepped = s.stepped := by simp [listenUnheard]

@[simp] theorem stepped_joinMissed (s : State) : s.joinMissed.stepped = s.stepped := by
  simp only [joinMissed]
  split <;> simp

/-! ### The three steps of a boundary -/

@[simp] theorem stepped_dropEntry (id : ProposalId) (s : State) : (s.dropEntry id).stepped = s.stepped := by
  simp [dropEntry]

@[simp] theorem stepped_applyContent (e : QueueEntry) (s : State) : (s.applyContent e).stepped = s.stepped := by
  unfold applyContent
  split <;> simp

@[simp] theorem stepped_applyToOwn (e : QueueEntry) (s : State) : (s.applyToOwn e).stepped = s.stepped := by
  unfold applyToOwn
  split
  · rfl
  · split <;> simp

theorem stepped_applyEntry (s : State) (e : QueueEntry) : (s.applyEntry e).stepped = s.stepped := by simp [applyEntry]

theorem stepped_makeEntryFirm (s : State) (e : QueueEntry) : (s.makeEntryFirm e).stepped = s.stepped := by
  simp [makeEntryFirm]

theorem stepped_stepTwo (s : State) : s.stepTwo.stepped = s.stepped := by
  rw [stepTwo, stepped_settle]
  exact (foldl_keeps (P := stepped) stepped_makeEntryFirm _ _).trans (foldl_keeps (P := stepped) stepped_applyEntry _ s)

theorem stepped_stepThree (admitted : StationId → Bool) (s : State) : (s.stepThree admitted).stepped = s.stepped := by
  have hlosses : (s.updateSilence admitted).proposeLosses.stepped = s.stepped :=
    stepped_congr ((proposeLosses_kept _).2.2.2.2.1.trans rfl)
  have hupdated : ((s.updateSilence admitted).doIf s.isMember proposeLosses).stepped = s.stepped := by
    rw [stepped_doIf, hlosses]
    exact ite_self _
  simp only [stepThree]
  generalize (s.updateSilence admitted).doIf s.isMember proposeLosses = u at hupdated
  split
  · rfl
  · simp [clearHeard, hupdated]

theorem stepped_found (s : State) : s.found.stepped = s.stepped := by
  have hadopt (v : State) : v.adoptTarget.stepped = v.stepped := by
    unfold adoptTarget
    split
    · simp
    · simp [endSlew]
  simp [found, hadopt]

theorem stepped_stepsOneToThree (s : State) : s.stepsOneToThree.stepped = s.stepped := by
  have hone : s.stepOne.stepped = s.stepped := rfl
  simp only [stepsOneToThree, stepsOneAndTwo, stepped_doIf, stepped_settle, stepped_stepThree]
  split <;> split <;> simp [stepped_found, stepped_stepTwo, hone]

/-! ### The work after them -/

theorem stepped_heardGroupTest (s : State) : s.heardGroupTest.stepped = s.stepped := by
  have hyields (n : Nat) (v : State) : (v.yieldToGroup n).stepped = v.stepped := by
    simp only [yieldToGroup]
    split <;> simp
  simp only [heardGroupTest]
  split
  · cases s.lowerGroup with
    | none => rfl
    | some n => exact hyields n _
  · rfl

theorem stepped_offerAtBoundary (s : State) : s.offerAtBoundary.stepped = s.stepped := by
  have hwithdrawal (v : State) (e : QueueEntry) : (v.offerWithdrawal e).stepped = v.stepped := by
    by_cases ha : v.WithdrawAsked e
    · rw [offerWithdrawal_of_asked ha]
      obtain hq | hq := Nat.lt_or_ge v.bi.queue.length 6
      · rw [offer_of_room _ hq]
        simp
      · rw [offer_of_full _ hq]
    · rw [offerWithdrawal_of_not_asked ha]
  have hobjections : (offerObjections s.cq.pendingObjections s).stepped = s.stepped := stepped_congr (by simp)
  have howed (v : State) : v.offerOwedWithdrawal.stepped = v.stepped := stepped_congr (by simp)
  simp only [offerAtBoundary]
  exact (foldl_keeps (P := stepped) hwithdrawal _ _).trans (by simp [howed, hobjections])

theorem stepped_groupWork (n : Nat) (s : State) : (s.groupWork n).stepped = s.stepped := by
  have hbuilt : (s.takeDigest.buildBeat n).stepped = s.stepped := stepped_congr (by simp)
  simp [groupWork, stepped_offerAtBoundary, stepped_heardGroupTest, hbuilt]

theorem stepped_lineWork (natural : Bool) (s : State) : (s.lineWork natural).stepped = s.stepped := by
  have hholdover (v : State) : v.holdoverAtBoundary.stepped = v.stepped := by
    simp only [holdoverAtBoundary]
    split
    · rfl
    · split <;> simp
  have hstuck (v : State) : v.countStuck.stepped = v.stepped := by
    simp only [countStuck]
    split <;> simp
  simp [lineWork, hstuck, hholdover, advanceClashWindow, startDrive, markSeenAtBoundary]

theorem stepped_controllerWork (c d : Bool) (s : State) : (s.controllerWork c d).stepped = s.stepped := by
  have hquiet (v : State) : (v.countQuiet d).stepped = v.stepped := by
    unfold countQuiet
    split <;> rfl
  have hunlocked (v : State) : v.countUnlocked.stepped = v.stepped := by
    simp only [countUnlocked]
    split <;> simp
  simp [controllerWork, resyncTest, joinTest, resyncTimeout, hunlocked, hquiet, countHoldoff]

/-- No boundary reports a time step. -/
theorem stepped_boundary (natural : Bool) (s : State) : (s.boundary natural).stepped = s.stepped := by
  have hoffers (v : State) : v.lateOffers.stepped = v.stepped := stepped_congr (by simp)
  simp only [boundary, stepped_settle, hoffers, stepped_controllerWork, stepped_lineWork, stepped_groupWork,
    stepped_stepsOneToThree]

theorem stepped_alignForward (lead : Nat) (c : Bool) (s : State) : (s.alignForward lead c).stepped = s.stepped := by
  have halign : (s.alignCounters.alignCycle lead c).stepped = s.stepped := stepped_alignCycle lead c _
  simp [alignForward, stepped_boundary, halign]

theorem stepped_alignBackward (s : State) : s.alignBackward.stepped = s.stepped := stepped_reanchor _

end State
end Sys2Proof.Machine
end

section
/-! The gates after a time step (R33, R34, R149): blanking holds both gates inactive through the alignment and the boundary
that follow it, or the station leaves the state it was in. -/

namespace Sys2Proof.Machine

variable {s t u : State} {Q : StationState → FollowStanding → Prop}

namespace State

/-! ### Blanking -/

/-- Blanking holds both gates inactive. -/
structure Blanked (s : State) : Prop where
  blanking : s.os.blanking = true
  gh : s.os.gh = false
  gl : s.os.gl = false

theorem Blanked.of_os (hs : s.Blanked) (h : t.os = s.os) : t.Blanked :=
  ⟨by rw [h]; exact hs.blanking, by rw [h]; exact hs.gh, by rw [h]; exact hs.gl⟩

theorem Blanked.doIf {c : Bool} {f : State → State} (hs : s.Blanked) (h : (f s).Blanked) : (s.doIf c f).Blanked := by
  cases c
  · exact hs
  · exact h

/-- Under blanking nothing is requested (R139, R149). -/
theorem blanked_regate (h : s.os.blanking = true) : s.regate.Blanked := by
  constructor <;> simp [regate, OutputStage.regate, OutputStage.request, requestOf, h]

theorem Blanked.remode (h : s.Blanked) : s.remode.Blanked := by
  unfold State.remode
  split
  · exact blanked_regate h.blanking
  · exact h

theorem Blanked.jumpTo (n : Nat) (h : s.Blanked) : (s.jumpTo n).Blanked := by
  have hmoved : ((s.modPu fun pu => { pu with
      target := some n, offset := n, slewing := false, step := 0, length := s.period }).modOs fun os =>
        { os with p := s.anchoredP n, anchored := true }).os.blanking = true := h.blanking
  exact (blanked_regate hmoved).of_os (by simp [State.jumpTo])

theorem Blanked.recomputeTarget (h : s.Blanked) : s.recomputeTarget.Blanked := by
  unfold State.recomputeTarget
  split
  · exact h
  · split
    · exact h.of_os rfl
    · split
      · unfold retargetTo
        split
        · exact h.of_os (by simp)
        · exact h.of_os rfl
      · exact h.jumpTo _

theorem Blanked.settle (h : s.Blanked) : s.settle.Blanked := h.remode.recomputeTarget

theorem Blanked.jumpToTarget (h : s.Blanked) : s.jumpToTarget.Blanked := by
  unfold State.jumpToTarget
  split
  · exact h.recomputeTarget
  · split
    · exact h
    · exact h.jumpTo _

theorem Blanked.reanchor (h : s.Blanked) : s.reanchor.Blanked := by
  refine blanked_regate ?_
  simp [h.blanking]

theorem pointForInput_os (s : State) (i : InputNo) : (s.pointForInput i).os = s.os := by
  cases hc : s.clearsAtPoint i with
  | true => simp [pointForInput_of_clears hc, unlatched]
  | false => simp [pointForInput_of_stays hc]

theorem Blanked.halfPoint (h : s.Blanked) : s.halfPoint.Blanked :=
  (h.of_os (foldl_keeps (P := (·.os)) pointForInput_os allInputs s)).settle

theorem clampEvent_blanking (s : State) : s.clampEvent.os.blanking = s.os.blanking := by
  unfold clampEvent
  split
  · rfl
  · split
    · rfl
    · split <;> simp

theorem cycleLatched_blanking (s : State) : s.cycleLatched.os.blanking = s.os.blanking := by
  simp [cycleLatched, latchCompare]

/-- The start that a time step's own alignment crosses does not end the blanking (R149). -/
theorem Blanked.cycleStart (h : s.Blanked) : (s.cycleStart false).Blanked := by
  have hblanking : s.cycleLatched.clampEvent.os.blanking = true := by
    rw [clampEvent_blanking, cycleLatched_blanking, h.blanking]
  rw [cycleStart_eq]
  refine blanked_regate ?_
  rw [modOs_os, hblanking]
  rfl

theorem Blanked.crossStart (h : s.Blanked) : (s.crossStart false).2.Blanked := by
  have hfree : s.nextFree.Blanked := h.of_os rfl
  have hstart : (s.startWithPoint false).Blanked := by
    rw [startWithPoint_eq]
    split
    · exact h.cycleStart
    · split
      · exact hfree.halfPoint.cycleStart
      · exact hfree.cycleStart.halfPoint
  exact hstart

theorem Blanked.passTo (p : Nat) (h : s.Blanked) : (s.passTo p).Blanked := by
  have hmoved : (s.modOs fun os => { os with p := p }).Blanked := ⟨h.blanking, h.gh, h.gl⟩
  exact hmoved.doIf hmoved.halfPoint

theorem Blanked.releaseIf (c : Bool) (h : s.Blanked) : (s.releaseIf c).Blanked := h.doIf ⟨h.blanking, rfl, rfl⟩

/-- The alignment of a time step keeps its blanking. -/
theorem Blanked.alignCycle (j : Nat) (h : s.Blanked) : (s.alignCycle j true).Blanked := by
  unfold State.alignCycle
  split
  · exact (h.passTo _).releaseIf _
  · split
    · exact (((h.passTo _).crossStart).passTo _).releaseIf _
    · exact h.reanchor

/-! ### The station that leaves the blanking behind -/

/-- A set of station states with their standing that the work of a boundary does not leave again, and that holds no member
and no station on the way in. -/
structure Absorbing (Q : StationState → FollowStanding → Prop) : Prop where
  isolated : ∀ sd, Q .isolated sd
  outside : ∀ st sd, Q st sd → st ≠ .member ∧ st ≠ .leaving ∧ st ≠ .joining
  rests : ∀ st sd, Q st sd → sd = .none ∨ (st ≠ .listen ∧ st ≠ .resync)
  none : ∀ st sd, Q st sd → Q st .none
  unheard : ∀ sd, Q .resync sd → Q .listen .none

/-- Blanking still holds both gates inactive, or the station has come into `Q`. -/
def Held (Q : StationState → FollowStanding → Prop) (s : State) : Prop := s.Blanked ∨ Q s.sc.station s.sc.standing

theorem Held.of_kept (hs : s.Held Q) (hos : t.os = s.os) (hst : t.sc.station = s.sc.station)
    (hsd : t.sc.standing = s.sc.standing) : t.Held Q :=
  hs.imp (·.of_os hos) fun h => by rwa [hst, hsd]

theorem Held.doIf {c : Bool} {f : State → State} (hs : s.Held Q) (h : c = true → (f s).Held Q) : (s.doIf c f).Held Q := by
  cases c
  · exact hs
  · exact h rfl

theorem Held.settle (hs : s.Held Q) : s.settle.Held Q := hs.imp (·.settle) fun h => by simpa using h

theorem Held.isolate (hQ : Absorbing Q) (r : Reason) (hs : s.Held Q) : (s.isolate r).Held Q :=
  hs.doIf fun _ => .inr (by simpa using hQ.isolated _)

/-- Outside the group and the way in, blanking may be left behind. -/
theorem blanked_of_inside (hQ : Absorbing Q) (hs : s.Held Q)
    (h : s.sc.station = .member ∨ s.sc.station = .leaving ∨ s.sc.station = .joining) : s.Blanked := by
  refine hs.resolve_right fun hq => ?_
  obtain ⟨hm, hl, hj⟩ := hQ.outside _ _ hq
  obtain h | h | h := h
  · exact hm h
  · exact hl h
  · exact hj h

theorem blanked_of_confirmed (hQ : Absorbing Q) (hs : s.Held Q) (h : s.sc.standing = .confirmed)
    (hst : s.sc.station = .listen ∨ s.sc.station = .resync) : s.Blanked := by
  refine hs.resolve_right fun hq => ?_
  obtain hn | ⟨hl, hr⟩ := hQ.rests _ _ hq
  · rw [h] at hn
    exact absurd hn (by decide)
  · exact hst.elim hl hr

/-! ### The changes of station state -/

theorem proposeLeave_os (s : State) : s.proposeLeave.os = s.os := by
  obtain hq | hq := Nat.lt_or_ge s.bi.queue.length 6
  · exact (proposeLeave_kept hq).2.2.2.1
  · rw [proposeLeave_of_full hq]

theorem leaveIfPending_os (s : State) : s.leaveIfPending.os = s.os :=
  doIf_keeps (P := (·.os)) (proposeLeave_os s)

theorem becomeMember_os (s : State) : s.becomeMember.os = s.os := by
  simp [becomeMember, leaveIfPending_os]

theorem Blanked.enterGroup (h : s.Blanked) : s.enterGroup.Blanked := by
  unfold State.enterGroup
  split
  · exact ((h.of_os (becomeMember_os s)).settle.jumpToTarget).settle
  · split
    · exact h
    · refine Blanked.settle (h.of_os ?_)
      obtain hq | hq := Nat.lt_or_ge s.bi.queue.length 6
      · rw [proposeAdmission_of_room hq]
        simp
      · rw [proposeAdmission_of_full hq]

theorem Blanked.discardCopy (h : s.Blanked) : s.discardCopy.Blanked := Blanked.settle (h.of_os (by simp))

theorem Blanked.listenUnheard (h : s.Blanked) : s.listenUnheard.Blanked :=
  Blanked.settle (h.discardCopy.of_os (by simp))

theorem Blanked.listenRemoved (h : s.Blanked) : s.listenRemoved.Blanked :=
  Blanked.settle (h.of_os (by simp))

theorem Held.discardCopy (hQ : Absorbing Q) (hs : s.Held Q) : s.discardCopy.Held Q := by
  refine hs.imp (·.discardCopy) fun h => ?_
  simpa using hQ.none _ _ h

end State
end Sys2Proof.Machine
end

section
/-! A boundary under blanking (R22, R33, R149): every part of it keeps the blanking that holds the gates, or leaves the
station where none of the later parts drives them. -/

namespace Sys2Proof.Machine

variable {s t u : State} {Q : StationState → FollowStanding → Prop}

namespace State

/-! ### The three steps -/

/-- In the group or on the way in. -/
def Inside (s : State) : Prop := s.isMember = true ∨ s.sc.station = .joining

theorem inside_congr (h : t.sc.station = s.sc.station) : t.Inside ↔ s.Inside := by
  simp only [Inside, isMember_congr h, h]

theorem inside_iff : s.Inside ↔ s.sc.station = .member ∨ s.sc.station = .leaving ∨ s.sc.station = .joining := by
  simp [Inside, isMember, or_assoc]

/-- `Q` holds what a station inside may fall into. -/
structure Opens (Q : StationState → FollowStanding → Prop) : Prop where
  dormant : ∀ sd, Q .dormant sd
  resync : Q .resync .none

/-- Before the work after the three steps: as `Held`, and a station still inside may fall into `Q`. -/
structure Entering (Q : StationState → FollowStanding → Prop) (s : State) : Prop where
  held : s.Held Q
  opens : s.Inside → Opens Q

theorem Entering.of_kept (h : s.Entering Q) (hos : t.os = s.os) (hsc : t.sc = s.sc) : t.Entering Q :=
  ⟨h.held.of_kept hos (congrArg _ hsc) (congrArg _ hsc), fun hi => h.opens ((inside_congr (congrArg _ hsc)).mp hi)⟩

theorem Entering.settle (h : s.Entering Q) : s.settle.Entering Q :=
  ⟨h.held.settle, fun hi => h.opens ((inside_congr (by simp)).mp hi)⟩

theorem Entering.doIf {c : Bool} {f : State → State} (h : s.Entering Q) (hf : c = true → (f s).Entering Q) :
    (s.doIf c f).Entering Q := by
  cases c
  · exact h
  · exact hf rfl

theorem Entering.foldl {α : Type} {f : State → α → State} (hf : ∀ s x, s.Entering Q → (f s x).Entering Q) (l : List α)
    (h : s.Entering Q) : (l.foldl f s).Entering Q := by
  induction l generalizing s with
  | nil => exact h
  | cons x l ih => exact ih (hf s x h)

theorem Entering.enterDormant (h : s.Entering Q) (hi : s.Inside) : s.enterDormant.Entering Q :=
  ⟨.inr (by simpa using (h.opens hi).dormant _), fun hd => by simp [Inside, isMember] at hd⟩

theorem Entering.enterResync (h : s.Entering Q) (hi : s.Inside) : (s.enterResync none).Entering Q :=
  ⟨.inr (by simpa using (h.opens hi).resync), fun hd => by simp [Inside, isMember] at hd⟩

theorem Entering.blanked (hQ : Absorbing Q) (h : s.Entering Q) (hi : s.Inside) : s.Blanked :=
  blanked_of_inside hQ h.held (inside_iff.mp hi)

theorem Entering.listenRemoved (hQ : Absorbing Q) (h : s.Entering Q) (hi : s.Inside) : s.listenRemoved.Entering Q :=
  ⟨.inl (h.blanked hQ hi).listenRemoved, fun hd => by simp [Inside, isMember, State.listenRemoved] at hd⟩

theorem Entering.becomeMember (hQ : Absorbing Q) (h : s.Entering Q) (hi : s.Inside) : s.becomeMember.Entering Q :=
  ⟨.inl ((h.blanked hQ hi).of_os (becomeMember_os s)), fun _ => h.opens hi⟩

theorem Entering.applyToOwn (hQ : Absorbing Q) (e : QueueEntry) (h : s.Entering Q) : (s.applyToOwn e).Entering Q := by
  unfold State.applyToOwn
  split
  · exact h
  · split
    · exact h.doIf fun hj => h.becomeMember hQ (.inr (by simpa using hj))
    · exact h.doIf fun hm => h.enterDormant (.inl hm)
    · exact h.doIf fun hm => h.listenRemoved hQ (.inl hm)
    · exact h
    · exact h
    · exact h

theorem Entering.stepTwo (hQ : Absorbing Q) (h : s.Entering Q) : s.stepTwo.Entering Q := by
  have happly (v : State) (e : QueueEntry) (hv : v.Entering Q) : (v.applyEntry e).Entering Q := by
    rw [applyEntry_eq]
    exact (hv.of_kept (by simp) (by simp)).applyToOwn hQ e
  have hfirm (v : State) (e : QueueEntry) (hv : v.Entering Q) : (v.makeEntryFirm e).Entering Q := by
    obtain ⟨late, -, heq⟩ := makeEntryFirm_eq v e
    rw [heq]
    exact hv.of_kept (by simp) (by simp)
  exact ((h.foldl happly _).foldl hfirm _).settle

theorem Entering.stepThree (admitted : StationId → Bool) (h : s.Entering Q) : (s.stepThree admitted).Entering Q := by
  cases hm : s.isMember with
  | true =>
    obtain ⟨hsc, -, -, hos, -⟩ := proposeLosses_kept (s.updateSilence admitted)
    have hcleared : (s.updateSilence admitted).proposeLosses.clearHeard.Entering Q :=
      h.of_kept (by simp [hos]) (by simp [hsc])
    rw [stepThree_of_member admitted hm]
    exact hcleared.doIf fun _ => hcleared.enterResync (.inl ((isMember_congr (by simp [hsc])).trans hm))
  | false =>
    cases hf : s.isFollower with
    | true =>
      rw [stepThree_of_follower admitted hf]
      split
      · exact h.of_kept (by simp) (by simp)
      · exact h
    | false =>
      have hcounts : s.countsSilence = false := by simp [countsSilence, hm, hf]
      simp only [State.stepThree, hcounts]
      exact h

theorem Entering.stepsOneToThree (hQ : Absorbing Q) (hf : s.foundsNow = false) (h : s.Entering Q) :
    s.stepsOneToThree.Entering Q := by
  have hone : s.stepOne.Entering Q := h.of_kept rfl rfl
  cases ha : s.actsAtBoundary with
  | true =>
    rw [stepsOneToThree_of_acts hf ha]
    exact ((hone.stepTwo hQ).stepThree _).settle
  | false => rwa [stepsOneToThree_of_rests ha hf]

/-! ### The work after them -/

theorem Entering.joinMissed (hQ : Absorbing Q) (h : s.Entering Q) (hj : s.sc.station = .joining) : s.joinMissed.Held Q := by
  have hblanked : (s.dropBodies (·.isAdmit)).discardCopy.Blanked := ((h.blanked hQ (.inr hj)).of_os (by simp)).discardCopy
  simp only [State.joinMissed]
  split
  · exact .inr (by simpa using (h.opens (.inr hj)).dormant _)
  · exact .inl (Blanked.settle (hblanked.of_os (by simp)))

theorem Entering.yieldToGroup (hQ : Absorbing Q) (n : Nat) (h : s.Entering Q) : (s.yieldToGroup n).Held Q := by
  simp only [State.yieldToGroup]
  split
  · have hexpects : (s.modRt fun rt => { rt with expectedKey := some n }).Held Q := h.held.of_kept rfl rfl rfl
    exact hexpects.doIf fun _ => hexpects.discardCopy hQ
  · exact h.held.doIf fun _ => h.held.discardCopy hQ
  · next hj => exact h.joinMissed hQ hj
  · exact h.held

theorem Entering.heardGroupTest (hQ : Absorbing Q) (h : s.Entering Q) : s.heardGroupTest.Held Q := by
  have hforgotten : (s.modRt fun rt => { rt with heardGroup := none }).Entering Q := h.of_kept rfl rfl
  simp only [State.heardGroupTest]
  split
  · cases s.lowerGroup with
    | none => exact hforgotten.held
    | some n => exact hforgotten.yieldToGroup hQ n
  · exact hforgotten.held

theorem Entering.groupWork (hQ : Absorbing Q) (n : Nat) (h : s.Entering Q) : (s.groupWork n).Held Q := by
  have hbuilt : (s.takeDigest.buildBeat n).Entering Q := h.of_kept (by simp) (by simp)
  exact h.held.doIf fun _ => (hbuilt.heardGroupTest hQ).of_kept (by simp) (by simp) (by simp)

theorem Held.holdoverAtBoundary (hQ : Absorbing Q) (h : s.Held Q) : s.holdoverAtBoundary.Held Q := by
  simp only [State.holdoverAtBoundary]
  split
  · exact h
  · split
    · exact h.of_kept (by simp) (by simp) (by simp)
    · have hcounted : (s.modTb fun tb =>
          { tb with holdoverEpochs := min s.lossEpochs (s.tb.holdoverEpochs + 1) }).Held Q := h.of_kept rfl rfl rfl
      exact hcounted.doIf fun _ => hcounted.isolate hQ _

theorem Held.countStuck (hQ : Absorbing Q) (h : s.Held Q) : s.countStuck.Held Q := by
  simp only [State.countStuck]
  split
  · have hcounted : (s.modBi fun bi => { bi with stuckEpochs := s.bi.stuckEpochs + 1 }).Held Q := h.of_kept rfl rfl rfl
    exact hcounted.doIf fun _ => hcounted.isolate hQ _
  · exact h.of_kept rfl rfl rfl

theorem Held.lineWork (hQ : Absorbing Q) (natural : Bool) (h : s.Held Q) : (s.lineWork natural).Held Q := by
  have hmark (v : State) (hv : v.Held Q) : (v.markSeenAtBoundary natural).Held Q :=
    hv.of_kept (by simp [markSeenAtBoundary]) (by simp [markSeenAtBoundary]) (by simp [markSeenAtBoundary])
  have hdrive (v : State) (hv : v.Held Q) : v.startDrive.Held Q := hv.doIf fun _ => hv.of_kept rfl rfl rfl
  have hclash (v : State) (hv : v.Held Q) : v.advanceClashWindow.Held Q := hv.of_kept rfl rfl rfl
  exact (hclash _ (hdrive _ (hmark _ (h.holdoverAtBoundary hQ)))).countStuck hQ

theorem Held.countQuiet (c : Bool) (h : s.Held Q) : (s.countQuiet c).Held Q := by
  unfold State.countQuiet
  split
  · exact h.of_kept rfl rfl rfl
  · exact h.of_kept rfl rfl rfl
  · exact h

theorem Held.countUnlocked (hQ : Absorbing Q) (h : s.Held Q) : s.countUnlocked.Held Q := by
  simp only [State.countUnlocked]
  split
  · have hcounted : (s.modSc fun sc => { sc with unlocked := s.sc.unlocked + 1 }).Held Q := h.of_kept rfl rfl rfl
    exact hcounted.doIf fun _ => hcounted.isolate hQ _
  · exact h

theorem Held.resyncTimeout (hQ : Absorbing Q) (h : s.Held Q) : s.resyncTimeout.Held Q := by
  refine h.doIf fun hc => ?_
  simp only [Bool.and_eq_true, decide_eq_true_iff] at hc
  refine h.imp (·.listenUnheard) fun hq => ?_
  rw [hc.1] at hq
  simpa using hQ.unheard _ hq

theorem Held.joinTest (hQ : Absorbing Q) (h : s.Held Q) : s.joinTest.Held Q := by
  refine h.doIf fun hc => ?_
  simp only [Bool.and_eq_true, decide_eq_true_iff] at hc
  obtain ⟨⟨⟨hst, hsd⟩, -⟩, -⟩ := hc
  exact .inl (blanked_of_confirmed hQ h hsd (.inl hst)).enterGroup

theorem Held.resyncTest (hQ : Absorbing Q) (h : s.Held Q) : s.resyncTest.Held Q := by
  refine h.doIf fun hc => ?_
  simp only [Bool.and_eq_true, decide_eq_true_iff] at hc
  exact .inl (blanked_of_confirmed hQ h hc.2 (.inr hc.1)).enterGroup

theorem Held.leaveIfPending (hQ : Absorbing Q) (h : s.Held Q) : s.leaveIfPending.Held Q := by
  refine h.doIf fun hc => ?_
  simp only [Bool.and_eq_true, decide_eq_true_iff] at hc
  exact .inl ((blanked_of_inside hQ h (.inl hc.1)).of_os (proposeLeave_os s))

theorem Held.controllerWork (hQ : Absorbing Q) (c d : Bool) (h : s.Held Q) : (s.controllerWork c d).Held Q := by
  have hholdoff : (s.countHoldoff c).Held Q := h.doIf fun _ => h.of_kept rfl rfl rfl
  exact (((((hholdoff.countQuiet d).countUnlocked hQ).resyncTimeout hQ).joinTest hQ).resyncTest hQ).leaveIfPending hQ

/-- A boundary at which no group is founded. -/
theorem Entering.boundary (hQ : Absorbing Q) (natural : Bool) (hf : s.foundsNow = false) (h : s.Entering Q) :
    (s.boundary natural).Held Q := by
  have hwork (n : Nat) (c d : Bool) : (s.stepsOneToThree.afterSteps n natural c d).Held Q :=
    ((((((h.stepsOneToThree hQ hf).groupWork hQ n).lineWork hQ natural).controllerWork hQ c d).settle).of_kept
      (by simp) (by simp) (by simp)).settle
  rw [boundary_eq]
  exact hwork _ _ _

theorem settled_boundary (natural : Bool) (s : State) : (s.boundary natural).Settled := settle_settled _

/-! ### The time step -/

/-- The states that a station which was inside may fall into: ISOLATED, DORMANT, and the two that follow without a
standing. -/
def FallenOut (st : StationState) (sd : FollowStanding) : Prop :=
  (st ≠ .member ∧ st ≠ .leaving ∧ st ≠ .joining) ∧ (sd = .none ∨ (st ≠ .listen ∧ st ≠ .resync))

theorem absorbing_fallenOut : Absorbing FallenOut where
  isolated _ := by simp [FallenOut]
  outside _ _ h := h.1
  rests _ _ h := h.2
  none _ _ h := ⟨h.1, .inl rfl⟩
  unheard _ _ := by simp [FallenOut]

theorem opens_fallenOut : Opens FallenOut where
  dormant _ := by simp [FallenOut]
  resync := by simp [FallenOut]

/-- The one state that a station outside may be sent to. -/
def Isolated (st : StationState) (_ : FollowStanding) : Prop := st = .isolated

theorem absorbing_isolated : Absorbing Isolated where
  isolated _ := rfl
  outside st _ h := by simp [show st = .isolated from h]
  rests st _ h := by simp [show st = .isolated from h]
  none _ _ h := h
  unheard _ h := absurd h (by simp [Isolated])

/-- For every station that can be isolated there is a set to fall into that does not hold its own state. -/
theorem exists_absorbing (hc : s.canIsolate = true) (hb : s.Blanked) :
    ∃ Q, Absorbing Q ∧ s.Entering Q ∧ ∀ sd, ¬Q s.sc.station sd := by
  by_cases hi : s.Inside
  · refine ⟨FallenOut, absorbing_fallenOut, ⟨.inl hb, fun _ => opens_fallenOut⟩, fun sd hq => ?_⟩
    obtain ⟨⟨hm, hl, hj⟩, -⟩ := hq
    obtain h | h | h := inside_iff.mp hi
    · exact hm h
    · exact hl h
    · exact hj h
  · refine ⟨Isolated, absorbing_isolated, ⟨.inl hb, fun h => absurd h hi⟩, fun sd hq => ?_⟩
    simp [canIsolate, show s.sc.station = .isolated from hq] at hc

/-- What is left of a time step: both gates inactive, and the blanking unless the station has left its state. -/
def GatesHeld (st : StationState) (t : State) : Prop :=
  t.os.gh = false ∧ t.os.gl = false ∧ (t.sc.station = st → t.os.blanking = true)

theorem Held.gatesHeld {st : StationState} (hQ : Absorbing Q) (h : s.Held Q) (hst : ∀ sd, ¬Q st sd) (hs : s.Settled)
    (hg : s.os.GatesOk) : s.GatesHeld st := by
  obtain hb | hq := h
  · exact ⟨hb.gh, hb.gl, fun _ => hb.blanking⟩
  · obtain ⟨hm, hl, -⟩ := hQ.outside _ _ hq
    obtain ⟨-, hgh, hgl, -⟩ := outputsOff_of_settled hs (by simp [isMember, hm, hl]) hg
    exact ⟨hgh, hgl, fun h => absurd hq (h ▸ hst _)⟩

theorem blanked_timeStep (s : State) : s.timeStep.Blanked := by
  have hblanked : (s.modOs fun os => { os with blanking := true }).regate.Blanked := blanked_regate rfl
  exact hblanked.of_os rfl

theorem timeStep_kept (s : State) : s.timeStep.sc = s.sc ∧ s.timeStep.tb = s.tb ∧ s.timeStep.rt = s.rt
    ∧ s.timeStep.cq = s.cq ∧ s.timeStep.pu = s.pu ∧ s.timeStep.fu = s.fu ∧ s.timeStep.bi = s.bi
    ∧ s.timeStep.sp.record = s.sp.record := by
  simp [timeStep]

@[simp] theorem stepped_timeStep (s : State) : s.timeStep.stepped = true := hasEvent_raise_same ..

@[simp] theorem stepped_breakQuiet (s : State) : s.breakQuiet.stepped = s.stepped := by simp [breakQuiet]

@[simp] theorem stepped_edgeNoted (s : State) : s.edgeNoted.stepped = s.stepped := by simp [edgeNoted]

@[simp] theorem stepped_edgeTreated (s : State) : s.edgeTreated.stepped = s.stepped := by simp [edgeTreated]

/-- What the edge ends with leaves the gates held. -/
theorem Held.edgeTreated (h : s.Held Q) : s.edgeTreated.Held Q := by
  have hbefore : (s.modTb fun tb => { tb with markSeen := true }).breakQuiet.Held Q :=
    h.of_kept (by simp [breakQuiet]) (by simp [breakQuiet]) (by simp [breakQuiet])
  exact hbefore.settle

theorem settled_edgeTreated (s : State) : s.edgeTreated.Settled := settle_settled _

/-- A time step forward holds the gates over its own alignment and boundary. -/
theorem gatesHeld_stepForward (lead : Nat) (hc : s.canIsolate = true) (h : s.NoFounding) :
    (s.timeStep.alignForward lead true).edgeTreated.GatesHeld s.sc.station
      ∧ (s.timeStep.alignForward lead true).edgeTreated.hasEvent .timeStep = true := by
  obtain ⟨hsc, -, -, -, -, -, -, hrecord⟩ := timeStep_kept s
  obtain ⟨htb', hsc'⟩ := alignCycle_kept lead true s.timeStep.alignCounters
  have haligned : (s.timeStep.alignCounters.alignCycle lead true).Blanked :=
    Blanked.alignCycle lead ((blanked_timeStep s).of_os rfl)
  have hstation : (s.timeStep.alignCounters.alignCycle lead true).sc = s.sc := hsc'.trans hsc
  have hsteady : (s.timeStep.alignCounters.alignCycle lead true).sp.record = s.sp.record :=
    (steady_alignCycle (Steady.rfl' (w := true) (a := s.timeStep.alignCounters))).record.trans hrecord
  have hfounds := foundsNow_of_noFounding (h.congr hstation hsteady)
  obtain ⟨Q, hQ, hentering, hout⟩ := exists_absorbing ((canIsolate_congr (congrArg _ hstation)).trans hc) haligned
  have hheld : (s.timeStep.alignForward lead true).Held Q :=
    hentering.held.doIf fun _ => hentering.boundary hQ false hfounds
  have hgates : (s.timeStep.alignForward lead true).edgeTreated.os.GatesOk :=
    (steady_edgeTreated (steady_alignForward (Steady.rfl' (w := false) (a := s.timeStep)))).gates
      (gatesOk_of_off (blanked_timeStep s).gh (blanked_timeStep s).gl)
  refine ⟨hheld.edgeTreated.gatesHeld hQ ?_ (settled_edgeTreated _) hgates, ?_⟩
  · rwa [hstation] at hout
  · change (s.timeStep.alignForward lead true).edgeTreated.stepped = true
    rw [stepped_edgeTreated, stepped_alignForward, stepped_timeStep]

/-- A time step backward holds the gates over its re-anchoring. -/
theorem gatesHeld_stepBackward (s : State) : s.timeStep.alignBackward.edgeTreated.GatesHeld s.sc.station
    ∧ s.timeStep.alignBackward.edgeTreated.hasEvent .timeStep = true := by
  have haligned : s.timeStep.alignBackward.Blanked :=
    Blanked.reanchor ((blanked_timeStep s).of_os (t := s.timeStep.alignCounters) rfl)
  have hheld : s.timeStep.alignBackward.edgeTreated.Held fun _ _ => False := Held.edgeTreated (.inl haligned)
  have hblanked := hheld.resolve_right id
  refine ⟨⟨hblanked.gh, hblanked.gl, fun _ => hblanked.blanking⟩, ?_⟩
  change s.timeStep.alignBackward.edgeTreated.stepped = true
  rw [stepped_edgeTreated, stepped_alignBackward, stepped_timeStep]

end State
end Sys2Proof.Machine
end

section
/-! The local cycle under an alignment (R131, R132, R146, R148): a jump within the cycle, one over its end, and the
re-anchoring beyond that. -/

namespace Sys2Proof.Machine

variable {s t : State}

namespace State

/-! ### A half-cycle point on the way (R148) -/

theorem pointForInput_pu (s : State) (i : InputNo) : (s.pointForInput i).pu = s.pu := by
  cases hc : s.clearsAtPoint i with
  | true => simp [pointForInput_of_clears hc, unlatched]
  | false => simp [pointForInput_of_stays hc]

theorem pointFor_pu (l : List InputNo) (s : State) : (pointFor l s).pu = s.pu :=
  foldl_keeps (P := (·.pu)) pointForInput_pu l s

theorem pointFor_os (l : List InputNo) (s : State) : (pointFor l s).os = s.os :=
  foldl_keeps (P := (·.os)) pointForInput_os l s

theorem settle_blanking (s : State) : s.settle.os.blanking = s.os.blanking := by
  obtain ⟨pu, os, ev, heq, -, hb⟩ := settle_frame s
  rw [heq]
  exact hb

theorem halfPoint_blanking (s : State) : s.halfPoint.os.blanking = s.os.blanking := by
  rw [halfPoint_eq, settle_blanking, pointFor_os]

theorem halfPoint_record (s : State) : s.halfPoint.sp.record = s.sp.record := by
  rw [halfPoint_eq]
  simp

/-- Where the target is the one the roster gives, a half-cycle point leaves the placement alone. -/
theorem halfPoint_of_target (h : s.targetNow = s.pu.target) : s.halfPoint.pu = s.pu ∧ s.halfPoint.os.p = s.os.p := by
  have hsame : (pointFor allInputs s).targetNow = s.targetNow := targetNow_of_same (by simp) (by simp) (by simp)
  have htarget : (pointFor allInputs s).targetNow = (pointFor allInputs s).pu.target := by rw [hsame, h, pointFor_pu]
  obtain ⟨os, heq, hp, -⟩ := remode_frame (pointFor allInputs s)
  rw [halfPoint_eq, settle_of_target htarget, heq]
  exact ⟨pointFor_pu _ s, hp.trans (by rw [pointFor_os])⟩

/-- Where nothing clears, a half-cycle point does nothing in a state that has settled. -/
theorem halfPoint_of_no_clears (hc : s.someClears = false) (h : s.Settled) : s.halfPoint = s := by
  have hstays (l : List InputNo) (hl : ∀ i ∈ l, s.clearsAtPoint i = false) : pointFor l s = s := by
    induction l with
    | nil => rfl
    | cons i l ih =>
      rw [pointFor_cons, pointForInput_of_stays (hl i List.mem_cons_self)]
      exact ih fun j hj => hl j (List.mem_cons_of_mem _ hj)
  have hnone : ∀ i ∈ allInputs, s.clearsAtPoint i = false := by simpa [someClears] using hc
  rw [halfPoint_eq, hstays allInputs hnone, settle_of_settled h]

/-! ### P moves on within a cycle (R131) -/

/-- P is put further on, before the point on the way is made. -/
def atP (p : Nat) (s : State) : State := s.modOs fun os => { os with p := p }

theorem basis_atP (p : Nat) (s : State) : SameBasis s (s.atP p) := basis_modOs .rfl' rfl

theorem passTo_cases (p : Nat) (s : State) : s.passTo p = s.atP p ∨ s.passTo p = (s.atP p).halfPoint := by
  unfold passTo pointIfPassed doIf
  split
  · exact .inr rfl
  · exact .inl rfl

theorem passTo_blanking (p : Nat) (s : State) : (s.passTo p).os.blanking = s.os.blanking := by
  obtain h | h := passTo_cases p s <;> rw [h]
  · rfl
  · exact halfPoint_blanking _

theorem passTo_record (p : Nat) (s : State) : (s.passTo p).sp.record = s.sp.record := by
  obtain h | h := passTo_cases p s <;> rw [h]
  · rfl
  · exact halfPoint_record _

theorem settled_passTo (p : Nat) (h : s.Settled) : (s.passTo p).Settled := by
  obtain hc | hc := passTo_cases p s <;> rw [hc]
  · exact h.congr (basis_atP p s)
  · exact settled_halfPoint

theorem passTo_of_settled (p : Nat) (h : s.Settled) : (s.passTo p).pu = s.pu ∧ (s.passTo p).os.p = p := by
  obtain hc | hc := passTo_cases p s <;> rw [hc]
  · exact ⟨rfl, rfl⟩
  · exact halfPoint_of_target (h.congr (basis_atP p s)).2

theorem passTo_of_no_clears (p : Nat) (hc : s.someClears = false) (h : s.Settled) : s.passTo p = s.atP p := by
  obtain hp | hp := passTo_cases p s
  · exact hp
  · exact hp.trans (halfPoint_of_no_clears hc (h.congr (basis_atP p s)))

/-! ### The local cycle start on the way (R131) -/

theorem cycleStart_blanking (e : Bool) (s : State) : (s.cycleStart e).os.blanking = (s.os.blanking && !e) := by
  rw [cycleStart_eq, ← cycleLatched_blanking s, ← clampEvent_blanking s.cycleLatched]
  rfl

theorem crossStart_blanking (e : Bool) (s : State) : (s.crossStart e).2.os.blanking = (s.os.blanking && !e) := by
  have hstart : (s.startWithPoint e).os.blanking = (s.os.blanking && !e) := by
    rw [startWithPoint_eq]
    split
    · exact cycleStart_blanking e s
    · split
      · rw [cycleStart_blanking, halfPoint_blanking, nextFree]
      · rw [halfPoint_blanking, cycleStart_blanking, nextFree]
  exact hstart

theorem cycleStart_placement (e : Bool) (s : State) : (s.cycleStart e).pu.offset = s.endOffset
    ∧ (s.cycleStart e).pu.target = s.pu.target ∧ (s.cycleStart e).os.p = 0 := by
  rw [cycleStart_pu]
  exact ⟨placeCycle_offset s, by simp, by rw [cycleStart_eq]; rfl⟩

/-- The start takes the offset of the cycle's end, whichever way it and its half-cycle point are ordered. -/
theorem crossStart_of_settled (e : Bool) (h : s.Settled) : (s.crossStart e).2.pu.offset = s.endOffset
    ∧ (s.crossStart e).2.pu.target = s.pu.target ∧ (s.crossStart e).2.os.p = 0 := by
  have hfree : s.nextFree.Settled := h.congr ⟨rfl, rfl, rfl, fun _ => rfl, rfl, rfl, rfl, rfl⟩
  have hstart : (s.startWithPoint e).pu.offset = s.endOffset ∧ (s.startWithPoint e).pu.target = s.pu.target
      ∧ (s.startWithPoint e).os.p = 0 := by
    rw [startWithPoint_eq]
    split
    · exact cycleStart_placement e s
    · split
      · obtain ⟨hoffset, htarget, hp⟩ := cycleStart_placement e s.nextFree.halfPoint
        obtain ⟨hpu, -⟩ := halfPoint_of_target hfree.2
        rw [endOffset_congr (hpu.trans rfl) ((halfPoint_record s.nextFree).trans rfl)] at hoffset
        exact ⟨hoffset, htarget.trans (by rw [hpu]; rfl), hp⟩
      · obtain ⟨hoffset, htarget, hp⟩ := cycleStart_placement e s.nextFree
        obtain ⟨hpu', hp'⟩ := halfPoint_of_target (settled_cycleStart e hfree).2
        rw [hpu', hp']
        exact ⟨hoffset, htarget, hp⟩
  exact hstart

theorem settled_crossStart (e : Bool) (h : s.Settled) : (s.crossStart e).2.Settled := settled_startWithPoint e h

/-! ### A crossed compare (R146) -/

theorem compareCrossed_of_run {q : Nat} (hm : s.os.mode = .run) (hp : s.os.p < s.os.cmp) (hq : s.os.cmp ≤ q) :
    s.compareCrossed q = true := by
  simp [compareCrossed, requestChanged, requestOf, hm, hp, Nat.not_lt.mpr hq]

theorem compareCrossed_of_same {q : Nat} (h : s.os.mode ≠ .run ∨ s.os.cmp ≤ s.os.p ∨ q < s.os.cmp) (hq : s.os.p ≤ q) :
    s.compareCrossed q = false := by
  by_cases hm : s.os.mode = .run
  · have hsame : s.os.p < s.os.cmp ↔ q < s.os.cmp := by
      obtain h | h | h := h
      · exact absurd hm h
      · omega
      · omega
    simp [compareCrossed, requestChanged, requestOf, hm, hsame]
  · cases hmode : s.os.mode with
    | off => simp [compareCrossed, requestChanged, requestOf, hmode]
    | lowClamp => simp [compareCrossed, requestChanged, requestOf, hmode]
    | run => exact absurd hmode hm

theorem releaseIf_true (s : State) : (s.releaseIf true).os.gh = false ∧ (s.releaseIf true).os.gl = false := ⟨rfl, rfl⟩

theorem releaseIf_blanking (c : Bool) (s : State) : (s.releaseIf c).os.blanking = s.os.blanking := by cases c <;> rfl

theorem settled_releaseIf (c : Bool) (h : s.Settled) : (s.releaseIf c).Settled :=
  h.congr (basis_doIf .rfl' (basis_modOs .rfl' rfl))

/-! ### The three ways of an alignment -/

theorem alignCycle_within {j : Nat} (h : s.os.p + j < s.pu.length) (c : Bool) :
    s.alignCycle j c = (s.passTo (s.os.p + j)).releaseIf (s.compareCrossed (s.os.p + j)) := if_pos h

theorem alignCycle_across {j : Nat} (h : s.pu.length ≤ s.os.p + j)
    (hr : s.os.p + j - s.pu.length < s.period - s.slewStep) (c : Bool) : s.alignCycle j c = s.jumpAcrossEnd j (!c) := by
  rw [alignCycle, if_neg (Nat.not_lt.mpr h), if_pos hr]

theorem alignCycle_beyond {j : Nat} (h : s.pu.length ≤ s.os.p + j)
    (hr : s.period - s.slewStep ≤ s.os.p + j - s.pu.length) (c : Bool) : s.alignCycle j c = s.reanchor := by
  rw [alignCycle, if_neg (Nat.not_lt.mpr h), if_neg (Nat.not_lt.mpr hr)]

theorem jumpAcrossEnd_blanking (j : Nat) (e : Bool) (s : State) :
    (s.jumpAcrossEnd j e).os.blanking = (s.os.blanking && !e) := by
  simp only [jumpAcrossEnd]
  rw [releaseIf_blanking, passTo_blanking, crossStart_blanking, passTo_blanking]

theorem jumpAcrossEnd_of_settled (j : Nat) (e : Bool) (h : s.Settled) :
    (s.jumpAcrossEnd j e).os.p = s.os.p + j - s.pu.length ∧ (s.jumpAcrossEnd j e).pu.offset = s.endOffset
      ∧ (s.jumpAcrossEnd j e).pu.target = s.pu.target ∧ (s.jumpAcrossEnd j e).Settled := by
  have hlast := settled_passTo (s.pu.length - 1) h
  obtain ⟨hpu, -⟩ := passTo_of_settled (s.pu.length - 1) h
  obtain ⟨hoffset, htarget, -⟩ := crossStart_of_settled e hlast
  obtain ⟨hpu', hp'⟩ := passTo_of_settled (s.os.p + j - s.pu.length) (settled_crossStart e hlast)
  have hsettled := settled_passTo (s.os.p + j - s.pu.length) (settled_crossStart e hlast)
  rw [endOffset_congr hpu (passTo_record _ s)] at hoffset
  rw [hpu] at htarget
  simp only [jumpAcrossEnd]
  refine ⟨(releaseIf_kept _ _).2.2.2.trans hp', ?_, ?_, settled_releaseIf _ hsettled⟩
  · rw [(releaseIf_kept _ _).2.2.1, hpu', hoffset]
  · rw [(releaseIf_kept _ _).2.2.1, hpu', htarget]

theorem jumpAcrossEnd_releases (j : Nat) (e : Bool) (hm : s.os.mode = .run) (hp : s.os.p < s.os.cmp)
    (hc : s.os.cmp < s.pu.length) : (s.jumpAcrossEnd j e).os.gh = false ∧ (s.jumpAcrossEnd j e).os.gl = false := by
  have hcrossed : s.compareCrossed (s.pu.length - 1) = true := compareCrossed_of_run hm hp (by omega)
  simp only [jumpAcrossEnd, hcrossed, Bool.true_or]
  exact releaseIf_true _

/-- An alignment keeps the placement settled. -/
theorem settled_alignCycle (j : Nat) (c : Bool) (h : s.Settled) : (s.alignCycle j c).Settled := by
  obtain hin | hout := Nat.lt_or_ge (s.os.p + j) s.pu.length
  · rw [alignCycle_within hin]
    exact settled_releaseIf _ (settled_passTo _ h)
  · obtain hr | hr := Nat.lt_or_ge (s.os.p + j - s.pu.length) (s.period - s.slewStep)
    · rw [alignCycle_across hout hr]
      exact (jumpAcrossEnd_of_settled j _ h).2.2.2
    · rw [alignCycle_beyond hout hr]
      exact h.congr (basis_reanchor s)

theorem alignCycle_within_of_settled {j : Nat} (hin : s.os.p + j < s.pu.length) (c : Bool) (h : s.Settled) :
    (s.alignCycle j c).os.p = s.os.p + j ∧ (s.alignCycle j c).pu = s.pu := by
  obtain ⟨hpu, hp⟩ := passTo_of_settled (s.os.p + j) h
  rw [alignCycle_within hin, (releaseIf_kept _ _).2.2.1, (releaseIf_kept _ _).2.2.2]
  exact ⟨hp, hpu⟩

/-- The local cycle under an alignment. -/
theorem alignCycle_spec (j : Nat) (c : Bool) (s : State) :
    (s.os.p + j < s.pu.length →
        (s.Settled → (s.alignCycle j c).os.p = s.os.p + j ∧ (s.alignCycle j c).pu = s.pu)
        ∧ (s.os.mode = .run → s.os.p < s.os.cmp → s.os.cmp ≤ s.os.p + j →
            (s.alignCycle j c).os.gh = false ∧ (s.alignCycle j c).os.gl = false)
        ∧ ((s.os.mode ≠ .run ∨ s.os.cmp ≤ s.os.p ∨ s.os.p + j < s.os.cmp) → s.Settled → s.someClears = false →
            s.alignCycle j c = { s with os := { s.os with p := s.os.p + j } }))
      ∧ (s.pu.length ≤ s.os.p + j → s.os.p + j - s.pu.length < s.period - s.slewStep →
          (s.Settled → (s.alignCycle j c).os.p = s.os.p + j - s.pu.length
              ∧ (s.alignCycle j c).pu.offset = s.endOffset
              ∧ (s.alignCycle j c).pu.target = s.pu.target)
          ∧ (c = true → (s.alignCycle j c).os.blanking = s.os.blanking)
          ∧ (c = false → (s.alignCycle j c).os.blanking = false)
          ∧ (s.os.mode = .run → s.os.p < s.os.cmp → s.os.cmp < s.pu.length →
              (s.alignCycle j c).os.gh = false ∧ (s.alignCycle j c).os.gl = false))
      ∧ (s.pu.length ≤ s.os.p + j → s.period - s.slewStep ≤ s.os.p + j - s.pu.length → s.alignCycle j c = s.reanchor) := by
  refine ⟨fun hin => ⟨alignCycle_within_of_settled hin c, fun hm hp hq => ?_, fun hsame h hc => ?_⟩, fun hout hr => ?_,
    fun hout hr => alignCycle_beyond hout hr c⟩
  · rw [alignCycle_within hin, compareCrossed_of_run hm hp hq]
    exact releaseIf_true _
  · rw [alignCycle_within hin, compareCrossed_of_same hsame (Nat.le_add_right ..), passTo_of_no_clears _ hc h]
    rfl
  · rw [alignCycle_across hout hr]
    refine ⟨fun h => ?_, fun hc => ?_, fun hc => ?_, jumpAcrossEnd_releases j _⟩
    · obtain ⟨hp, hoffset, htarget, -⟩ := jumpAcrossEnd_of_settled j (!c) h
      exact ⟨hp, hoffset, htarget⟩
    · rw [jumpAcrossEnd_blanking, hc]
      exact Bool.and_true _
    · rw [jumpAcrossEnd_blanking, hc]
      exact Bool.and_false _

end State
end Sys2Proof.Machine
end

section
/-! A recognised edge at a LOCKED station (R29, R30, R33, R34): the bands of a station that drives the mark, and the
alignment either way of one that follows. -/

namespace Sys2Proof.Machine

variable {s t : State}

namespace State

theorem drivesMarks_congr (h : t.sc.station = s.sc.station) : t.drivesMarks = s.drivesMarks := by
  simp only [drivesMarks, isMember_congr h, h]

theorem canIsolate_of_drivesMarks (h : s.drivesMarks = true) : s.canIsolate = true := by
  simp only [drivesMarks, Bool.or_eq_true, decide_eq_true_iff] at h
  obtain h | h := h
  · exact canIsolate_of_member h
  · simp [canIsolate, h]

theorem station_ne_listen_of_drivesMarks (h : s.drivesMarks = true) : s.sc.station ≠ .listen := by
  intro hl
  simp [drivesMarks, isMember, hl] at h

theorem slewStep_congr (h : t.sp.record = s.sp.record) : t.slewStep = s.slewStep := by simp only [slewStep, h]

/-- Outside LISTEN the edge is noted in the Time Base alone. -/
theorem edgeNoted_sc (h : s.sc.station ≠ .listen) : s.edgeNoted.sc = s.sc := by
  rw [edgeNoted, breakQuiet_of_ne (by simpa using h)]
  rfl

theorem edgeTreated_sc (h : s.sc.station ≠ .listen) : s.edgeTreated.sc = s.sc := by
  rw [edgeTreated, breakQuiet_of_ne (by simpa using h)]
  simp

/-- The counters after an edge that aligns nothing. -/
theorem sameCounters_edgeNoted (s : State) : s.edgeNoted.edgeTreated.SameCounters s := by
  obtain ⟨htb, -⟩ := edgeNoted_kept s
  exact edgeTreated_counters (sameCounters_of_tb (by rw [htb]) (by rw [htb]) (by rw [htb]))

theorem markEdge_driving (hd : s.drivesMarks = true) (hl : s.tb.state = .locked) :
    s.markEdge = (s.edgeNoted.edgeWhileDriving (s.leadOf s.edgePos)).edgeTreated := by
  obtain ⟨htb, hst, -⟩ := edgeNoted_kept s
  have hcan := canIsolate_of_drivesMarks hd
  rw [markEdge_of_ne_holdover (station_ne_setup_of_canIsolate hcan) (by simp [hl]),
    treatEdge_driving _ _ ((canIsolate_congr hst).trans hcan) (by rw [htb]; exact hl) ((drivesMarks_congr hst).trans hd)]

theorem markEdge_following (hc : s.canIsolate = true) (hd : s.drivesMarks = false) (hl : s.tb.state = .locked) :
    s.markEdge = (s.edgeNoted.edgeWhileFollowing (s.leadOf s.edgePos) s.edgePos).edgeTreated := by
  obtain ⟨htb, hst, -⟩ := edgeNoted_kept s
  rw [markEdge_of_ne_holdover (station_ne_setup_of_canIsolate hc) (by simp [hl]),
    treatEdge_following _ _ ((canIsolate_congr hst).trans hc) (by rw [htb]; exact hl) ((drivesMarks_congr hst).trans hd)]

/-! ### The bands -/

section Bands

variable {lead trail : Nat}

theorem edgeWhileDriving_zero (s : State) : s.edgeWhileDriving 0 = s := if_pos rfl

theorem edgeWhileDriving_near (h0 : lead ≠ 0) (hw : lead ≤ s.lockWindow) :
    s.edgeWhileDriving lead = s.alignForward lead false := by
  rw [edgeWhileDriving, if_neg h0, if_pos hw]

theorem edgeWhileDriving_far (h0 : lead ≠ 0) (hw : s.lockWindow < lead) (hf : 2 * lead ≤ s.epochCounts) :
    s.edgeWhileDriving lead = s.timeStep.alignForward lead true := by
  rw [edgeWhileDriving, if_neg h0, if_neg (Nat.not_le.mpr hw), if_pos (by simpa [leadIsForward] using hf)]

theorem edgeWhileDriving_stray (h0 : lead ≠ 0) (hw : s.lockWindow < lead) (hf : s.epochCounts < 2 * lead) :
    s.edgeWhileDriving lead = s.raise .strayMark := by
  rw [edgeWhileDriving, if_neg h0, if_neg (Nat.not_le.mpr hw), if_neg (by simpa [leadIsForward] using hf)]

theorem edgeWhileFollowing_zero (trail : Nat) (s : State) : s.edgeWhileFollowing 0 trail = s := if_pos rfl

theorem edgeWhileFollowing_near (h0 : lead ≠ 0) (hf : 2 * lead ≤ s.epochCounts) (hw : lead ≤ s.lockWindow) :
    s.edgeWhileFollowing lead trail = s.alignForward lead false := by
  rw [edgeWhileFollowing, if_neg h0, if_pos (by simpa [leadIsForward] using hf), if_pos hw]

theorem edgeWhileFollowing_far (h0 : lead ≠ 0) (hf : 2 * lead ≤ s.epochCounts) (hw : s.lockWindow < lead) :
    s.edgeWhileFollowing lead trail = s.timeStep.alignForward lead true := by
  rw [edgeWhileFollowing, if_neg h0, if_pos (by simpa [leadIsForward] using hf), if_neg (Nat.not_le.mpr hw)]

theorem edgeWhileFollowing_late (hf : s.epochCounts < 2 * lead) (hw : trail ≤ s.lockWindow) :
    s.edgeWhileFollowing lead trail = s.alignBackward := by
  rw [edgeWhileFollowing, if_neg (by omega), if_neg (by simpa [leadIsForward] using hf), if_pos hw]

theorem edgeWhileFollowing_tooLate (hf : s.epochCounts < 2 * lead) (hw : s.lockWindow < trail) :
    s.edgeWhileFollowing lead trail = s.timeStep.alignBackward := by
  rw [edgeWhileFollowing, if_neg (by omega), if_neg (by simpa [leadIsForward] using hf), if_neg (Nat.not_le.mpr hw)]

end Bands

/-! ### What the alignments leave -/

theorem noFounding_timeStep (h : s.NoFounding) : s.timeStep.NoFounding := by
  obtain ⟨hsc, -, -, -, -, -, -, hrecord⟩ := timeStep_kept s
  exact h.congr hsc hrecord

/-- The counters after an alignment forward, with or without a time step before it. -/
theorem counters_alignForward {v : State} (lead : Nat) (c : Bool) (hv : v = s ∨ v = s.timeStep) (h : s.NoFounding) :
    (v.alignForward lead c).edgeTreated.tb.b = 2 ∧ (v.alignForward lead c).edgeTreated.tb.k = 0
      ∧ (v.alignForward lead c).edgeTreated.tb.en = (if 3 ≤ lead then s.tb.en + 1 else s.tb.en) := by
  have hfounding : v.NoFounding := by
    obtain rfl | rfl := hv
    · exact h
    · exact noFounding_timeStep h
  have htb : v.tb = s.tb := by
    obtain rfl | rfl := hv
    · rfl
    · exact timeStep_tb s
  obtain ⟨-, hb, hk, hen, -⟩ := alignForward_kept lead c hfounding
  rw [(edgeTreated_kept _).1, ← htb]
  exact ⟨hb, hk, hen⟩

theorem settled_timeStep (h : s.Settled) : s.timeStep.Settled :=
  h.congr (basis_raise (basis_modOs (basis_modOs .rfl' rfl) rfl))

/-- What a backward alignment leaves, with or without a time step before it. -/
theorem edgeTreated_alignBackward {v : State} (hv : v = s ∨ v = s.timeStep) :
    v.alignBackward.edgeTreated.tb.b = 2 ∧ v.alignBackward.edgeTreated.tb.k = 0
      ∧ v.alignBackward.edgeTreated.tb.en = s.tb.en ∧ v.alignBackward.edgeTreated.sc.station = s.sc.station
      ∧ (s.Settled → v.alignBackward.edgeTreated.pu.offset = s.endOffset ∧ v.alignBackward.edgeTreated.pu.step = 0
          ∧ v.alignBackward.edgeTreated.pu.length = s.period
          ∧ v.alignBackward.edgeTreated.os.p = (2 + s.period - s.endOffset) % s.period) := by
  have hkept : v.sc = s.sc ∧ v.tb = s.tb ∧ v.pu = s.pu ∧ v.sp.record = s.sp.record := by
    obtain rfl | rfl := hv
    · exact ⟨rfl, rfl, rfl, rfl⟩
    · obtain ⟨hsc, htb, -, -, hpu, -, -, hrecord⟩ := timeStep_kept s
      exact ⟨hsc, htb, hpu, hrecord⟩
  obtain ⟨hsc, htb, hpu, hrecord⟩ := hkept
  obtain ⟨-, htb', hsc'⟩ := alignBackward_kept v
  obtain ⟨htb'', hst'', -⟩ := edgeTreated_kept v.alignBackward
  refine ⟨by rw [htb'', htb'], by rw [htb'', htb'], by rw [htb'', htb', htb], by rw [hst'', hsc', hsc], fun h => ?_⟩
  have hsettled : v.Settled := by
    obtain rfl | rfl := hv
    · exact h
    · exact settled_timeStep h
  obtain ⟨hpu', hos'⟩ := edgeTreated_of_settled (hsettled.congr (basis_alignBackward v))
  rw [hpu', hos', ← endOffset_congr hpu hrecord, ← period_congr hrecord]
  exact alignBackward_placement v

/-- A forward alignment by fewer than 3 counts moves P on, over the end of the cycle or within it, and does nothing else to
the placement. -/
theorem placement_alignForward {lead : Nat} (hlt : lead < 3) (h : s.Settled) :
    (s.os.p + lead < s.pu.length → (s.edgeNoted.alignForward lead false).edgeTreated.os.p = s.os.p + lead
        ∧ (s.edgeNoted.alignForward lead false).edgeTreated.pu = s.pu)
      ∧ (s.pu.length ≤ s.os.p + lead → s.os.p + lead - s.pu.length < s.period - s.slewStep →
          (s.edgeNoted.alignForward lead false).edgeTreated.os.p = s.os.p + lead - s.pu.length
          ∧ (s.edgeNoted.alignForward lead false).edgeTreated.pu.offset = s.endOffset
          ∧ (s.edgeNoted.alignForward lead false).edgeTreated.pu.target = s.pu.target) := by
  obtain ⟨-, -, -, -, -, hpu, hos, -, hsp⟩ := edgeNoted_kept s
  have hrecord : s.edgeNoted.sp.record = s.sp.record := by rw [hsp]
  have hnoted : s.edgeNoted.alignCounters.Settled := (h.congr (basis_edgeNoted s)).congr (basis_modTb .rfl')
  have heq : s.edgeNoted.alignForward lead false = s.edgeNoted.alignCounters.alignCycle lead false := by
    rw [alignForward, decide_eq_false (Nat.not_le.mpr hlt), doIf_false]
  obtain ⟨hpu', hos'⟩ := edgeTreated_of_settled (settled_alignCycle lead false hnoted)
  have hpu₀ : s.edgeNoted.alignCounters.pu = s.pu := hpu
  have hos₀ : s.edgeNoted.alignCounters.os = s.os := hos
  obtain ⟨hwithin, hacross, -⟩ := alignCycle_spec lead false s.edgeNoted.alignCounters
  rw [hpu₀, hos₀] at hwithin hacross
  rw [period_congr (t := s.edgeNoted.alignCounters) hrecord, slewStep_congr (t := s.edgeNoted.alignCounters) hrecord,
    endOffset_congr (t := s.edgeNoted.alignCounters) hpu₀ hrecord] at hacross
  rw [heq, hpu', hos']
  exact ⟨fun hin => (hwithin hin).1 hnoted, fun hout hr => (hacross hout hr).1 hnoted⟩

end State

open State in
/-- The edge at a station that drives the mark. -/
theorem markEdge_driving_spec (s : State) (lead : Nat) (hd : s.drivesMarks = true) (hl : s.tb.state = .locked)
    (hlead : lead = s.leadOf s.edgePos) : ∃ t, exec .markEdge s = .next t
      ∧ (lead = 0 → t.SameCounters s ∧ t.sc = s.sc)
      ∧ (lead ≠ 0 → 2 * lead ≤ s.epochCounts →
          t.tb.b = 2 ∧ t.tb.k = 0 ∧ t.tb.en = (if 3 ≤ lead then s.tb.en + 1 else s.tb.en))
      ∧ (lead ≠ 0 → lead < 3 → lead ≤ s.lockWindow → 2 * lead ≤ s.epochCounts → s.Settled →
          (s.os.p + lead < s.pu.length → t.os.p = s.os.p + lead ∧ t.pu = s.pu)
          ∧ (s.pu.length ≤ s.os.p + lead → s.os.p + lead - s.pu.length < s.period - s.slewStep →
              t.os.p = s.os.p + lead - s.pu.length ∧ t.pu.offset = s.endOffset ∧ t.pu.target = s.pu.target))
      ∧ (lead ≠ 0 → s.lockWindow < lead → 2 * lead ≤ s.epochCounts →
          t.hasEvent .timeStep = true ∧ t.os.gh = false ∧ t.os.gl = false
          ∧ (t.sc.station = s.sc.station → t.os.blanking = true))
      ∧ (lead ≠ 0 → s.lockWindow < lead → s.epochCounts < 2 * lead →
          t.SameCounters s ∧ t.sc = s.sc ∧ t.hasEvent .strayMark = true) := by
  obtain ⟨htb, hst, -, -, -, -, -, -, hsp⟩ := edgeNoted_kept s
  have hrecord : s.edgeNoted.sp.record = s.sp.record := by rw [hsp]
  have hwindow := lockWindow_congr (t := s.edgeNoted) hrecord
  have hcounts := epochCounts_congr (t := s.edgeNoted) hrecord
  have hen : s.edgeNoted.tb.en = s.tb.en := by rw [htb]
  have hlisten := station_ne_listen_of_drivesMarks hd
  have hsc := edgeNoted_sc hlisten
  have hlisten' : s.edgeNoted.sc.station ≠ .listen := by rwa [hst]
  have hfounding : s.edgeNoted.NoFounding := fun h => absurd h hlisten'
  have heq := markEdge_driving hd hl
  rw [← hlead] at heq
  refine ⟨_, exec_eq_next_iff.mpr heq, fun h => ?_, fun h0 hf => ?_, fun h0 hlt hw hf h => ?_, fun h0 hw hf => ?_,
    fun h0 hw hf => ?_⟩
  · rw [h, edgeWhileDriving_zero]
    exact ⟨sameCounters_edgeNoted s, (edgeTreated_sc hlisten').trans hsc⟩
  · rw [← hen]
    obtain hw | hw := Nat.lt_or_ge s.lockWindow lead
    · rw [edgeWhileDriving_far h0 (by omega) (by omega)]
      exact counters_alignForward lead true (.inr rfl) hfounding
    · rw [edgeWhileDriving_near h0 (by omega)]
      exact counters_alignForward lead false (.inl rfl) hfounding
  · rw [edgeWhileDriving_near h0 (by omega)]
    exact placement_alignForward hlt h
  · have hcan := (canIsolate_congr hst).trans (canIsolate_of_drivesMarks hd)
    obtain ⟨⟨hgh, hgl, hblanking⟩, hevent⟩ := gatesHeld_stepForward lead hcan hfounding
    rw [edgeWhileDriving_far h0 (by omega) (by omega)]
    rw [hst] at hblanking
    exact ⟨hevent, hgh, hgl, hblanking⟩
  · rw [edgeWhileDriving_stray h0 (by omega) (by omega)]
    refine ⟨edgeTreated_counters (sameCounters_of_tb (by rw [raise_tb, htb]) (by rw [raise_tb, htb]) (by rw [raise_tb, htb])),
      (edgeTreated_sc (by simpa using hlisten')).trans hsc, ?_⟩
    exact (steady_edgeTreated (Steady.rfl' (w := true))).hasEvent (hasEvent_raise_same ..)

open State in
/-- The edge at a station that follows. -/
theorem markEdge_following_spec (s : State) (lead : Nat) (hc : s.canIsolate = true) (hd : s.drivesMarks = false)
    (hl : s.tb.state = .locked) (hepochs : 2 ≤ s.listenEpochs) (hlead : lead = s.leadOf s.edgePos) :
    ∃ t, exec .markEdge s = .next t
        ∧ (lead = 0 → t.SameCounters s ∧ t.sc.station = s.sc.station)
        ∧ (lead ≠ 0 → t.tb.b = 2 ∧ t.tb.k = 0
            ∧ t.tb.en = (if 3 ≤ lead ∧ 2 * lead ≤ s.epochCounts then s.tb.en + 1 else s.tb.en))
        ∧ (lead ≠ 0 → s.lockWindow < lead → (2 * lead ≤ s.epochCounts ∨ s.lockWindow < s.edgePos) →
            t.hasEvent .timeStep = true ∧ t.os.gh = false ∧ t.os.gl = false
            ∧ (t.sc.station = s.sc.station → t.os.blanking = true))
        ∧ (s.epochCounts < 2 * lead → t.sc.station = s.sc.station)
        ∧ (s.epochCounts < 2 * lead → s.Settled →
            t.pu.offset = s.endOffset ∧ t.pu.step = 0 ∧ t.pu.length = s.period
            ∧ t.os.p = (2 + s.period - s.endOffset) % s.period)
        ∧ ((2 * lead ≤ s.epochCounts ∧ lead ≤ s.lockWindow) ∨ (s.epochCounts < 2 * lead ∧ s.edgePos ≤ s.lockWindow) →
            t.hasEvent .timeStep = s.hasEvent .timeStep) := by
  obtain ⟨htb, hst, -, -, -, hpu, -, -, hsp⟩ := edgeNoted_kept s
  have hrecord : s.edgeNoted.sp.record = s.sp.record := by rw [hsp]
  have hwindow := lockWindow_congr (t := s.edgeNoted) hrecord
  have hcounts := epochCounts_congr (t := s.edgeNoted) hrecord
  have hen : s.edgeNoted.tb.en = s.tb.en := by rw [htb]
  have hfounding := noFounding_edgeNoted hepochs
  have heq := markEdge_following hc hd hl
  rw [← hlead] at heq
  have hback (hf : s.epochCounts < 2 * lead) : ∃ v, (v = s.edgeNoted ∨ v = s.edgeNoted.timeStep)
      ∧ s.edgeNoted.edgeWhileFollowing lead s.edgePos = v.alignBackward := by
    obtain hw | hw := Nat.lt_or_ge s.lockWindow s.edgePos
    · exact ⟨_, .inr rfl, edgeWhileFollowing_tooLate (by omega) (by omega)⟩
    · exact ⟨_, .inl rfl, edgeWhileFollowing_late (by omega) (by omega)⟩
  refine ⟨_, exec_eq_next_iff.mpr heq, fun h => ?_, fun h0 => ?_, fun h0 hw hcase => ?_, fun hf => ?_, fun hf h => ?_,
    fun hcase => ?_⟩
  · rw [h, edgeWhileFollowing_zero]
    exact ⟨sameCounters_edgeNoted s, (edgeTreated_kept _).2.1.trans hst⟩
  · obtain hf | hf := Nat.lt_or_ge s.epochCounts (2 * lead)
    · obtain ⟨v, hv, hback⟩ := hback hf
      obtain ⟨hb, hk, hen', -⟩ := edgeTreated_alignBackward hv
      rw [hback, if_neg (by omega)]
      exact ⟨hb, hk, hen'.trans hen⟩
    · have hiff : (3 ≤ lead ∧ 2 * lead ≤ s.epochCounts) ↔ 3 ≤ lead := and_iff_left hf
      simp only [hiff, ← hen]
      obtain hw | hw := Nat.lt_or_ge s.lockWindow lead
      · rw [edgeWhileFollowing_far h0 (by omega) (by omega)]
        exact counters_alignForward lead true (.inr rfl) hfounding
      · rw [edgeWhileFollowing_near h0 (by omega) (by omega)]
        exact counters_alignForward lead false (.inl rfl) hfounding
  · have hheld : (s.edgeNoted.edgeWhileFollowing lead s.edgePos).edgeTreated.GatesHeld s.edgeNoted.sc.station
        ∧ (s.edgeNoted.edgeWhileFollowing lead s.edgePos).edgeTreated.hasEvent .timeStep = true := by
      obtain hf | hf := Nat.lt_or_ge s.epochCounts (2 * lead)
      · rw [edgeWhileFollowing_tooLate (by omega) (by omega)]
        exact gatesHeld_stepBackward s.edgeNoted
      · rw [edgeWhileFollowing_far h0 (by omega) (by omega)]
        exact gatesHeld_stepForward lead ((canIsolate_congr hst).trans hc) hfounding
    obtain ⟨⟨hgh, hgl, hblanking⟩, hevent⟩ := hheld
    rw [hst] at hblanking
    exact ⟨hevent, hgh, hgl, hblanking⟩
  · obtain ⟨v, hv, hback⟩ := hback hf
    obtain ⟨-, -, -, hstation, -⟩ := edgeTreated_alignBackward hv
    rw [hback]
    exact hstation.trans hst
  · obtain ⟨v, hv, hback⟩ := hback hf
    obtain ⟨-, -, -, -, hplacement⟩ := edgeTreated_alignBackward hv
    have hplaced := hplacement (h.congr (basis_edgeNoted s))
    rw [endOffset_congr hpu hrecord, period_congr hrecord] at hplaced
    rw [hback]
    exact hplaced
  · suffices h : (s.edgeNoted.edgeWhileFollowing lead s.edgePos).stepped = s.stepped from
      (stepped_edgeTreated _).trans h
    obtain ⟨hf, hw⟩ | ⟨hf, hw⟩ := hcase
    · obtain rfl | h0 := Nat.eq_zero_or_pos lead
      · rw [edgeWhileFollowing_zero, stepped_edgeNoted]
      · rw [edgeWhileFollowing_near (by omega) (by omega) (by omega), stepped_alignForward, stepped_edgeNoted]
    · rw [edgeWhileFollowing_late (by omega) (by omega), stepped_alignBackward, stepped_edgeNoted]

open State in
/-- Settles O24: the bands of the edge one by one; a time step holds the gates through its own boundary. -/
theorem markEdgeWhileDriving : Obligations.MarkEdgeWhileDriving := by
  unfold Obligations.MarkEdgeWhileDriving
  exact ⟨markEdge_driving_spec, markEdge_following_spec, alignCycle_spec, fun _ => rfl⟩

end Sys2Proof.Machine
end
